-- ==== Sys2Proof/Word.lean ====
section
/-! DEFINITION. The word types of packets, registers and memory. -/

namespace Sys2Proof

/-- The smallest addressable unit of every space (07_memory_tiers.md). -/
abbrev Byte := BitVec 8
abbrev U16 := BitVec 16
abbrev U32 := BitVec 32
/-- Every register is 64 bits wide (15_registers.md). -/
abbrev U64 := BitVec 64

end Sys2Proof
end

