-- ==== Sys2Proof/Syntax.lean ====
section
/-! DEFINITION. The commands of the block: one constructor per row of spec/opcode_table.json, and the
data their operands carry (tiles, packets, frames, samples). -/

namespace Sys2Proof

/-- What every SQ entry carries besides its parameters (03_commands_and_events.md Table 3.6), and the queue it is
fetched from. `rsv` says that some reserved byte or bit of the packet is non-zero (R6). -/
structure Env where
  q      : U16
  rsv    : Bool
  fence  : Bool
  atTick : Bool
  lateRun : Bool
  notify : Bool
  chain  : Bool
  ctx    : BitVec 10
  tag    : U16
  launch : U64
  deriving DecidableEq, Repr

/-- A tile header (04_stations_and_streams.md Table 4.3). -/
structure TileHdr where
  kind    : Nat
  fmt     : Nat
  scheme  : Nat
  poison  : Bool
  spilled : Bool
  transposed : Bool
  vrows   : Nat
  vcols   : Nat
  epoch   : Nat
  stream  : Nat
  seq     : Nat
  trow    : Nat
  tcol    : Nat
  cscale  : Nat
  aux     : Nat
  ctx     : Nat
  crc     : Nat
  deriving DecidableEq, Repr

/-- A tile: header, element encodings in storage order, scale encodings (R71). Encodings of the thirteen formats
have six widths, so each is a number below two to the width of its format. -/
structure Tile where
  hdr    : TileHdr
  elems  : List Nat
  scales : List Nat
  deriving DecidableEq, Repr

/-- A time marker as it arrives (02_timer.md Table 2.2); `rsv`: a reserved bit is non-zero. -/
structure Marker where
  kind   : Byte
  state  : BitVec 2
  refLost : Bool
  rsv    : Bool
  hops   : BitVec 6
  master : BitVec 12
  sender : BitVec 12
  count  : U64
  deriving DecidableEq, Repr

/-- The payload descriptor of a packet, by TYPE (11_links_and_systems.md Table 11.14). -/
inductive PktDesc where
  | writeData (ga bytes : Nat)
  | readRequest (ga bytes : Nat)
  | readData (ga bytes : Nat)
  | slice (group rank opcode launch off len bytes : Nat)
  | mirror (ctx step off bytes : Nat) (commit : Bool)
  | openRange (ga len op deadline : Nat)
  | openReply (code check : Nat)
  | e2eAck (bytes : Nat) (final : Bool)
  | unreachable (chip cause type xtag : Nat)
  /-- a TYPE that is reserved, a reserved field that is not zero, or a payload too short for a descriptor: the first bytes
  of the payload, at most 64, as they came -/
  | other (type : Nat) (raw : List Byte)
  deriving DecidableEq, Repr

/-- A packet of VC0-VC2 (Table 11.6). `len` is the LEN field; `rsv` holds the reserved bits of the header, in the order of
their bytes; `marks` are the data offsets of the ECC words whose poison travels with the data (R172, R277). -/
structure Pkt where
  vc    : Nat
  cls   : Nat
  slice : Nat
  ttl   : Nat
  dst   : Nat
  src   : Nat
  len   : Nat
  lseq  : Nat
  xtag  : Nat
  rsv   : Nat
  desc  : PktDesc
  data  : List Byte
  marks : List Nat
  deriving DecidableEq, Repr

/-- Which cap register a POWER_CAP_WRITE names (12_power_and_cooling.md Table 12.4). -/
inductive CapReg where
  | peak | sustain | lostMgr
  deriving DecidableEq, Repr

/-- A host access that may unmask an MSI-X vector (15_registers.md R364). -/
inductive MsixAccess where
  /-- 4-byte write of dword `dw` (0-3) of table entry `vec` -/
  | dword (vec : BitVec 6) (dw : BitVec 2) (value : U32)
  /-- 8-byte write of half `hi` of table entry `vec` -/
  | qword (vec : BitVec 6) (hi : Bool) (value : U64)
  /-- write of MSI-X Enable and Function Mask in configuration space -/
  | control (enable functionMask : Bool)
  deriving DecidableEq, Repr

/-- The transport of an SPDM request (14_boot_and_identity.md R350, R351). -/
inductive Via where
  | doe | mctp
  deriving DecidableEq, Repr

/-- A request that UNSUPPORTED_REQUEST answers: an SPDM code or slot outside R350, an MCTP control command outside
R351, a vendor-defined command outside Table 14.13, or a message of another type. -/
inductive BadRequest where
  | spdm (via : Via) (code : Byte)
  | mctpControl (command : Byte)
  | vendor (command : Byte)
  | otherType (type : Byte)
  deriving DecidableEq, Repr

/-- A fabric element (13_safety_repair_wear.md event 0x0068): kind 0 hop, 1 bridge, 2 edge port, 3 Mandoline,
4 Colander, 5 digest unit; core index or die; direction 0 N, 1 S, 2 E, 3 W. -/
structure Element where
  kind  : Nat
  index : Nat
  dir   : Nat
  deriving DecidableEq, Repr

/-- Module types of DDR5 DIMMs (07_memory_tiers.md); UDIMMs, SODIMMs, non-ECC and non-volatile modules are `other`. -/
inductive DimmKind where
  | rdimm | rdimm3ds | mrdimm | other
  deriving DecidableEq, Repr

/-- A DIMM as its SPD describes it, and the highest rate at which its channel trains (0: at none). Rates are in units of
100 MT/s. -/
structure Dimm where
  kind  : DimmKind
  gib   : Nat
  rates : List Nat
  reach : Nat
  deriving DecidableEq, Repr

/-- What the tests of one boot stage found (Tables 14.1, 14.4 and 14.5): the physical outcomes, which come from outside. -/
structure BootResult where
  /-- entry time into the next stage, ms from reset release -/
  ms          : Nat
  romOk       : Bool
  flashOk     : Bool
  /-- the public key derived from the PUF, X then Y (R348) -/
  pufKey      : BitVec 768
  /-- the IDs of the HBM stacks H0-H23, 16 bytes each, as read through IEEE 1500 (Table 14.8) -/
  stackIds    : List (List Byte)
  railFail    : Option Nat
  cxlDegraded : Bool
  failedCores : List (Nat × Nat × Nat)
  elements    : List Element
  failedPair  : Option Nat
  laneFail    : List (Nat × Nat)
  badStack    : Option Nat
  hbmRows     : List (Nat × Nat × Nat × Nat)
  /-- per DDR channel in letter order: its DIMM, none where the channel is empty -/
  dimms       : List (Option Dimm)
  deriving DecidableEq, Repr

/-- What one known-answer round runs on (R312, R314). -/
inductive KatTarget where
  | core (index : Nat)
  | unit (kind die : Nat)
  deriving DecidableEq, Repr

/-- A stream's route as a tile's way: context, configuration handle, stream index, route record. -/
structure ChanId where
  ctx    : Nat
  handle : Nat
  stream : Nat
  route  : Nat
  deriving DecidableEq, Repr

/-- A host read of a BAR: offset and size in bytes (R352, R353). -/
structure BarRead where
  bar  : Byte
  off  : U32
  size : Byte
  deriving DecidableEq, Repr

/-- A shard of a weight command: the command, and the shard's place in its manifest. -/
structure ShardRef where
  cmd   : Nat
  shard : Nat
  deriving DecidableEq, Repr

/-- A physical core position: die, row and place in the row's segment on that die. -/
structure CorePos where
  die : Nat
  row : Nat
  pos : Nat
  deriving DecidableEq, Repr

/-- What a port received as a packet: its bytes on the link, CRC included, and the offsets of data bytes marked as poison. -/
structure Arrived where
  bytes : List Byte
  marks : List Nat
  deriving DecidableEq, Repr

/-- One constructor per row of spec/opcode_table.json. -/
inductive Instr where
  -- Table 3.9
  | nop (e : Env)
  | devQuery (e : Env)
  | qpCreate (e : Env) (sqBase cqBase : U64) (sqDepth cqDepth : U32) (vector : BitVec 6) (vecEn : Bool) (job : Byte)
  | qpDestroy (e : Env) (qid : U16)
  | fwLoad (e : Env) (image : U64) (len : U32)
  | journalRead (e : Env) (dest : U64) (first maxn : U32)
  | jobOpen (e : Env) (desc : U64) (nrect dlen : U16)
  | jobClose (e : Env) (job : Byte) (force : Bool)
  | ctxCreate (e : Env) (job : Byte) (table : U64) (nregion : U16) (hostRouted pin : Bool)
  | ctxDestroy (e : Env) (force : Bool)
  | ctxEvict (e : Env) (space : Byte)
  | ctxRestore (e : Env)
  | ctxPin (e : Env) (op : Byte)
  | memAlloc (e : Env) (size : U64) (space job alignLog2 : Byte)
  | memFree (e : Env) (ga : U64)
  | memCopy (e : Env) (src dst len : U64)
  | memFill (e : Env) (dst len pattern : U64)
  | memConvert (e : Env) (src dst len desc : U64)
  | prefetchListSet (e : Env) (list : U64) (n : U32) (clear : Bool)
  | wgtLoad (e : Env) (manifest mask deadline : U64)
  | wgtReplace (e : Env) (manifest : U64) (keepKv : Bool) (deadline : U64)
  | adapterLoad (e : Env) (manifest : U64) (adapter version : U32) (deadline : U64)
  | adapterRetire (e : Env) (adapter version : U32)
  | wgtVerify (e : Env) (mask : U64)
  -- Table 3.10
  | cfgLoad (e : Env) (image : U64) (len : U32)
  | cfgActivate (e : Env) (handle : U16)
  | cfgCheck (e : Env) (image : U64) (len : U32)
  | cfgUnload (e : Env) (handle : U16)
  | invoke (e : Env) (handle : U16) (args result deadline : U64)
  | invokeList (e : Env) (list : U64) (n : U32)
  | preempt (e : Env) (force : Bool)
  | barrier (e : Env) (bid members : U16)
  | srvStart (e : Env) (desc : U64)
  | reqAdmit (e : Env) (desc deadline : U64) (adapter : U32) (hostStep : Bool)
  | reqCancel (e : Env) (req : U32)
  | stepAnswer (e : Env) (req step : U32) (answer : U64) (len : U32)
  | srvPolicy (e : Env) (chunk : U16) (nMin nMax sMin sMax : Byte) (interval : U16)
  | srvStop (e : Env) (drain : Bool)
  -- Table 3.11
  | linkTrain (e : Env) (mask : U16)
  | linkExpectSet (e : Env) (port : Byte) (farChip : BitVec 12) (farPort : Byte) (digest : U64)
  | routeLoad (e : Env) (table : U64) (n : U32) (slice : Byte)
  | portOwnerSet (e : Env) (port owner : Byte)
  | linkQuery (e : Env) (port : Byte)
  | put (e : Env) (src dst len deadline : U64)
  | get (e : Env) (src dst len deadline : U64)
  | exchange (e : Env) (desc deadline : U64) (group : U16)
  | reduceScatter (e : Env) (desc deadline : U64) (group : U16)
  | allGather (e : Env) (desc deadline : U64) (group : U16)
  | mirrorSet (e : Env) (buddy : BitVec 12) (enable : Bool)
  | pwrLimits (e : Env) (sustain peak window lost timeout : U32)
  | phaseTableSet (e : Env) (table : U64) (n : Byte)
  | keepwarmSet (e : Env) (floor ramp : U32)
  | mgrHeartbeat (e : Env) (seq : U32)
  | pwrQuery (e : Env)
  -- Table 3.12
  | selftest (e : Env) (mask : Byte)
  | healthQuery (e : Env) (dst : U64) (len : U32)
  | repairCommit (e : Env) (write : Bool)
  | katCfg (e : Env) (ms : U32)
  | scrubCfg (e : Env) (hbmS ddrS : U32)
  | idQuery (e : Env)
  | attest (e : Env) (dst : U64) (len : U32) (nonce : BitVec 256)
  | flashRecordRead (e : Env) (type : Byte) (dst : U64) (maxLen : U32)
  | tmrMasterSet (e : Env) (role : Byte) (master : BitVec 12) (init : U64)
  | tmrQuery (e : Env)
  | tmrAlarm (e : Env) (slot op : Byte) (first period : U64)
  | traceCfg (e : Env) (buf : U64) (size mask : U32)
  | dump (e : Env) (dst : U64) (len : U32) (kind : Byte) (core : U32)
  -- host rows
  | sqFetch
  | sqTailDoorbell (q : U16) (value : U64)
  | cqHeadDoorbell (q : U16) (value : U64)
  | qp0Enable (ctrl : U64)
  | qp0Disable (ctrl : U64)
  | evcPendWrite (word : BitVec 1) (value : U64)
  | evcMaskWrite (word : BitVec 1) (value : U64)
  | evcRouteWrite (k : BitVec 4) (value : U64)
  | evcRingSizeWrite (value : U64)
  | tmrHoldoverLimitWrite (value : U64)
  | powerCapWrite (reg : CapReg) (value : U64)
  | flowKWrite (value : U64)
  | retrain (port : BitVec 4) (value : U64)
  | registerWrite (bar : Byte) (off : U32) (size : Byte) (value : U64)
  | registerReadClear (at_ : BarRead)
  | msixVectorUnmask (a : MsixAccess)
  | hdmDecoderCommit (dec : BitVec 1) (base size : U64) (ways : Byte)
  | hostMemRead (dec : BitVec 1) (off : U64)
  | hostMemWrite (dec : BitVec 1) (off : U64) (data : List Byte)
  -- SPDM, MCTP, sideband
  | getVersion (via : Via)
  | getCapabilities (via : Via)
  | negotiateAlgorithms (via : Via)
  | getDigests (via : Via)
  | getCertificate (via : Via) (slot : Byte) (off len : U16)
  | challenge (via : Via) (slot : Byte) (nonce : BitVec 256)
  | getMeasurements (via : Via) (slot index : Byte) (nonce : BitVec 256)
  | setEndpointId (eid : Byte)
  | getEndpointId
  | getMctpVersionSupport
  | getMessageTypeSupport
  | sidebandReadRegister (off : U32)
  | sidebandReadBootStatus
  -- TAP
  | bypass
  | idcode
  | samplePreload
  | extest
  | extestPulse
  | extestTrain
  | clamp
  | highz
  -- power-up and boot
  | pwrEnRise
  | pwrEnFall
  | resetNAssert
  | resetNRelease
  | bootStageComplete (r : BootResult)
  | firmwareStart (ms : Nat)
  | ddrZeroFill
  -- power, thermal, flow
  | vinSample (mv : Int) (watts : Nat)
  | droopTrip (die : BitVec 2)
  | peakLimiterAdjust
  | sustainedLoopRun (fixedW : Nat)
  | capFallDutyStep (fixedW : Nat)
  | opRailSettled
  | keepwarmBeat (unfilledW coreMilliW : Nat)
  | mgrTimeoutLapse
  | thermalSample (tmax : Int) (where_ : Byte) (coolIn coolOut : Int)
  | thermalThrottleStep
  | flowPulse
  | flowCheck (coolIn coolOut : Int)
  | simmerExit
  -- Timer
  | timerTick
  | tickLaunch (q : U16)
  | timeMarkerSend
  | timeMarker (port : BitVec 4) (sub : BitVec 4) (body : BitVec 128) (crc : U32)
  | markerMiss
  | holdoverEntry
  | holdoverLimitExpiry
  | markEdge
  | trefLost
  | trefRestored
  | tmrMasterSetTimeout
  | alarmFire (slot : BitVec 4)
  -- invocations
  | invocationLaunch (inv : Nat)
  | invocationComplete (inv : Nat)
  | invocationDeadline (inv : Nat)
  -- steps of a core
  | mma (core : Nat) (sieve : List Nat)
  | mmaBt (core : Nat) (sieve : List Nat)
  | vec1 (core : Nat)
  | vec2 (core : Nat)
  | vecacc (core : Nat)
  | red (core : Nat)
  | cvt (core : Nat)
  | emit (core : Nat)
  | move (core : Nat)
  | drop (core : Nat)
  | oneos (core : Nat)
  | jump (core : Nat)
  | ldc (core : Nat)
  | loop (core : Nat)
  | ticket (core : Nat)
  | ticketRequest (requester rail reqNo : Nat)
  | ticketReply (requester : Nat)
  | phase (core : Nat)
  | eosout (core : Nat)
  | endStep (core : Nat)
  -- stream engines
  | ldb (core engine : Nat)
  | streamLoop (core engine : Nat)
  | stride (core engine : Nat)
  | shape (core engine : Nat)
  | fmt (core engine : Nat)
  | gather (core engine : Nat)
  | wait (core engine : Nat)
  | signal (core engine : Nat)
  | run (core engine : Nat)
  | runIteration (core engine : Nat)
  | streamJump (core engine : Nat)
  | endp (core engine : Nat)
  -- fabric
  | tileSend (core oq : Nat)
  | tileArrival (ch : ChanId) (rx : Option Tile) (hop : Element)
  | creditReturn (ch : ChanId)
  | spillEntry (ch : ChanId)
  | spillOut (ch : ChanId)
  | spillReturn (ch : ChanId)
  | servicePacketReceive (id : Nat) (crcOk : Bool)
  | servicePacketRepeat (id : Nat)
  | treeRebuildAsChain (ctx handle stream : Nat)
  | wavefrontSourceSwitch (core : Nat)
  | coreSwitch (core : Nat)
  -- prefetch, shards, layers
  | prefetchEntryStart (inv : Nat)
  | prefetchEntryComplete (inv entry : Nat)
  | shardReadyPoll (ctx : Nat) (shard : ShardRef)
  | shardStart (ctx : Nat) (shard : ShardRef)
  | shardComplete (ctx : Nat) (shard : ShardRef)
  | weightDeadline (ctx : Nat)
  | layerOverwriteStart (ctx : Nat)
  | layerOverwriteDone (ctx : Nat) (pathFault : Bool)
  -- serving and routing
  | stepCompose (ctx : Nat)
  | stepEnd (ctx : Nat)
  | requestDeadline (ctx req : Nat)
  | evictionOrRestoreEnd (job : Nat)
  | routingPointStart (inv program : Nat)
  | routeWaitExpiry (inv program : Nat)
  -- safety
  | katRound (target : KatTarget) (pass : Bool) (unit : Nat)
  | lbistCoreRun (die row pos : Nat) (pass : Bool)
  | sramScrub (core : CorePos) (corrected uncorrectable : List Nat)
  | hbmPatrolScrub (stack pc row : Nat) (corrected uncorrectable : List Nat) (pcFailed : Bool)
  | hbmRowRepair (stack pc bank row spares : Nat)
  | ddrPatrolScrub (channel : Nat) (corrected uncorrectable : List Nat)
  | coreRemap (die row pos : Nat)
  | lockstepMismatch (pair : BitVec 3)
  | wearMeasure (stressed reference : List Nat)
  | wearLogWrite
  -- links
  | laneFailure (port lane : Nat)
  | farEndIdle (port : Nat)
  | linkTrainingComplete (port : Nat) (goodLanes : List Nat) (eye : Nat)
  | identityTimeout (port : Nat)
  | identity (port : Nat) (farPort : Byte) (farChip : U16) (rsv : U32) (digest : U64) (crc : U32)
  | acknowledgement (port : Nat) (flags : Byte) (lseq : U16) (tail : BitVec 128)
  | credit (port : Nat) (ch : Byte) (rsv : U16) (total : U32) (tail : BitVec 96)
  | timeProbe (port : Nat) (flags : Byte) (probe : U16) (turn : U32) (stamp : U64) (crc : U32) (at_ : U64)
  | ackTimer (port : Nat)
  | creditFrameTimer (port : Nat) (vc : BitVec 2) (cls : BitVec 1)
  | packetReceive (port : Nat) (fecOk : Bool) (got : Arrived)
  | transitForward
  | writeData
  | readRequest
  | readData
  | collectiveSlice
  | mirrorData
  | openRange
  | openReply
  | endToEndAcknowledgement
  | unreachable
  | transferRetry (xtag : Nat)
  | transferDeadline (xtag : Nat)
  | vcStall (port vc : Nat)
  | heldPacketDiscard (port : Nat)
  | collectiveDeadline (group : Nat)
  -- further rows of the table
  | vinRise (mv : Int)
  | pwrGoodRise
  | vinRemoval
  | tripLatchRelease
  | adapterRoomDeadline (ctx adapter : Nat)
  | commandTransferEnd (rec : Nat)
  | selftestComplete (failures : List (Nat × Nat × Nat)) (lanes : List (Nat × Nat))
  | doeDiscovery (index : Byte)
  | unsupportedRequest (r : BadRequest)
  | dynamicAddressAssignment (addr : BitVec 7)
  deriving DecidableEq, Repr

end Sys2Proof
end

