-- ==== Sys2Proof/Config.lean ====
section
/-! DEFINITION. What the spec fixes outside its own words, or leaves open: constants without a body, of
which nothing can be proved but that they are the same at every use, and the free values. -/

namespace Sys2Proof.Config

/-- Fresh free values: the n-th value drawn is `freeValue n` (log 2). -/
opaque freeValue : Nat → U64

/-- SHA-384 of the vendor key held in mask ROM (14_boot_and_identity.md R344 step 3). -/
opaque vendorKeyHash : BitVec 384

/-- The vendor public key, X then Y, that signs flash records and minimum-version records (R345, R346). -/
opaque vendorKey : BitVec 768

/-- SHA-384 of the mask ROM (R350, Table 14.11 index 1). -/
opaque romDigest : BitVec 384

/-- The signature, r then s, that the ROM's signing service makes over a digest with the attestation key (R348):
the private key never leaves it. -/
opaque attestSign : BitVec 384 → BitVec 768

/-- The PCI vendor ID the module's function reports (R351). -/
opaque pciVendorId : U16

/-- Initial value of a register of the CXL component block at BAR0 0x10_0000, laid out as CXL 2.0 defines
(15_registers.md R356) and not in this spec. -/
opaque cxlComponent : Nat → U64

/-- What such a register holds after a write, from its offset, the value before and the value written. -/
opaque cxlWritten : Nat → U64 → U64 → U64

/-- Random bytes of an SPDM response (nonce of CHALLENGE_AUTH and of MEASUREMENTS), by draw. -/
opaque spdmNonce : Nat → BitVec 256

/-- The coarse scale of a source tensor under S2 or S3, which a conversion descriptor does not carry
(07_memory_tiers.md R177, R178), by descriptor. -/
opaque sourceCoarse : U64 → U32

/-- Element format of a context's KV pages, by context identity: the manual gives the packed form of a page by its format
(07_memory_tiers.md R183) and does not say where the module reads that format. -/
opaque kvFormat : Nat → Nat

/-- Row, within its pseudo-channel, of an HBM offset: the manual gives stack and pseudo-channel of an offset
(07_memory_tiers.md R160) and not the row. -/
opaque hbmRow : Nat → Nat

/-- Offset in the CXL component block of the HDM decoder capability, which its capability headers give (CXL 2.0). -/
opaque hdmBlock : Nat

/-- The forecast that the module makes from the hourly spares consumed per die, newest first, and the spares left per die
(13_safety_repair_wear.md R330): confidence, days to grade C and days to the next retirement in the layout of Table 13.8.
The manual gives no formula. -/
opaque wearForecast : List (List Nat) → List Nat → U64

/-- Frequencies of a ring-oscillator pair at shipment, stressed and reference (13_safety_repair_wear.md R329); pairs are
numbered die by die, 64 to a die. The manual does not say where the module holds them (log 117). -/
opaque shipPair : Nat → Nat × Nat

end Sys2Proof.Config
end

