-- ==== Sys2Proof/Machine/Bytes.lean ====
section
/-! DEFINITION. Little-endian byte strings and bit fields (00_scope.md, "Numbers and units"). -/

namespace Sys2Proof.Machine

/-- The low `k` bytes of a number, least significant first. -/
def leBytes : Nat → Nat → List Byte
  | 0, _ => []
  | k + 1, n => BitVec.ofNat 8 n :: leBytes k (n / 256)

/-- The number a byte string spells. -/
def leNat : List Byte → Nat
  | [] => 0
  | b :: bs => b.toNat + 256 * leNat bs

/-- Bits [hi:lo] of a number. -/
def bits (n hi lo : Nat) : Nat := n / 2 ^ lo % 2 ^ (hi + 1 - lo)

/-- Bit `i` of a number. -/
def bit (n i : Nat) : Bool := n / 2 ^ i % 2 = 1

/-- Two's-complement value of the low `w` bits of a number. -/
def signed (w n : Nat) : Int :=
  let m := n % 2 ^ w
  if m < 2 ^ (w - 1) then m else (m : Int) - 2 ^ w

/-- The low `w` bits of a signed value. -/
def unsigned (w : Nat) (i : Int) : Nat := (i % (2 ^ w : Int)).toNat

/-- `n` bytes from offset `off`; bytes beyond the end read zero. -/
def slice (bs : List Byte) (off n : Nat) : List Byte := (List.range n).map fun i => bs.getD (off + i) 0

/-- The little-endian field of `n` bytes at offset `off`. -/
def fieldAt (bs : List Byte) (off n : Nat) : Nat := leNat (slice bs off n)

/-- A byte string cut or zero-padded to `n` bytes. -/
def padTo (n : Nat) (bs : List Byte) : List Byte := slice bs 0 n

def zeros (n : Nat) : List Byte := List.replicate n 0

def allZero (bs : List Byte) : Bool := bs.all (· == 0)

/-- Saturating sum at `2 ^ w - 1`. -/
def satAdd (w a b : Nat) : Nat := min (2 ^ w - 1) (a + b)

def sat (w n : Nat) : Nat := min (2 ^ w - 1) n

/-- Ceiling of a quotient. -/
def ceilDiv (a b : Nat) : Nat := (a + b - 1) / b

/-- Round up to a multiple of `b`. -/
def alignUp (a b : Nat) : Nat := ceilDiv a b * b

def isPow2 (n : Nat) : Bool := (List.range 64).any fun k => n == 2 ^ k

/-- Exponent of a power of two. -/
def log2Exact (n : Nat) : Nat := ((List.range 64).find? fun k => n == 2 ^ k).getD 0

/-- Insert into an ascending list without repeats. -/
def insSorted : List Nat → Nat → List Nat
  | [], x => [x]
  | y :: ys, x => if x < y then x :: y :: ys else if x = y then y :: ys else y :: insSorted ys x

/-- Add one to the element at an index. -/
def bump (l : List Nat) (i : Nat) : List Nat := l.modify i (· + 1)

/-- The first number from `start` not in a list, looking at `fuel` candidates. -/
def firstFree (used : List Nat) : Nat → Nat → Option Nat
  | 0, _ => none
  | fuel + 1, start => if used.contains start then firstFree used fuel (start + 1) else some start

/-! ### Cyclic redundancy checks -/

/-- One bit of a CRC that runs from the least significant bit, under a reflected polynomial. -/
def crcBit (poly c : U32) : U32 := if c.getLsbD 0 then (c >>> 1) ^^^ poly else c >>> 1

def crcByte (poly c : U32) (b : Byte) : U32 := Nat.repeat (crcBit poly) 8 (c ^^^ b.setWidth 32)

/-- The register begins as all ones and is complemented at the end. -/
def crcOver (poly : U32) (bs : List Byte) : Nat := (~~~ (bs.foldl (crcByte poly) 0xFFFFFFFF)).toNat

/-- CRC-32C, of tiles and flash records. -/
def crc32c (bs : List Byte) : Nat := crcOver 0x82F63B78 bs

/-- CRC-32 under the polynomial of R266; its bit order, start and end are those of IEEE 802.3 (PRESUMED, log 101). -/
def crc32 (bs : List Byte) : Nat := crcOver 0xEDB88320 bs

/-- A frame with its CRC-32 behind it. -/
def withCrc (bs : List Byte) : List Byte := bs ++ leBytes 4 (crc32 bs)

/-- The last four bytes are the CRC-32 of the others. -/
def crcGood (bs : List Byte) : Bool := 4 ≤ bs.length && bs == withCrc (bs.take (bs.length - 4))

end Sys2Proof.Machine
end

