-- ==== Sys2Proof/Machine/State.lean ====
section
/-! DEFINITION. The state of the module as plain data, its stops, and the state right after reset. -/

namespace Sys2Proof.Machine

/-- Status codes of 03_commands_and_events.md Table 3.13. -/
inductive Status where
  | ok | okEmpty | okLate | okPoisoned | okDegraded
  | badOpcode | badParam | badAlign | badContext | badSize
  | noRoom | noSlots | noSpare | busyHeld
  | wrongState | notOwner | checkFailed | deadline | cancelled | modelReplaced
  | shardCorrupt | shardMissing | ctxFault | deadlockUnresolved | hwFault | linkDown | fwRejected
  | timeUnlocked | timePast
  deriving DecidableEq, Repr

/-- Why the machine stops. -/
inductive Fault where
  /-- VIN_SAMPLE raises it when VIN lies beyond the absolute maximum ratings of 16_pins_and_mechanics.md Table 16.2,
  where the module "may be damaged" and the spec gives no behaviour. Safe: the model stops. -/
  | beyondAbsoluteMaximum
  deriving DecidableEq, Repr

/-- Why a command has no meaning. -/
inductive Refusal where
  /-- An arm of exec that has no meaning yet raises it. Safe: the model stops. -/
  | notModelled (mnemonic : String)
  deriving DecidableEq, Repr

/-- The TAP's instruction register (16_pins_and_mechanics.md R372). -/
inductive TapIr where
  | bypass | idcode | samplePreload | extest | extestPulse | extestTrain | clamp | highz
  deriving DecidableEq, Repr

/-- Boundary-scan cells of the lands that have them; true is the high level (R372; log 116): the pins of Table 16.4, the 162
lands of each DDR5 group in the order of Table 16.3, and, by IEEE 1149.6, the lanes of the CXL port and of each TongLink port
(R369), those received in the lower half, those sent in the upper. -/
structure Boundary where
  (pwrEn resetN flowPulse i3cScl i3cSda : Bool)
  (pwrGood alertN thermTripN trivetN : Bool)
  ddr : List (BitVec 162)
  cxl : BitVec 32
  ton : List (BitVec 18)
  deriving DecidableEq, Repr

/-- What the module sends or answers (the model's own log; see the assumption log). -/
inductive Out where
  /-- an MSI-X message: vector, address, data (R364) -/
  | msix (vector : Nat) (addr : U64) (data : U32)
  /-- the answer to a register read (R353) -/
  | reg (value : U64)
  /-- a configuration access completed with Configuration Request Retry Status (R339) -/
  | configRetry
  /-- an access completed with Unsupported Request (R353) -/
  | unsupportedRequest
  /-- a 64-byte line read through CXL.mem, with the poison indication (R163) -/
  | line (data : List Byte) (poison : Bool)
  /-- a control frame of VC3 sent on a port, its CRC at its end (Tables 2.2 and 11.13, R263, R266) -/
  | frame (port : Nat) (bytes : List Byte)
  /-- a packet sent on a port: its header, payload and CRC, and the data offsets whose poison travels with it (R266, R172) -/
  | packet (port : Nat) (bytes : List Byte) (marks : List Nat)
  /-- an MCTP message or control response over I3C (R351) -/
  | mctp (bytes : List Byte)
  /-- an SPDM response: response name, slot or index, data (R350) -/
  | spdm (via : Via) (what : String) (param : Nat) (data : List Byte)
  /-- a DOE discovery response (R355) -/
  | doe (vendor protocol next : Nat)
  /-- what a scan of the TAP's data register shows on TDO: its length and value, or the levels that the boundary register has
  captured (R372) -/
  | tdo (length value : Nat)
  | tdoCells (b : Boundary)
  deriving DecidableEq, Repr

/-- Pins, supply and trip latch (R287, R307, R337, R338, R371). -/
structure Pins where
  vinMv      : Int
  vinPresent : Bool
  pwrEn      : Bool
  pwrGood    : Bool
  resetN     : Bool
  /-- the I/O-die rails are up or rising (R337) -/
  rails      : Bool
  /-- THERM_TRIP_N is held low -/
  tripLatch  : Bool
  /-- the hard trip holds the rails off (R307) -/
  hardOff    : Bool
  /-- the TAP: held in reset while TRST_N is low, its instruction, and what its boundary cells drive (R372) -/
  trstN      : Bool
  tap        : TapIr
  cells      : Boundary
  deriving DecidableEq, Repr

/-- An accepted firmware image that has not started (R344): version, digest, FW_LOAD's record. -/
structure FwImage where
  version : Nat
  digest  : BitVec 384
  cmd     : Nat
  deriving DecidableEq, Repr

/-- Boot and firmware state (R337-R345, Tables 14.2, 14.3). -/
structure Boot where
  stage      : Nat
  entryMs    : Nat
  code       : Nat
  errStage   : Nat
  detail     : Nat
  warnRepair : Bool
  warnDdr    : Bool
  warnCxl    : Bool
  warnMinver : Bool
  warnUnit   : Bool
  warnFabric : Bool
  warnLanes  : Bool
  resetHold  : Bool
  trivet     : Bool
  trivetCause : Nat
  minVersion : Nat
  cfwVersion : Nat
  imageDigest : BitVec 384
  accepted   : Option FwImage
  shipGrade  : Nat
  /-- 4 KiB units of DDR zeroed since stage 8 (R376) -/
  ddrZeroed  : Nat
  deriving DecidableEq, Repr

/-- A remap in progress (R324): die, failed row and position, rows whose hosts change, the map in force until it ends (the
hosts of each row), virtual cores that move. -/
structure Remap where
  die  : Nat
  row  : Nat
  pos  : Nat
  rows : List Nat
  hosts : List (List Nat)
  moved : List Nat
  deriving DecidableEq, Repr

/-- The grid and what has been repaired (R323-R326). -/
structure Grid where
  valid    : Bool
  retired  : List Nat
  failed   : List (Nat × Nat × Nat)
  elements : List Element
  hbmRows  : List (Nat × Nat × Nat × Nat)
  /-- stacks marked failed, and pseudo-channels that have failed: stack, pseudo-channel (R317) -/
  stackFailed : List Nat
  pcFailed : List (Nat × Nat)
  lanesFailed : List (Nat × Nat)
  /-- trained GiB per DDR channel in letter order, 0 where none is in use, and the data rate common to all, in 100 MT/s (R16) -/
  ddrGib   : List Nat
  ddrRate  : Nat
  /-- SPARE_LEFT as it was last written: per die, fewest spares of a segment and segments with none (R357) -/
  spareShown : List (Nat × Nat)
  remaps   : List Remap
  deriving DecidableEq, Repr

/-- Timer roles (R21). -/
inductive Role where
  | follower | masterRef | masterFree
  deriving DecidableEq, Repr

/-- Follower states (Table 2.3); a master is LOCKED (R23). -/
inductive LockState where
  | locked | holdover | unlocked
  deriving DecidableEq, Repr

/-- What a follower remembers of one port's markers (R26, R27). -/
structure PortMark where
  port    : Nat
  hops    : Nat
  /-- ticks elapsed at the last good marker -/
  lastGood : Nat
  refLost : Bool
  /-- bad markers in a row -/
  bad     : Nat
  /-- consecutive beats with lower HOPS than the upstream port -/
  lower   : Nat
  deriving DecidableEq, Repr

/-- A TMR_MASTER_SET that waits for a MARK edge (R22). -/
structure MasterWait where
  cmd    : Nat
  master : Nat
  init   : Nat
  /-- ticks elapsed when the command started -/
  start  : Nat
  deriving DecidableEq, Repr

/-- An armed alarm (R36). -/
structure Alarm where
  slot   : Nat
  next   : Nat
  period : Nat
  deriving DecidableEq, Repr

/-- The rack time base unit (02_timer.md). -/
structure Timer where
  count    : Nat
  /-- ticks since the count began, which a step of the count does not change: what durations are measured by -/
  elapsed  : Nat
  role     : Role
  named    : Bool
  master   : Nat
  lock     : LockState
  refLost  : Bool
  hops     : Nat
  upstream : Option Nat
  /-- TMR_OFFSET in 1/16 tick -/
  offset   : Int
  ignored  : Nat
  limit    : Nat
  limitNext : Option Nat
  lastGood : Option Nat
  ports    : List PortMark
  /-- good markers in a row whose |offset| exceeded 64 ticks -/
  overRun  : Nat
  trefPresent : Bool
  loadCount : Nat
  waits    : List MasterWait
  alarms   : List Alarm
  deriving DecidableEq, Repr

/-- A queue pair (Tables 3.1-3.4, R41-R44, R52). -/
structure QPair where
  id      : Nat
  sqBase  : U64
  cqBase  : U64
  /-- the bases named this module when they were written: they go on naming it (R260) -/
  (sqOwn cqOwn : Bool)
  enable  : Bool
  job     : Nat
  vecEn   : Bool
  vector  : Nat
  cqLog2  : Nat
  sqLog2  : Nat
  sqHead  : Nat
  cqTail  : Nat
  sqTail  : Nat
  cqHead  : Nat
  phase   : Bool
  error   : Bool
  errCode : Nat
  /-- the last fetched entry had CHAIN set -/
  chainOpen : Bool
  /-- a member of the running chain completed outside the success group -/
  chainFailed : Bool
  /-- the QP_DESTROY that waits for this pair's last CQ entry -/
  closing : Option Nat
  deriving DecidableEq, Repr

/-- Where a fetched command stands. -/
inductive Phase where
  /-- fetched, not started -/
  | fetched
  /-- accepted with AT_TICK, waiting for its tick -/
  | waiting
  /-- started, not completed -/
  | running
  /-- completed; its CQ entry is held until its predecessors' entries are written (R50) -/
  | done (status : Status) (result : List Byte) (tick : Nat)
  deriving DecidableEq, Repr

/-- A data movement a started command waits for (rows COMMAND_TRANSFER_END and its like). -/
inductive Xfer where
  | copy (src dst len : Nat)
  | fill (dst len : Nat) (pattern : U64)
  | convert (src dst len : Nat) (desc : U64)
  | evict (ctx : Nat) (region : Nat)
  | restore (ctx : Nat)
  | verify (ctx : Nat) (shards : List Nat)
  deriving DecidableEq, Repr

/-- A command fetched and not yet completed in its CQ (R42, R47, R50-R52). -/
structure CmdRec where
  id      : Nat
  cmd     : Instr
  env     : Env
  /-- identity of the context bound at fetch (R47) -/
  bound   : Option Nat
  /-- identity of the allocation MEM_FREE is bound to (R169) -/
  alloc   : Option Nat
  /-- the previous entry of the SQ had CHAIN set (R52) -/
  chained : Bool
  late    : Bool
  /-- launched under AT_TICK, so its successor may start (R50) -/
  launched : Bool
  phase   : Phase
  xfer    : Option Xfer
  deriving DecidableEq, Repr

/-- A journal record (R58, R59). -/
structure Journal where
  index  : Nat
  seq    : Nat
  opcode : Nat
  queue  : Nat
  status : Nat
  detail : List Byte
  tick   : Nat
  deriving DecidableEq, Repr

/-- An open barrier (R96). -/
structure Barrier where
  id      : Nat
  members : Nat
  atTick  : Bool
  lateRun : Bool
  launch  : Nat
  joined  : List Nat
  deriving DecidableEq, Repr

/-- The command plane (03_commands_and_events.md). -/
structure Queues where
  pairs    : List QPair
  rr       : Nat
  recs     : List CmdRec
  nextRec  : Nat
  journal  : List Journal
  nextJournal : Nat
  barriers : List Barrier
  deriving DecidableEq, Repr

/-- The event controller (R60-R64, Tables 15.9-15.12). -/
structure Evc where
  pend0 : U64
  pend1 : U64
  mask0 : U64
  mask1 : U64
  route : List U64
  ringBase : U64
  /-- the base named this module when it was written: it goes on naming it (R260) -/
  ringOwn : Bool
  ringN : Nat
  /-- last SEQ written per source -/
  seqs  : List Nat
  /-- failed record and host writes and dropped accesses counted on the safety source (R61, R162, R163) -/
  lost  : Nat
  deriving DecidableEq, Repr

/-- One MSI-X table entry (R364). -/
structure MsixEntry where
  addr : U64
  data : U32
  ctrl : U32
  deriving DecidableEq, Repr

/-- MSI-X and the HDM decoders (R356, R364). -/
structure Cxl where
  entries : List MsixEntry
  pba     : U64
  enable  : Bool
  functionMask : Bool
  /-- base and size that the host has programmed into each decoder -/
  hdmBase : List U64
  hdmLen : List U64
  hdmCommitted : List Bool
  hdmError : List Bool
  /-- other registers of the CXL component block that have been written: BAR0 offset, value -/
  component : List (Nat × U64)
  deriving DecidableEq, Repr

/-- A live allocation (R168, R169); `base` is space and offset without chip number. -/
structure Alloc where
  uid  : Nat
  job  : Nat
  base : Nat
  len  : Nat
  deriving DecidableEq, Repr

/-- A module reservation inside a grant (R209): configuration store (kind 0) or spill share (kind 1). -/
structure Reserve where
  job    : Nat
  ctx    : Nat
  handle : Nat
  kind   : Nat
  base   : Nat
  len    : Nat
  deriving DecidableEq, Repr

/-- Memory (07_memory_tiers.md): bytes by space and offset, poisoned ECC words, allocations. -/
structure Memory where
  cells  : List Host.Cell
  poison : List Nat
  /-- 64-byte lines of host memory that the host answers with an error or with poison, those it fails writes of, and the
  failed writes counted (R162) -/
  hostBad : List Nat
  hostDead : List Nat
  hostFails : Nat
  /-- reads of, and writes to, stacks that have failed (R317) -/
  deadReads : Nat
  deadWrites : Nat
  /-- ECC words whose stored bits have changed and that no access has reached since: word, more bits than can be corrected
  (13_safety_repair_wear.md R316-R318) -/
  upsets : List (Nat × Bool)
  allocs : List Alloc
  reserves : List Reserve
  nextUid : Nat
  deriving DecidableEq, Repr

/-- A rectangle of virtual cores. -/
structure Rect where
  row0  : Nat
  nrows : Nat
  col0  : Nat
  ncols : Nat
  deriving DecidableEq, Repr

/-- An open job (R208-R211). Grants are (base, length) with base = space and offset. -/
structure Job where
  num   : Nat
  nctx  : Nat
  nqp   : Nat
  rects : List Rect
  grants : List (Nat × Nat)
  hosts : List (Nat × Nat)
  deriving DecidableEq, Repr

/-- A region entry (Table 7.3); `target` holds space and offset. -/
structure Region where
  cbase  : Nat
  target : Nat
  length : Nat
  read   : Bool
  write  : Bool
  evict  : Bool
  deriving DecidableEq, Repr

/-- A routing block (10_experts.md Tables 10.1, 10.2). -/
structure ExpertEnt where
  station : Nat
  engine  : Nat
  word    : Nat
  owner   : Nat
  deriving DecidableEq, Repr

structure Routing where
  (nexp topk gatefn spillDepth : Nat)
  (renorm exch : Bool)
  (rq capMax capFactor scores tmax routeWait : Nat)
  (dispatch combine gates ybuf yrow rel0 nrel counters : Nat)
  (group period dispOff retOff : Nat)
  experts : List ExpertEnt
  deriving DecidableEq, Repr

/-- A program block (R67). -/
inductive Program where
  | step (words : List U64)
  | stream (words : List U32)
  | routing (r : Routing)
  deriving DecidableEq, Repr

/-- A station (Table 4.2). -/
structure Station where
  rect    : Rect
  stepProg : Nat
  streamProg : List Nat
  queues  : List Nat
  pool    : Nat
  sramKib : Nat
  deriving DecidableEq, Repr

/-- A route record (Table 5.3). -/
structure RouteRec where
  src   : Nat
  dstEp : Nat
  slots : Nat
  vert  : Bool
  wp1   : Option (Nat × Nat)
  wp2   : Option (Nat × Nat)
  deriving DecidableEq, Repr

/-- A stream entry (Table 5.2). -/
structure StreamEnt where
  kind : Nat
  watch : Nat
  src  : Nat
  srcQ : Nat
  dstQ : Nat
  dst  : Nat
  treeSlots : Nat
  treeK : Nat
  routes : List RouteRec
  deriving DecidableEq, Repr

/-- A rail entry (R90). -/
structure RailEnt where
  core  : Nat
  slot  : Nat
  start : Nat
  inc   : Nat
  deriving DecidableEq, Repr

/-- A configuration image after the loader has read it (Table 4.1). -/
structure Image where
  flat    : Bool
  width   : Nat
  dripKib : Nat
  stations : List Station
  streams : List StreamEnt
  programs : List Program
  pool    : List U64
  rails   : List RailEnt
  args    : List (Nat × Nat)
  deriving DecidableEq, Repr

/-- A slot held on a directed hop: from node, to node, slot (R110, R111). Nodes are cores, and edge ports as
25,600 + row or column numbers. -/
structure SlotHold where
  src  : Nat
  dst  : Nat
  slot : Nat
  /-- the transit slot of a route that leaves the partition -/
  transit : Bool
  stream : Nat
  deriving DecidableEq, Repr

/-- A loaded configuration of a context (R69, R122, R215). -/
structure Cfg where
  handle : Nat
  epoch  : Nat
  image  : Image
  /-- cores on which it is active; it is standby on its other cores -/
  active : List Nat
  holds  : List SlotHold
  /-- KIND 2 streams that run as a chain (R114, R116) -/
  chains : List Nat
  /-- KIND 2 streams to rebuild as a chain before the next launch (R116) -/
  degraded : List Nat
  /-- KIND 2 streams that were rebuilt as a chain (R116) -/
  rebuilt : List Nat
  /-- a column has been retired under its job since it was loaded: it fails R1 (R10, R212) -/
  stale : Bool
  deriving DecidableEq, Repr

/-- Weight states (Table 8.1). -/
inductive WeightState where
  | empty | partLoaded | loaded | replacing
  deriving DecidableEq, Repr

/-- A recorded shard: live (or staged) range, resident digest (R187, R191). -/
structure ShardRec where
  index  : Nat
  base   : Nat
  len    : Nat
  digest : BitVec 384
  valid  : Bool
  /-- source in the resident format, kept as a resting copy (R184): (base, length), when it is one -/
  copy   : Option (Nat × Nat)
  deriving DecidableEq, Repr

/-- Adapter version states (Table 8.8). -/
inductive AdapterState where
  | loading | current | superseded | retired
  deriving DecidableEq, Repr

structure Adapter where
  id    : Nat
  version : Nat
  st    : AdapterState
  /-- DST of shard 0, a context address (Table 9.7) -/
  abase : Nat
  shards : List ShardRec
  deriving DecidableEq, Repr

/-- A prefetch entry (Table 7.4). -/
structure Prefetch where
  (src dst len handle trigger gate : Nat)
  desc : U64
  deriving DecidableEq, Repr

/-- The conditions of a live request (R228). -/
inductive ReqCond where
  | waiting | prefill | decoding | awaiting
  deriving DecidableEq, Repr

/-- A live request (R228-R235). -/
structure Req where
  id      : Nat
  prompt  : Nat
  plen    : Nat
  maxNew  : Nat
  out     : Nat
  stops   : List Nat
  deadline : Nat
  adapter : Option (Nat × Nat)
  hostStep : Bool
  cond    : ReqCond
  slot    : Option Nat
  pages   : List Nat
  kvlen   : Nat
  prefilled : Nat
  emitted : Nat
  last    : Nat
  drafts  : List Nat
  steps   : Nat
  maskValid : Bool
  /-- admitted before the barrier of a WGT_REPLACE without KEEP_KV (R202) -/
  replaced : Bool
  /-- REQ_CANCEL's record, while it waits for the step's end -/
  cancel  : Option Nat
  deriving DecidableEq, Repr

/-- Serving descriptor (Table 9.4). -/
structure SrvDesc where
  (dec pre maxseq spec : Nat)
  threshold : Bool
  (nmax smax tpp maxreq chunkMax thresh vocab : Nat)
  (slots chunks verify prob masks kvpool kvpages maxpages pages ring ringN : Nat)
  vector : Nat
  vecEn : Bool
  (darg parg dres pres : Nat)
  deriving DecidableEq, Repr

inductive SrvState where
  | serving | draining | stopped
  deriving DecidableEq, Repr

/-- The step in flight of a serving context (R224). -/
structure StepRec where
  launch : Option Nat
  /-- request, K_s of each decoding slot -/
  dec    : List (Nat × Nat)
  /-- request, first position, tokens of each chunk -/
  chunks : List (Nat × Nat × Nat)
  decInv : Option Nat
  preInv : Option Nat
  decDone : Option (Status × Nat)
  preDone : Option (Status × Nat)
  old    : Bool
  deriving DecidableEq, Repr

/-- A serving context's own state (R223-R237). -/
structure Serving where
  desc   : SrvDesc
  st     : SrvState
  reqs   : List Req
  nextReq : Nat
  /-- number of the next step -/
  step   : Nat
  cur    : Option StepRec
  eN     : Nat
  eS     : Nat
  chunk  : Nat
  (nMin nMax sMin sMax interval : Nat)
  sinceInterval : Nat
  /-- durations of the last steps' DEC and PRE invocations, newest first -/
  hist   : List (Option Nat × Option Nat)
  seq    : Nat
  blockedSince : Option Nat
  /-- the count at that moment, which DUMP shows (13_safety_repair_wear.md R336) -/
  blockedTick : Nat
  runnableSince : Option Nat
  stopCmd : Option Nat
  /-- SRV_STOP without DRAIN: every live request retires at the end of the step -/
  stopNow : Bool
  /-- end of the last step, from which the next one waits (R217) -/
  waitFrom : Option Nat
  retired : Nat
  /-- eviction-blocked events already written: (occupant, reason) (R220) -/
  told   : List (Nat × Nat)
  /-- page records changed since the last mirror commit -/
  dirty  : List Nat
  deriving DecidableEq, Repr

/-- A manifest's shard entry (Table 8.3). -/
structure ShardEnt where
  (src srcLen dst stage ready readyVal layer : Nat)
  desc : U64
  remote : Bool
  digest : BitVec 384
  deriving DecidableEq, Repr

inductive ShardSt where
  | unnamed | waiting | ready | inFlight | valid | failed (s : Status)
  deriving DecidableEq, Repr

/-- A layer entry (Table 8.4). -/
structure LayerEnt where
  (layer handle first count : Nat)
  deriving DecidableEq, Repr

/-- A weight command in progress (R186-R206). -/
structure WgtOp where
  cmd    : Nat
  /-- 0 load, 1 stage, 2 adapter, 3 replace -/
  kind   : Nat
  adapter : Nat
  version : Nat
  shards : List ShardEnt
  prog   : List ShardSt
  layers : List LayerEnt
  status : Nat
  deadline : Nat
  tableDigest : BitVec 384
  keepKv : Bool
  /-- order of start among weight commands of all contexts (R193) -/
  order : Nat
  /-- waiting for room (R205) -/
  noRoom : Bool
  /-- barrier tick B once it is fixed (R198) -/
  barrier : Option Nat
  /-- layers overwritten so far, and whether one is being overwritten (R200) -/
  layersDone : Nat
  overwriting : Bool
  poisoned : Bool
  deriving DecidableEq, Repr

/-- Mirroring of a context (R283, R284). -/
structure Mirror where
  buddy : Nat
  xtag  : Nat
  /-- the step whose commit has not been sent -/
  pendingStep : Option Nat
  ready : Bool
  cmd   : Option Nat
  /-- packets of the last commit, which a retry sends again (R278) -/
  sent  : List Pkt
  deriving DecidableEq, Repr

/-- One piece of an evicted context (R184): its home, its length there, where it stands, its length there, and for a
packed page its index. -/
structure Saved where
  (home len at_ stored : Nat)
  page : Option Nat
  deriving DecidableEq, Repr

/-- A context (R213-R222). -/
structure Ctx where
  id   : Nat
  uid  : Nat
  job  : Nat
  regions : List Region
  hostRouted : Bool
  pinned : Bool
  resident : Bool
  weight : WeightState
  shards : List ShardRec
  loadDigest : Option (BitVec 384)
  staged : List ShardRec
  stageDigest : Option (BitVec 384)
  adapters : List Adapter
  /-- highest version loaded per adapter ID (R204) -/
  maxVersions : List (Nat × Nat)
  wgt  : List WgtOp
  verifying : Bool
  epoch : Nat
  cfgs : List Cfg
  prefetch : List Prefetch
  serving : Option Serving
  mirror : Option Mirror
  /-- PREEMPTs that wait: record and the invocations that go first (R239) -/
  yield : List (Nat × List Nat)
  /-- what its eviction wrote and where (R184); empty unless it rests after an eviction -/
  saved : List Saved
  deriving DecidableEq, Repr

/-- A firmware eviction or restore in progress (R220): job, context, evict, the waiting context, and the occupants to evict
after this one. -/
structure Move where
  job   : Nat
  ctx   : Nat
  evict : Bool
  forCtx : Nat
  rest  : List Nat
  deriving DecidableEq, Repr

/-- The station counters of a result block (Tables 4.13, 5.8, 6.11). -/
structure StCnt where
  (tilesOut spillEvents spillTiles spillHbm spillPeak : Nat)
  (crcErrors staleDrops lateDiscards formatDrops chain : Nat)
  (sat flush nanOut infOut : Nat)
  (poisonOut lenMismatch gatherOob : Nat)
  (gated torn : Bool)
  deriving DecidableEq, Repr

/-- A routing point of a running invocation (R245-R255). -/
structure RPoint where
  program : Nat
  /-- score tiles written: row, column, valid rows, valid columns, poisoned -/
  tiles  : List (Nat × Nat × Nat × Nat × Bool)
  /-- cores whose end-of-stream on RQ has left -/
  eos    : List Nat
  started : Bool
  tokens : Nat
  /-- the query's tick while it awaits STEP_ANSWER -/
  query  : Option Nat
  /-- lists, gates and counters are written -/
  released : Bool
  /-- rows per expert of the count words, and slots this module placed -/
  counts : List Nat
  own    : List Nat
  /-- exchanges (R256): 0 before the dispatch, 1 dispatch open, 2 over, 3 return open, 4 over -/
  exch   : Nat
  /-- its lists were not written when the dispatch opened, so that this module sent no slice (R257) -/
  late   : Bool
  /-- rows that the dispatch brought: expert, sending chip, bytes, each expert's in the order in which they land (R256; log 51) -/
  landed : List (Nat × Nat × List Byte)
  /-- MISSING of the counter area (R257) -/
  missing : Nat
  deriving DecidableEq, Repr

inductive InvPhase where
  | waiting | running | done
  deriving DecidableEq, Repr

/-- Who an invocation reports to. -/
inductive InvOwner where
  | command (rec : Nat)
  | list (rec : Nat) (entry : Nat)
  | decode (ctx : Nat)
  | prefill (ctx : Nat)
  deriving DecidableEq, Repr

/-- An invocation (R94, R175, R216, R217). -/
structure Inv where
  id      : Nat
  ctx     : Nat
  handle  : Nat
  epoch   : Nat
  owner   : InvOwner
  phase   : InvPhase
  args    : Nat
  result  : Nat
  deadline : Nat
  waitSince : Nat
  launch  : Nat
  /-- launched after its launch tick under LATE_RUN -/
  late    : Bool
  /-- the arguments read at launch (R68) -/
  argv    : List Nat
  cores   : List Nat
  stations : List StCnt
  gated   : List Nat
  /-- the context's prefetch list at launch (R174, R175) -/
  plist   : List Prefetch
  /-- prefetch entries started: entry, completed -/
  started : List (Nat × Bool)
  nextEntry : Nat
  signalled : Nat
  /-- last phase token, PH0 before the first, and the ticks elapsed when it came (R291) -/
  phaseTok : Nat
  phaseAt : Option Nat
  poisoned : Nat
  poisonSeen : Bool
  degraded : Bool
  points  : List RPoint
  deriving DecidableEq, Repr

/-- An accumulator (R77, R78): FP32 encodings in row-major order; absent entries are +0. -/
structure Acc where
  (vrows vcols trow tcol : Nat)
  poison : Bool
  data : List Nat
  deriving DecidableEq, Repr

/-- A gather setting (R87). -/
structure Gather where
  level : Nat
  src   : Nat
  fromTicket : Bool
  bound : Nat
  deriving DecidableEq, Repr

/-- A RUN in progress (R83): its fields and the loop indices. -/
structure RunSt where
  (mode queue syncLvl waitCtr sigCtr : Nat)
  (waitEn sigEn eos : Bool)
  /-- indices of levels 0 to 5 -/
  idx  : List Nat
  /-- iterations done in this RUN (R88) -/
  n    : Nat
  /-- the wait of the present sync-level iteration has been made -/
  waited : Bool
  /-- per level, the gathered value in force -/
  vals : List (Option Int)
  deriving DecidableEq, Repr

/-- A stream engine (04, "Stream programs"). -/
structure Engine where
  prog : Nat
  ip   : Nat
  ended : Bool
  (base dbase dlen runB pitch : Nat)
  counts : List Nat
  strides : List Int
  (rowLvl colLvl : Nat)
  (rows cols : Nat)
  shapePool : Nat
  (fmt scheme pad : Nat)
  (transposed rowMajor : Bool)
  gathers : List Gather
  run  : Option RunSt
  pool : List U64
  deriving DecidableEq, Repr

/-- An outstanding TICKET of a core (R91): rail, request number, sent, reply value. -/
structure TicketReq where
  rail  : Nat
  reqNo : Nat
  reply : Option Nat
  deriving DecidableEq, Repr

/-- A virtual core that is not at its reset value (R75-R91, R215). -/
structure Core where
  idx  : Nat
  /-- the context whose configurations it holds, by identity (R215) -/
  occupant : Option Nat
  handle : Nat
  epoch : Nat
  inv  : Option Nat
  station : Nat
  pc   : Nat
  rep  : Nat
  ended : Bool
  iqs  : List (List Tile)
  oqs  : List (List Tile)
  /-- data and index tiles sent per output queue, and the engine-bound SEQ (R378) -/
  sent : List Nat
  /-- tiles that engines have put into each input queue -/
  fed  : List Nat
  /-- index values already taken from the tile at the head of each input queue (R87) -/
  ipos : List Nat
  accs : List Acc
  loops : List Nat
  tickets : List Nat
  /-- per ticket register: values drawn, and for level l of engine e at 6 e + l the draw its gather last took (R87) -/
  drawn : List (Nat × List Nat)
  syncs : List Nat
  engines : List Engine
  ticket : Option TicketReq
  ticketNos : List (Nat × Nat)
  /-- a known-answer round must run before the next step (R311) -/
  katDue : Bool
  fenceSent : Bool
  deriving DecidableEq, Repr

/-- A stream's route in use (R102, R117-R120). -/
structure Chan where
  id   : ChanId
  src  : Nat
  srcQ : Nat
  dst  : Nat
  dstQ : Nat
  epoch : Nat
  credits : Nat
  /-- tiles removed from the consumer's queue whose credits are on their way back (R102) -/
  owed : Nat
  flight : List Tile
  nextSeq : Nat
  expSeq : Nat
  spilling : Bool
  drip : List Tile
  hbm  : List Tile
  spillCount : Nat
  /-- a chain's link from one destination core to the next: tiles stored at its source and not yet forwarded (R115) -/
  fwd : List Tile
  /-- it is such a link -/
  link : Bool
  deriving DecidableEq, Repr

/-- A Ticket rail in use (R90, R91): counter and, per requester, last request number and value. -/
structure Rail where
  inv : Nat
  rail : Nat
  counter : Nat
  tags : List (Nat × Nat × Nat)
  deriving DecidableEq, Repr

/-- What a service packet brings (Table 5.5): a Ticket rail request or reply (requester, rail, request number), a tile of a
stream's spill queue on its way to the HBM part or back, or anything else. -/
inductive SvcLoad where
  | ticketRequest (core rail no : Nat)
  | ticketReply (core rail no : Nat)
  | spillOut (ch : ChanId)
  | spillBack (ch : ChanId)
  | other
  deriving DecidableEq, Repr

/-- A service packet not yet acknowledged (R112): its class, the hops of its way, the core it belongs to. -/
structure SvcPkt where
  id   : Nat
  cls  : Nat
  route : List Element
  core : Nat
  repeats : Nat
  /-- it waits at its hop: a packet whose CRC failed waits again, at its first hop, when it is repeated -/
  waiting : Bool
  /-- packet boundaries at which it has been passed over on its hop -/
  passed : Nat
  /-- hops of its way that it has passed -/
  pos : Nat
  load : SvcLoad
  deriving DecidableEq, Repr

/-- A CFG_ACTIVATE between launch and completion (R123-R127). -/
structure Wave where
  cmd  : Nat
  ctx  : Nat
  handle : Nat
  displaced : List Nat
  region : List Nat
  switched : List Nat
  deriving DecidableEq, Repr

/-- An INVOKE_LIST in progress (R95): its record, entries, next entry, entries completed in the success group, first
entry outside it with its status, the success status so far. -/
structure ListRun where
  cmd  : Nat
  base : Nat
  n    : Nat
  next : Nat
  good : Nat
  firstBad : Option (Nat × Status)
  best : Status
  deriving DecidableEq, Repr

/-- Cores, invocations, streams (04, 05). -/
structure Fabric where
  cores : List Core
  invs  : List Inv
  nextInv : Nat
  chans : List Chan
  rails : List Rail
  svc   : List SvcPkt
  nextSvc : Nat
  /-- service packets dropped for their CRC (R112) -/
  svcDrops : Nat
  waves : List Wave
  totals : StCnt
  /-- tiles that failed CRC: element, tick (R320) -/
  crcLog : List (Element × Nat)
  /-- Sieve mismatches of a physical core: die, row and position, tick of the last, count since boot (R311) -/
  sieve : List ((Nat × Nat × Nat) × Nat × Nat)
  lists : List ListRun
  deriving DecidableEq, Repr

/-- Port states (Table 11.3). -/
inductive PortState where
  | disabled | training | up | quarantined | down
  deriving DecidableEq, Repr

/-- An expected or received far end (Table 11.4). -/
structure FarId where
  (chip port : Nat)
  digest : U64
  deriving DecidableEq, Repr

/-- A packet that waits at a port; one in transit still holds its buffer of the port and class on which it came (R269). -/
structure Queued where
  pkt : Pkt
  via : Option (Nat × Nat)
  deriving DecidableEq, Repr

/-- A TongLink port (11_links_and_systems.md). -/
structure Port where
  st : PortState
  /-- DISABLED by expectation (R261, R262) -/
  off : Bool
  qreason : Nat
  (width4 spareUsed : Bool)
  laneFail : Nat
  active : List Nat
  /-- link replays since the last read of LINK_STATUS, and since boot (Table 13.10) -/
  (replays replaysAll : Nat)
  eye : Nat
  expect : Option FarId
  far : Option FarId
  owner : Nat
  /-- records of the LINK_TRAINs that wait for this port -/
  trainCmds : List Nat
  /-- the expectation that the training in progress, or the last one, judges by (R261) -/
  judged : Option FarId
  /-- ticks elapsed at the last identity frame sent, and when the lanes were qualified and step 6 began (Table 11.2) -/
  idAt : Nat
  sixAt : Option Nat
  autoUsed : Bool
  delay : Nat
  /-- next LSEQ to send, next LSEQ expected, packets received since the last acknowledgement -/
  (txSeq rxSeq unacked : Nat)
  held : List Pkt
  heldReplays : Nat
  waiting : List Queued
  /-- per VC 0-2: ticks elapsed when it last received a credit, or when packets began to wait on it if that is later (R271) -/
  waitSince : List Nat
  /-- per VC 0-2 and class: credits spent, latest total received, units freed here, freed total last sent -/
  spent : List Nat
  granted : List Nat
  freed : List Nat
  freedSent : List Nat
  probes : List Nat
  deriving DecidableEq, Repr

/-- A routing entry (Table 11.8). -/
structure RouteEnt where
  (dest port alt : Nat)
  (dlPort dlAlt reset : Bool)
  jobs : Nat
  deriving DecidableEq, Repr

inductive TransKind where
  | put | get | shard (ctx shard : Nat) | mirror (ctx : Nat)
  deriving DecidableEq, Repr

/-- A transfer this module started (R277, R278). -/
structure Transfer where
  xtag : Nat
  cmd  : Option Nat
  kind : TransKind
  slice : Nat
  chip : Nat
  local_ : Nat
  remote : Nat
  len  : Nat
  deadline : Nat
  opened : Bool
  moved : Nat
  poisoned : Bool
  retried : Bool
  retryAt : Option Nat
  /-- packets received: offset in the transfer, and for a weight shard the data and its poison marks -/
  parts : List (Nat × List Byte × List Nat)
  deriving DecidableEq, Repr

/-- A range a peer has opened here (R277). -/
structure Opened where
  (src xtag ga len op deadline : Nat)
  /-- packets written or read: offset, bytes -/
  done : List (Nat × Nat)
  deriving DecidableEq, Repr

/-- A collective of this module (R279-R282). -/
structure CollMember where
  chip : Nat
  /-- keys and lengths of what is sent to the member and received from it -/
  (skey slen rkey rcap : Nat)
  deriving DecidableEq, Repr

/-- A slice being received: rank, its length once known, packets (offset, data, poison marks). -/
structure CollSlice where
  rank : Nat
  len  : Option Nat
  parts : List (Nat × List Byte × List Nat)
  deriving DecidableEq, Repr

structure Coll where
  cmd  : Option Nat
  group : Nat
  /-- 0x0903, 0x0904 or 0x0905 -/
  opcode : Nat
  (fmt rank block : Nat)
  /-- key of RECV, for the result of a reduction -/
  recv : Nat
  members : List CollMember
  (launch deadline : Nat)
  slices : List CollSlice
  /-- credits of VC2 leased for its packets: port, class, units (R238, R280) -/
  lease : List (Nat × Nat × Nat)
  deriving DecidableEq, Repr

/-- Links and multi-module state. -/
structure Links where
  chip : Option Nat
  ports : List Port
  tables : List (Nat × List RouteEnt)
  transit : List (Nat × Pkt)
  delivered : List (Nat × Pkt)
  transfers : List Transfer
  opened : List Opened
  colls : List Coll
  /-- packets held for an unopened window: port, tick, packet (R280) -/
  heldColl : List (Nat × Nat × Pkt)
  dropped : Nat
  deriving DecidableEq, Repr

/-- Power, phases and Keep-warm (12_power_and_cooling.md). -/
structure Power where
  (peakCap window sustainCap floor ramp energy timeout lostCap : Nat)
  /-- input power of the last samples, newest first, one per microsecond (R288, R296, R297) -/
  samples : List Nat
  /-- for each of these, the clock and duty at it, as the share of the dynamic power of OP0 at full duty in 1/16,000 -/
  scales : List Nat
  (op duty : Nat)
  /-- rail settling: the point the clock has, or will have, when the rail has moved (R289) -/
  settling : Option Nat
  /-- a cap fall (R299): 0 none, 1 duty not lowered yet, 2 until the loop runs, 3 until the rail settles, 4 duty rising, 5 duty
  rising where no point fitted, without a fall (log 57) -/
  capFall : Nat
  /-- ticks elapsed when the rail settled after a cap fall, from which duty rises (R299) -/
  settledAt : Nat
  /-- the point the sustained loop has chosen (R298), and ticks of the last change of duty -/
  (loopOp dutyAt : Nat)
  (clamp hard : Bool)
  /-- droop detectors of the compute dies that hold the clock stretched (R296) -/
  droop : List Bool
  /-- consecutive samples: below 30 V, above 40 V, above 42 V, at 33 V or more while clamped -/
  (low30 high40 high42 good33 : Nat)
  phases : List U64
  told : List Nat
  mgrLost : Bool
  lastBeat : Nat
  fill : Bool
  /-- mean power of the last beat, in 1/100,000 W (R301) -/
  beatMean : Nat
  simmer : Bool
  /-- cause of Table 12.7, and tick since which the conditions of R306 have held -/
  simmerCause : Nat
  goodSince : Option Nat
  deriving DecidableEq, Repr

/-- Temperature and coolant. -/
structure Therm where
  (tempMax coolIn coolOut : Int)
  whereDie : Nat
  sampled : Bool
  (inletMax flowWarn flowK : Nat)
  pulses : List Nat
  flowStart : Nat
  throttle : Bool
  /-- the throttle's point and the tick of its last step (R305) -/
  (throttleOp throttleAt : Nat)
  (lowFlow inletOut : Bool)
  /-- tick since which flow has been below 2.0 L/min (R305) -/
  lowSince : Option Nat
  /-- the predicted outlet temperature in millionths of a kelvin, none before the first reading, and its tick (R304) -/
  predicted : Option Int
  predictedAt : Nat
  /-- the outlet excess at the readings of the last 50 ms, newest first, each with its tick (R305) -/
  excess : List (Nat × Int)
  deriving DecidableEq, Repr

/-- Per-stack and per-channel counts (Table 13.10). -/
structure MemCnt where
  (corrected uncorrectable repaired : Nat)
  deriving DecidableEq, Repr

/-- One hourly measurement (R329): spares consumed per die, corrected words per stack and per DDR channel in the hour, EYE_MIN
per port. -/
structure WearRec where
  (spares hbm ddr eye : List Nat)
  deriving DecidableEq, Repr

/-- Health, wear, trace (13_safety_repair_wear.md). -/
structure Health where
  (corrected seen : Nat)
  /-- `rounds`: known-answer intervals completed since reset -/
  (katInterval rounds ddrS hbmS : Nat)
  /-- the interval in progress, which KAT_INTERVAL does not change (R313) -/
  katCur : Nat
  (wear eol : U64)
  /-- ticks elapsed at the last update of the forecast (R332) -/
  eolAt : Option Nat
  /-- ticks elapsed at the last hourly measurement, hours at the last wear log entry, and the measurements, newest first (R329) -/
  wearAt : Nat
  logHours : Nat
  wearHist : List WearRec
  (sramCe sramUe : Nat)
  hbm : List MemCnt
  ddr : List MemCnt
  (katFail sieve remaps : Nat)
  /-- uncorrectable DDR words of the last 24 h: channel, tick (R318) -/
  ddrDay : List (Nat × Nat)
  /-- corrected HBM words of the last 24 h: stack, pseudo-channel, row, word, tick; rows to repair (R317) -/
  hbmDay : List (Nat × Nat × Nat × Nat × Nat)
  hbmDue : List (Nat × Nat × Nat)
  /-- corrected words per stack and channel at the last hourly measurement (R329) -/
  hbmBase : List Nat
  ddrBase : List Nat
  /-- tick at which the present known-answer interval began (R312) -/
  katAt : Nat
  /-- SELFTESTs that run: record, mask -/
  selftest : List (Nat × Nat)
  hours : Nat
  (traceBase traceSize traceMask traceSeq : Nat)
  deriving DecidableEq, Repr

/-- The sideband endpoint (R351). -/
structure Side where
  eid : Nat
  dynAddr : Option Nat
  deriving DecidableEq, Repr

structure State where
  pins  : Pins
  boot  : Boot
  grid  : Grid
  tmr   : Timer
  q     : Queues
  evc   : Evc
  cxl   : Cxl
  mem   : Memory
  jobs  : List Job
  ctxs  : List Ctx
  moves : List Move
  fab   : Fabric
  link  : Links
  pwr   : Power
  therm : Therm
  health : Health
  side  : Side
  /-- the model's own: what the module has sent or answered, oldest first -/
  out   : List Out
  /-- the model's own: free values drawn (log 2) -/
  free  : Nat
  /-- the model's own: the commands that wait, first in, first out -/
  pending : List Instr
  deriving DecidableEq, Repr

/-- The queue pair entry a reset leaves (Tables 3.1-3.4). -/
def QPair.reset (id : Nat) : QPair :=
  { id, sqBase := 0, cqBase := 0, sqOwn := true, cqOwn := true, enable := false, job := 0xFF, vecEn := false, vector := 0, cqLog2 := 0,
    sqLog2 := 0, sqHead := 0, cqTail := 0, sqTail := 0, cqHead := 0, phase := false, error := false, errCode := 0,
    chainOpen := false, chainFailed := false, closing := none }

def StCnt.zero : StCnt := ⟨0, 0, 0, 0, 0, 0, 0, 0, 0, 0, 0, 0, 0, 0, 0, 0, 0, false, false⟩

def Port.reset : Port :=
  { st := .disabled, off := false, qreason := 0, width4 := false, spareUsed := false, laneFail := 0, active := [], replays := 0, replaysAll := 0,
    eye := 0, expect := none, far := none, owner := 0, trainCmds := [], judged := none, idAt := 0, sixAt := none, autoUsed := false, delay := 0, txSeq := 0,
    rxSeq := 0, unacked := 0, held := [], heldReplays := 0, waiting := [], waitSince := [0, 0, 0], spent := List.replicate 6 0,
    granted := List.replicate 6 0, freed := List.replicate 6 0, freedSent := List.replicate 6 0, probes := [] }

/-- The module right after reset: RESET_N has just been released, BOOT_STAGE 1, the count at zero (R20, R339). -/
def State.reset : State :=
  { pins := { vinMv := 36000, vinPresent := true, pwrEn := true, pwrGood := true, resetN := true, rails := true,
              tripLatch := false, hardOff := false, trstN := false, tap := .idcode,
              cells := ⟨true, true, true, true, true, true, true, true, true, List.replicate 16 0, 0, List.replicate 12 0⟩ }
    boot := { stage := 1, entryMs := 0, code := 0, errStage := 0, detail := 0, warnRepair := false, warnDdr := false,
              warnCxl := false, warnMinver := false, warnUnit := false, warnFabric := false, warnLanes := false,
              resetHold := false, trivet := false, trivetCause := 0, minVersion := 0, cfwVersion := 0,
              imageDigest := 0, accepted := none, shipGrade := 0, ddrZeroed := 0 }
    grid := { valid := false, retired := [0, 0, 0, 0], failed := [], elements := [], hbmRows := [], stackFailed := [], pcFailed := [],
              lanesFailed := [], ddrGib := List.replicate 16 0, ddrRate := 0,
              spareShown := List.replicate 4 (0, 0), remaps := [] }
    tmr := { count := 0, elapsed := 0, role := .follower, named := false, master := 0, lock := .unlocked, refLost := false, hops := 0,
             upstream := none, offset := 0, ignored := 0, limit := 100000000, limitNext := none, lastGood := none,
             ports := [], overRun := 0, trefPresent := true, loadCount := 0, waits := [], alarms := [] }
    q := { pairs := [QPair.reset 0], rr := 0, recs := [], nextRec := 1, journal := [], nextJournal := 1, barriers := [] }
    evc := { pend0 := 0, pend1 := 0, mask0 := 0xFFFFFFFFFFFFFFFF, mask1 := 0x1FFF, route := List.replicate 16 0,
             ringBase := 0, ringOwn := true, ringN := 0, seqs := List.replicate 77 0, lost := 0 }
    cxl := { entries := List.replicate 64 ⟨0, 0, 1⟩, pba := 0, enable := false, functionMask := false,
             hdmBase := [0, 0], hdmLen := [0, 0], hdmCommitted := [false, false], hdmError := [false, false], component := [] }
    mem := { cells := [], poison := [], hostBad := [], hostDead := [], hostFails := 0, deadReads := 0, deadWrites := 0, upsets := [], allocs := [], reserves := [], nextUid := 1 }
    jobs := []
    ctxs := []
    moves := []
    fab := { cores := [], invs := [], nextInv := 1, chans := [], rails := [], svc := [], nextSvc := 1, svcDrops := 0, waves := [],
             totals := StCnt.zero, crcLog := [], sieve := [], lists := [] }
    link := { chip := none, ports := List.replicate 12 Port.reset, tables := [], transit := [], delivered := [],
              transfers := [], opened := [], colls := [], heldColl := [], dropped := 0 }
    pwr := { peakCap := 6000, window := 1000, sustainCap := 5200, floor := 0, ramp := 0, energy := 0, timeout := 5000,
             lostCap := 3000, samples := [], scales := [], op := 15, duty := 16, settling := none, capFall := 0, settledAt := 0,
             loopOp := 15, dutyAt := 0, clamp := false,
             hard := false, droop := [false, false, false, false], low30 := 0, high40 := 0, high42 := 0, good33 := 0,
             phases := 0x1F0 :: List.replicate 15 0xF0, told := [], mgrLost := false, lastBeat := 0, fill := false,
             beatMean := 0, simmer := false, simmerCause := 0, goodSince := none }
    therm := { tempMax := 0, coolIn := 0, coolOut := 0, whereDie := 0, sampled := false, inletMax := 0x28,
               flowWarn := 0x28, flowK := 0, pulses := [], flowStart := 0, throttle := false, throttleOp := 0,
               throttleAt := 0, lowFlow := false, inletOut := false, lowSince := none, predicted := none, predictedAt := 0, excess := [] }
    health := { corrected := 0, seen := 0, katInterval := 100, katCur := 100, rounds := 0, ddrS := 300, hbmS := 60, wear := 0,
                eol := 0x00FFFFFFFFFFFFFF, eolAt := none, wearAt := 0, logHours := 0, wearHist := [], sramCe := 0, sramUe := 0, hbm := List.replicate 24 ⟨0, 0, 0⟩,
                ddr := List.replicate 16 ⟨0, 0, 0⟩, katFail := 0, sieve := 0, remaps := 0,
                ddrDay := [], hbmDay := [], hbmDue := [], hbmBase := List.replicate 24 0,
                ddrBase := List.replicate 16 0, katAt := 0, selftest := [], hours := 0, traceBase := 0, traceSize := 0,
                traceMask := 0, traceSeq := 1 }
    side := { eid := 0, dynAddr := none }
    out := []
    free := 0
    pending := [] }

end Sys2Proof.Machine
end

