-- ==== Sys2Proof/Machine/Wire.lean ====
section
/-! DEFINITION. Packets and control frames as they stand on a link: the header of 11_links_and_systems.md Table 11.6, the
payload descriptors of Table 11.14, the control frames of Tables 2.2 and 11.13 and of R263, and the CRC-32 behind each
(R266, R268). -/

namespace Sys2Proof

open Machine

/-! ### Payload descriptors (Table 11.14) -/

/-- TYPE of the header. -/
def PktDesc.code : PktDesc → Nat
  | .writeData .. => 1 | .readRequest .. => 2 | .readData .. => 3 | .slice .. => 4 | .mirror .. => 5 | .openRange .. => 6
  | .openReply .. => 7 | .e2eAck .. => 8 | .unreachable .. => 9 | .other type _ => type

/-- Virtual channel of a TYPE (Table 11.7). -/
def PktDesc.vc : PktDesc → Nat
  | .openRange .. | .readRequest .. => 0
  | .openReply .. | .e2eAck .. | .unreachable .. => 1
  | _ => 2

/-- The first bytes of the payload. -/
def PktDesc.bytes : PktDesc → List Byte
  | .writeData ga n | .readRequest ga n | .readData ga n => padTo 64 (leBytes 8 ga ++ leBytes 4 n)
  | .slice group rank op launch off len n =>
    padTo 64 (leBytes 2 group ++ leBytes 2 rank ++ leBytes 2 op ++ zeros 2 ++ leBytes 8 launch ++ leBytes 4 off ++
      leBytes 4 len ++ leBytes 4 n)
  | .mirror ctx step off n commit =>
    padTo 64 (leBytes 2 ctx ++ zeros 6 ++ leBytes 8 step ++ leBytes 8 off ++ leBytes 4 n ++ leBytes 1 (if commit then 1 else 0))
  | .openRange ga len op deadline =>
    padTo 64 (leBytes 8 ga ++ leBytes 8 len ++ leBytes 1 op ++ zeros 7 ++ leBytes 8 deadline)
  | .openReply code check => padTo 64 (leBytes 2 code ++ leBytes 2 check)
  | .e2eAck n final => padTo 64 (leBytes 8 n ++ leBytes 1 (if final then 1 else 0))
  | .unreachable chip cause type xtag => padTo 64 (leBytes 2 chip ++ leBytes 1 cause ++ leBytes 1 type ++ leBytes 4 xtag)
  | .other _ raw => raw

/-- The descriptor that the first bytes of a payload spell. -/
def PktDesc.of (type : Nat) (bs : List Byte) : PktDesc :=
  let f := fieldAt bs
  let from_ := fun (i : Nat) => allZero (bs.drop i)
  let gap := fun (i n : Nat) => allZero (Machine.slice bs i n)
  let keep := fun (reserved : Bool) (d : PktDesc) => if bs.length == 64 && reserved then d else .other type bs
  match type with
  | 1 => keep (from_ 12) (.writeData (f 0 8) (f 8 4))
  | 2 => keep (from_ 12) (.readRequest (f 0 8) (f 8 4))
  | 3 => keep (from_ 12) (.readData (f 0 8) (f 8 4))
  | 4 => keep (gap 6 2 && from_ 28) (.slice (f 0 2) (f 2 2) (f 4 2) (f 8 8) (f 16 4) (f 20 4) (f 24 4))
  | 5 => keep (gap 2 6 && f 28 1 ≤ 1 && from_ 29) (.mirror (f 0 2) (f 8 8) (f 16 8) (f 24 4) (bit (f 28 1) 0))
  | 6 => keep (gap 17 7 && from_ 32) (.openRange (f 0 8) (f 8 8) (f 16 1) (f 24 8))
  | 7 => keep (from_ 4) (.openReply (f 0 2) (f 2 2))
  | 8 => keep (f 8 1 ≤ 1 && from_ 9) (.e2eAck (f 0 8) (bit (f 8 1) 0))
  | 9 => keep (f 0 2 < 4096 && from_ 8) (.unreachable (f 0 2) (f 2 1) (f 3 1) (f 4 4))
  | _ => .other type bs

/-- Data bytes a descriptor gives; none for a TYPE without data. -/
def PktDesc.dataBytes : PktDesc → Option Nat
  | .writeData _ n => some n
  | .readData _ n => some n
  | .slice _ _ _ _ _ _ n => some n
  | .mirror _ _ _ n _ => some n
  | _ => none

/-! ### Packets (R266, Table 11.6) -/

/-- The 16-byte header. Its reserved bits are [7:3] of byte 1, [7:6] of byte 3 and [15:12] of DST and SRC. -/
def Pkt.header (p : Pkt) : List Byte :=
  leBytes 1 p.desc.code ++ leBytes 1 (p.vc + 4 * p.cls + 8 * bits p.rsv 4 0) ++ leBytes 1 p.slice ++
    leBytes 1 (p.ttl + 64 * bits p.rsv 6 5) ++ leBytes 2 (p.dst + 4096 * bits p.rsv 10 7) ++
    leBytes 2 (p.src + 4096 * bits p.rsv 14 11) ++ leBytes 2 p.len ++ leBytes 2 p.lseq ++ leBytes 4 p.xtag

/-- The packet on the link: header, payload, CRC. -/
def Pkt.wire (p : Pkt) : List Byte := withCrc (p.header ++ p.desc.bytes ++ p.data)

/-- What arrived is a packet whose CRC stands where LEN says. -/
def wireGood (bs : List Byte) : Bool := bs.length == 20 + fieldAt bs 8 2 && crcGood bs

/-- The packet that bytes spell, with the marks that came with it. -/
def Pkt.of (bs : List Byte) (marks : List Nat) : Pkt :=
  let f := fieldAt bs
  let payload := (bs.drop 16).take (f 8 2)
  { vc := f 1 1 % 4, cls := f 1 1 / 4 % 2, slice := f 2 1, ttl := f 3 1 % 64, dst := f 4 2 % 4096, src := f 6 2 % 4096,
    len := f 8 2, lseq := f 10 2, xtag := f 12 4,
    rsv := f 1 1 / 8 + 32 * (f 3 1 / 64) + 128 * (f 4 2 / 4096) + 2048 * (f 6 2 / 4096),
    desc := PktDesc.of (f 0 1) (payload.take 64), data := payload.drop 64, marks := marks }

/-- Units of 64 bytes a packet takes: header, payload and CRC. -/
def Pkt.units (p : Pkt) : Nat := ceilDiv (20 + p.len) 64

/-- The destination keeps a packet: no reserved field of its descriptor set, data as long as LEN and the descriptor say
(R268). -/
def Pkt.wellFormed (p : Pkt) : Bool :=
  let n := (p.desc.dataBytes).getD 0
  p.len == 64 + n && p.data.length == n && n % 64 == 0 && n ≤ 4032 &&
    match p.desc with
    | .readRequest _ m => m % 64 == 0 && m ≤ 4032
    | .other _ _ => false
    | _ => true

/-! ### Control frames (R263, R266, R267, Table 11.13) -/

/-- A time marker's fields (Table 2.2); bits [15:12] of MASTER and SENDER, which the table does not list, count as reserved
(log 105). -/
def Marker.of (bs : List Byte) : Marker :=
  let f := fieldAt bs
  { kind := BitVec.ofNat 8 (f 0 1), state := BitVec.ofNat 2 (f 1 1), refLost := bit (f 1 1) 2,
    rsv := !(f 1 1 < 8 && f 2 1 < 64 && f 3 1 == 0 && f 4 2 < 4096 && f 6 2 < 4096), hops := BitVec.ofNat 6 (f 2 1),
    master := BitVec.ofNat 12 (f 4 2), sender := BitVec.ofNat 12 (f 6 2), count := BitVec.ofNat 64 (f 8 8) }

end Sys2Proof
end

