-- ==== Sys2Proof/Machine/Ops.lean ====
section
/-! DEFINITION. Operations every family shares: the address spaces and memory (07_memory_tiers.md), MSI-X
messages (15_registers.md R364), event records (03_commands_and_events.md R60-R64), the journal (R58), free values,
and the ways a step ends. -/

namespace Sys2Proof.Machine

/-- The outcome every event of this block has. -/
abbrev Res := Host.Outcome State Fault Refusal

/-- The count (02_timer.md R20). -/
def State.now (s : State) : Nat := s.tmr.count

/-- Ticks since the count began: the measure of durations, which no step of the count lengthens or shortens. -/
def State.elapsed (s : State) : Nat := s.tmr.elapsed

/-! Change one part of the state. -/
def State.modPins (s : State) (f : Pins → Pins) : State := { s with pins := f s.pins }
def State.modBoot (s : State) (f : Boot → Boot) : State := { s with boot := f s.boot }
def State.modGrid (s : State) (f : Grid → Grid) : State := { s with grid := f s.grid }
def State.modTmr (s : State) (f : Timer → Timer) : State := { s with tmr := f s.tmr }
def State.modQ (s : State) (f : Queues → Queues) : State := { s with q := f s.q }
def State.modEvc (s : State) (f : Evc → Evc) : State := { s with evc := f s.evc }
def State.modCxl (s : State) (f : Cxl → Cxl) : State := { s with cxl := f s.cxl }
def State.modMem (s : State) (f : Memory → Memory) : State := { s with mem := f s.mem }
def State.modFab (s : State) (f : Fabric → Fabric) : State := { s with fab := f s.fab }
def State.modLink (s : State) (f : Links → Links) : State := { s with link := f s.link }
def State.modPwr (s : State) (f : Power → Power) : State := { s with pwr := f s.pwr }
def State.modTherm (s : State) (f : Therm → Therm) : State := { s with therm := f s.therm }
def State.modHealth (s : State) (f : Health → Health) : State := { s with health := f s.health }
def State.modSide (s : State) (f : Side → Side) : State := { s with side := f s.side }

/-- One free value drawn (log 2): nothing constrains it. -/
def State.draw (s : State) : U64 × State := (Config.freeValue s.free, { s with free := s.free + 1 })

/-- `n` free bytes. -/
def State.drawBytes (s : State) (n : Nat) : List Byte × State :=
  ((List.range n).map fun i => (Config.freeValue (s.free + i)).setWidth 8, { s with free := s.free + n })

/-- One of several candidates, which the manual does not say: a free value decides (log 2, log 17). -/
def State.choose (s : State) (cands : List Nat) : Option Nat × State :=
  if cands.isEmpty then (none, s)
  else (cands[(Config.freeValue s.free).toNat % cands.length]?, { s with free := s.free + 1 })

def State.send (s : State) (o : Out) : State := { s with out := s.out ++ [o] }

/-- A control frame of VC3 goes out: its 16 bytes and their CRC-32 (R266). -/
def State.control (s : State) (port : Nat) (bytes : List Byte) : State := s.send (.frame port (withCrc (padTo 16 bytes)))

/-- A packet goes out on a port. -/
def State.sendPkt (s : State) (port : Nat) (p : Pkt) : State := s.send (.packet port p.wire p.marks)

/-! ### Grid (00_scope.md R1-R4, 01_module_overview.md R10, R11) -/

/-- Presented columns of a die (R3, R325): zero until GRID_SHAPE is valid. -/
def Grid.dieWidth (g : Grid) (d : Nat) : Nat := if g.valid then 80 - g.retired.getD d 0 else 0

/-- The presented width W. -/
def Grid.width (g : Grid) : Nat := g.dieWidth 0 + g.dieWidth 1 + g.dieWidth 2 + g.dieWidth 3

def Grid.retiredAll (g : Grid) : Nat := g.retired.foldl (· + ·) 0

/-- Grade by Table 0.2: 0 A, 1 B, 2 C, 3 D. -/
def gradeOf (retired : Nat) : Nat :=
  if retired = 0 then 0 else if retired ≤ 4 then 1 else if retired ≤ 12 then 2 else 3

/-- Die that holds a virtual column (R10). -/
def Grid.dieOf (g : Grid) (col : Nat) : Nat :=
  if col < g.dieWidth 0 then 0 else if col < g.dieWidth 0 + g.dieWidth 1 then 1
  else if col < g.dieWidth 0 + g.dieWidth 1 + g.dieWidth 2 then 2 else 3

/-- First column of a die. -/
def Grid.dieCol0 (g : Grid) (d : Nat) : Nat := ((List.range d).map g.dieWidth).foldl (· + ·) 0

/-- Core index of row and column (R11). -/
def coreIx (row col : Nat) : Nat := row * 320 + col

def coreRow (c : Nat) : Nat := c / 320
def coreCol (c : Nat) : Nat := c % 320

/-- A core index the grid presents (R11). -/
def Grid.hasCore (g : Grid) (c : Nat) : Bool := coreRow c < 80 && coreCol c < g.width

/-- Rim rows (R13). -/
def isRim (c : Nat) : Bool := coreRow c < 8 || (72 ≤ coreRow c && coreRow c < 80)

/-! ### Addresses (R158-R162). A key is space times 2^48 plus offset: a GA without its chip number. -/

def keyOf (ga : Nat) : Nat := ga % 2 ^ 52
def chipOf (ga : Nat) : Nat := ga / 2 ^ 52 % 4096
def spaceOf (k : Nat) : Nat := k / 2 ^ 48
def offOf (k : Nat) : Nat := k % 2 ^ 48
def mkKey (space off : Nat) : Nat := space * 2 ^ 48 + off

/-- The module's own chip number for GAs (R260). -/
def State.ownChip (s : State) : Nat := s.link.chip.getD 0

def State.ownGa (s : State) (ga : Nat) : Bool := chipOf ga == s.ownChip

/-- A key as a GA of this module. -/
def State.gaOf (s : State) (k : Nat) : Nat := s.ownChip * 2 ^ 52 + k

/-- Bytes of an HBM window (R159). -/
def hbmWindow : Nat := 144 * 2 ^ 30

/-- Trained GiB behind an I/O die's DDR window: channels in letter order, four a die (R161, Table 1.2). -/
def Grid.ddrWindowGib (g : Grid) (x : Nat) : Nat :=
  ((List.range 4).map fun i => g.ddrGib.getD (4 * x + i) 0).foldl (· + ·) 0

/-- Channel of 4 KiB unit `u` counted from a band's base, over channels with their unused units, band by band. -/
def ddrBand : Nat → List (Nat × Nat) → Nat → Option Nat
  | 0, _, _ => none
  | fuel + 1, chs, u =>
    let unused := chs.filter fun c => c.2 != 0
    let n := unused.length
    let least := (unused.map (·.2)).foldl min (unused.headD (0, 0)).2
    if u < n * least then (unused[u % n]?).map (·.1)
    else ddrBand fuel (unused.map fun c => (c.1, c.2 - least)) (u - n * least)

/-- DDR channel that holds an offset, in letter order from 0; none in a hole (R161). -/
def Grid.ddrChannel (g : Grid) (off : Nat) : Option Nat :=
  let x := off / 2 ^ 40
  ddrBand 4 ((List.range 4).map fun i => (4 * x + i, g.ddrGib.getD (4 * x + i) 0 * 2 ^ 18)) (off % 2 ^ 40 / 4096)

/-- Bytes from a key to the end of the window or space it lies in; 0 for a hole, space 0x4 and reserved spaces
(R158, R159, R161, R162, R11). -/
def State.room (s : State) (k : Nat) : Nat :=
  let off := offOf k
  match spaceOf k with
  | 0 => if off / 2 ^ 38 < 8 then hbmWindow - off % 2 ^ 38 else 0
  | 1 => if off / 2 ^ 40 < 4 then s.grid.ddrWindowGib (off / 2 ^ 40) * 2 ^ 30 - off % 2 ^ 40 else 0
  | 2 =>
    let core := off / 2 ^ 18
    if s.grid.hasCore core then
      -- at W = 320 the next row's first core follows a row's last; at a lesser W indices no core has lie between them
      (if s.grid.width = 320 then 25600 - core else s.grid.width - coreCol core) * 2 ^ 18 - off % 2 ^ 18
    else 0
  | 3 => 2 ^ 48 - off
  | 5 => 64 * 2 ^ 20 - off
  | _ => 0

/-- A range lies inside one window of one space. -/
def State.rangeOk (s : State) (k len : Nat) : Bool := len ≤ s.room k && 0 < s.room k

/-- HBM stack that holds an offset (R159, R160). -/
def hbmStack (off : Nat) : Nat := 3 * (off / 2 ^ 38) + off % 2 ^ 38 / 256 % 3

/-- Pseudo-channel of an HBM offset (R160). -/
def hbmPc (off : Nat) : Nat := off % 2 ^ 38 / 256 / 3 % 32

/-- Edge group of an HBM offset: 2 × die + edge (R159). -/
def hbmGroup (off : Nat) : Nat := off / 2 ^ 38

/-! ### Memory cells -/

/-- What a byte that no entry lists reads as: 0xFF in erased flash (R346), 0 elsewhere (R376; host memory: log 3). -/
def unlisted (k : Nat) : Byte := if spaceOf k = 5 then 0xFF else 0

def getCell : List Host.Cell → Nat → Option Byte
  | [], _ => none
  | (a, b) :: cs, k => if a = k then some b else if k < a then none else getCell cs k

/-- Set one byte; the list stays ascending and lists no byte equal to what an unlisted address reads as. -/
def setCell : List Host.Cell → Nat → Byte → List Host.Cell
  | [], k, v => if v = unlisted k then [] else [(k, v)]
  | (a, b) :: cs, k, v =>
    if k < a then (if v = unlisted k then (a, b) :: cs else (k, v) :: (a, b) :: cs)
    else if k = a then (if v = unlisted k then cs else (k, v) :: cs)
    else (a, b) :: setCell cs k v

/-- The canonical form of memory: ascending addresses, no entry equal to what an unlisted address reads as. -/
def cellsWf : List Host.Cell → Bool
  | [] => true
  | [(a, b)] => b != unlisted a
  | (a, b) :: (c, d) :: cs => b != unlisted a && a < c && cellsWf ((c, d) :: cs)

def Memory.wf (m : Memory) : Bool := cellsWf m.cells

def Memory.byte (m : Memory) (k : Nat) : Byte := (getCell m.cells k).getD (unlisted k)

def State.readByte (s : State) (k : Nat) : Byte := s.mem.byte k

def State.readBytes (s : State) (k len : Nat) : List Byte := (List.range len).map fun i => s.readByte (k + i)

/-- The little-endian number of `n` bytes at a key. -/
def State.readNat (s : State) (k n : Nat) : Nat := leNat (s.readBytes k n)

def setCells : List Host.Cell → Nat → List Byte → List Host.Cell
  | cs, _, [] => cs
  | cs, k, b :: bs => setCells (setCell cs k b) (k + 1) bs

/-! ### Poison (R171): the list of poisoned ECC words by first byte -/

/-- Bytes of an ECC word of the space a key lies in; host memory is handled by 64-byte lines (R162, R171). -/
def eccSize (k : Nat) : Nat :=
  match spaceOf k with
  | 0 => 32
  | 2 => 8
  | _ => 64

def eccBase (k : Nat) : Nat := k - k % eccSize k

/-- Words that read as poisoned: those marked, those whose bits have changed beyond correction, and the lines of host memory
that the host does not answer well (R162, R316-R318). -/
def Memory.poisonWords (m : Memory) : List Nat :=
  m.poison ++ (m.upsets.filter (·.2)).map (·.1) ++ m.hostBad.filter fun w => spaceOf w == 3

def Memory.poisonedAt (m : Memory) (k : Nat) : Bool := m.poisonWords.contains (eccBase k)

/-- Some word of a range is poisoned. -/
def Memory.poisonedIn (m : Memory) (k len : Nat) : Bool :=
  m.poisonWords.any fun w => w < k + len && k < w + eccSize w

/-- A write of a range that the host fails: it touches such a line (R162). -/
def Memory.hostRefuses (m : Memory) (k len : Nat) : Bool :=
  spaceOf k == 3 && m.hostDead.any fun w => w < k + len && k < w + 64

/-- Requests of a write that the host fails: one for each such line (R162). -/
def Memory.failedLines (m : Memory) (k len : Nat) : Nat :=
  if spaceOf k = 3 && len != 0 then (m.hostDead.eraseDups.filter fun w => w < k + len && k < w + 64).length else 0

/-- A byte of a failed HBM stack: reads are poisoned and writes dropped (13_safety_repair_wear.md Table 13.2). -/
def State.deadByte (s : State) (k : Nat) : Bool := spaceOf k == 0 && s.grid.stackFailed.contains (hbmStack (offOf k))

/-- A range touches a failed stack. -/
def State.deadIn (s : State) (k len : Nat) : Bool :=
  !s.grid.stackFailed.isEmpty && (List.range len).any fun i => s.deadByte (k + i)

def State.poisonedAt (s : State) (k : Nat) : Bool := s.mem.poisonedAt k || s.deadByte k

def State.poisonedIn (s : State) (k len : Nat) : Bool :=
  s.mem.poisonedIn k len || s.deadIn k len

/-- Poison marks left after a write of `len` bytes at `k`: a whole-word write clears its word (R171). -/
def clearPoison (ps : List Nat) (k len : Nat) : List Nat :=
  ps.filter fun w => !(k ≤ w && w + eccSize w ≤ k + len)

/-- A byte that a write does not reach: one of a failed stack, or of a line whose write the host fails (R162, R317). -/
def State.unreachedByte (s : State) (k : Nat) : Bool := s.deadByte k || s.mem.hostRefuses k 1

/-- Bytes that reach memory: the others leave it as it is. -/
def State.reaching (s : State) (k : Nat) (bs : List Byte) : List Byte :=
  if s.grid.stackFailed.isEmpty && s.mem.hostDead.isEmpty then bs
  else bs.mapIdx fun i b => if s.unreachedByte (k + i) then s.readByte (k + i) else b

/-- Write bytes without poison; each 64-byte request that the host fails is counted (R162), and a write that a failed stack
drops (R317). A
word wholly written has no changed bits any more. -/
def State.writeBytes (s : State) (k : Nat) (bs : List Byte) : State :=
  { s with mem := { s.mem with cells := setCells s.mem.cells k (s.reaching k bs),
                               poison := clearPoison s.mem.poison k bs.length,
                               upsets := s.mem.upsets.filter fun u => !(k ≤ u.1 && u.1 + eccSize u.1 ≤ k + bs.length),
                               deadWrites := s.mem.deadWrites + (if s.deadIn k bs.length then 1 else 0),
                               hostFails := s.mem.hostFails + s.mem.failedLines k bs.length } }

/-- Mark the ECC words of the given bytes poisoned. Host memory keeps no mark (R93). -/
def State.markPoison (s : State) (ks : List Nat) : State :=
  { s with mem := { s.mem with
      poison := ks.foldl (fun ps k => if spaceOf k = 3 then ps else insSorted ps (eccBase k)) s.mem.poison } }

/-- Write bytes, marking poisoned every word derived from a byte at one of the given offsets (R172, R93). -/
def State.writeMarked (s : State) (k : Nat) (bs : List Byte) (offs : List Nat) : State :=
  (s.writeBytes k bs).markPoison (offs.map (k + ·))

/-- Offsets in a range whose byte lies in a poisoned word. -/
def State.poisonOffsets (s : State) (k len : Nat) : List Nat :=
  if s.poisonedIn k len then (List.range len).filter fun i => s.poisonedAt (k + i) else []

/-- Copy a range, carrying poison with the data (R170, R172). -/
def State.copyRange (s : State) (src dst len : Nat) : State :=
  s.writeMarked dst (s.readBytes src len) (s.poisonOffsets src len)

/-! ### MSI-X (R364) -/

def State.msixSendable (s : State) (v : Nat) : Bool :=
  s.cxl.enable && !s.cxl.functionMask && ((s.cxl.entries.getD v ⟨0, 0, 1⟩).ctrl.getLsbD 0 == false)

/-- A trigger of a vector: the message goes out, or the pending bit is set. -/
def State.msix (s : State) (v : Nat) : State :=
  if s.msixSendable v then
    let e := s.cxl.entries.getD v ⟨0, 0, 1⟩
    s.send (.msix v e.addr e.data)
  else { s with cxl := { s.cxl with pba := s.cxl.pba ||| (1#64 <<< v) } }

/-- Messages of pending vectors that may now go out, lowest vector first. -/
def State.msixFlush (s : State) : State :=
  (List.range 64).foldl (fun s v =>
    if s.cxl.pba.getLsbD v && s.msixSendable v then
      ({ s with cxl := { s.cxl with pba := s.cxl.pba &&& ~~~(1#64 <<< v) } }).msix v
    else s) s

/-! ### Events (R60-R64, R358-R360) -/

def Evc.pend (e : Evc) (w : Nat) : U64 := if w = 0 then e.pend0 else e.pend1
def Evc.mask (e : Evc) (w : Nat) : U64 := if w = 0 then e.mask0 else e.mask1

/-- Bits of a word that name sources (Table 15.9). -/
def evcValid (w : Nat) : U64 := if w = 0 then 0xFFFFFFFFFFFFFFFF else 0x1FFF

/-- Vector of a source (R359). -/
def Evc.vector (e : Evc) (src : Nat) : Nat :=
  bits (e.route.getD (src / 8) 0).toNat (8 * (src % 8) + 5) (8 * (src % 8))

/-- Give a word new PEND and MASK values; each bit of PEND AND NOT MASK that rises sends its vector (R63). -/
def State.evcSet (s : State) (w : Nat) (pend mask : U64) : State :=
  let old := s.evc.pend w &&& ~~~(s.evc.mask w)
  let p := pend &&& evcValid w
  let m := mask &&& evcValid w
  let rise := p &&& ~~~m &&& ~~~old
  let s1 := { s with evc := if w = 0 then { s.evc with pend0 := p, mask0 := m }
                            else { s.evc with pend1 := p, mask1 := m } }
  (List.range 64).foldl (fun s b => if rise.getLsbD b then s.msix (s.evc.vector (64 * w + b)) else s) s1

/-- The rising edge of a source. -/
def State.edge (s : State) (src : Nat) : State :=
  let w := src / 64
  s.evcSet w (s.evc.pend w ||| (1#64 <<< (src % 64))) (s.evc.mask w)

/-- GA of the ring entry of a record (R61). -/
def Evc.slot (e : Evc) (src seq : Nat) : Nat :=
  e.ringBase.toNat + 32 * e.ringN * src + 32 * (seq % e.ringN)

/-- The 32 bytes of an event record (Table 3.15). -/
def eventBytes (src kind seq tick : Nat) (payload : List Byte) : List Byte :=
  leBytes 2 src ++ leBytes 2 kind ++ leBytes 4 seq ++ leBytes 8 tick ++ padTo 16 payload

/-- The sequence number a source's next record takes. -/
def Evc.nextSeq (e : Evc) (src : Nat) : Nat := (e.seqs.getD src 0 + 1) % 2 ^ 32

/-- A record is written: rings enabled, the slot this module's and in space 0x0, 0x1 or 0x3 (R61, R360). An area on another
module is never written (log 90). -/
def State.slotTried (s : State) (ga : Nat) : Bool :=
  s.evc.ringN != 0 && s.evc.ringOwn && [0, 1, 3].contains (spaceOf (keyOf ga)) && s.rangeOk (keyOf ga) 32

/-- A record's write succeeds: the host takes it (R162). -/
def State.slotOk (s : State) (ga : Nat) : Bool := s.slotTried ga && !s.mem.hostRefuses (keyOf ga) 32

/-- Bit of FAULT_SUMMARY.SEEN that a record of a kind sets (Table 13.4; log 11). -/
def seenBit (kind : Nat) (payload : List Byte) : Option Nat :=
  match kind with
  | 0x0060 => some 0
  | 0x0061 => some 1
  | 0x0064 => some 2
  | 0x0065 => some 3
  | 0x0067 => some 4
  | 0x0068 => if (payload.getD 0 0).toNat < 3 then some 6 else some 5
  | 0x0021 | 0x0022 | 0x0023 | 0x0024 | 0x0026 => some 7
  | 0x0029 => if payload.getD 0 0 = 0 then none else some 8
  | 0x002A => some 8
  | 0x0041 | 0x0042 | 0x0043 | 0x0044 => some 9
  | 0x0048 | 0x0049 => some 10
  | 0x0050 | 0x0051 | 0x0052 => some 11
  | 0x0062 => some 12
  | 0x0063 => some 13
  | _ => none

/-- An event record of a source: written to its ring, then the edge. With rings disabled, or when the write fails (it is
counted then, R162), the record is lost, its number is used up and no edge follows (R61-R63; log 20). -/
def State.event (s : State) (src kind : Nat) (payload : List Byte) : State :=
  let seq := s.evc.nextSeq src
  let seen := match seenBit kind payload with
    | some b => s.health.seen ||| 2 ^ b
    | none => s.health.seen
  let s1 := { s with evc := { s.evc with seqs := s.evc.seqs.set src seq }, health := { s.health with seen := seen } }
  let ga := s.evc.slot src seq
  let s2 := if s.slotTried ga then s1.writeBytes (keyOf ga) (eventBytes src kind seq s.now payload) else s1
  if s.slotOk ga then s2.edge src else s2

/-- A trace record of a mask bit (R335, Tables 13.11 and 13.12); one that cannot be written is dropped and its number
skipped. -/
def State.trace (s : State) (b object : Nat) (data : List Byte) : State :=
  if bit s.health.traceMask b && 32 ≤ s.health.traceSize then
    let seq := s.health.traceSeq
    let k := keyOf (s.health.traceBase + 32 * (seq % (s.health.traceSize / 32)))
    let s1 := { s with health := { s.health with traceSeq := (seq + 1) % 2 ^ 32 } }
    if s.rangeOk k 32 then
      s1.writeBytes k (leBytes 2 b ++ leBytes 2 object ++ leBytes 4 seq ++ leBytes 8 s.now ++ padTo 16 data)
    else s1
  else s

/-! Source numbers (Table 15.8). -/
def srcSafety : Nat := 76
def srcTimer : Nat := 75
def srcCoolant : Nat := 74
def srcThermal : Nat := 73
def srcPower : Nat := 72
def srcJob (j : Nat) : Nat := 56 + j
def srcDie (d : Nat) : Nat := 52 + d
def srcDdr (c : Nat) : Nat := 36 + c
def srcStack (h : Nat) : Nat := 12 + h

/-! ### Journal (R58, R59) -/

/-- Code of a status (Table 3.13). -/
def Status.code : Status → Nat
  | .ok => 0x0000 | .okEmpty => 0x0001 | .okLate => 0x0002 | .okPoisoned => 0x0003 | .okDegraded => 0x0004
  | .badOpcode => 0x0101 | .badParam => 0x0102 | .badAlign => 0x0103 | .badContext => 0x0104 | .badSize => 0x0105
  | .noRoom => 0x0201 | .noSlots => 0x0202 | .noSpare => 0x0203 | .busyHeld => 0x0204
  | .wrongState => 0x0301 | .notOwner => 0x0302 | .checkFailed => 0x0303 | .deadline => 0x0304
  | .cancelled => 0x0305 | .modelReplaced => 0x0306
  | .shardCorrupt => 0x0401 | .shardMissing => 0x0402 | .ctxFault => 0x0403 | .deadlockUnresolved => 0x0404
  | .hwFault => 0x0405 | .linkDown => 0x0406 | .fwRejected => 0x0407
  | .timeUnlocked => 0x0501 | .timePast => 0x0502

/-- The success group (R57). -/
def Status.success (st : Status) : Bool := st.code ≤ 4

/-- The more important of two statuses (R35): refusals and faults first, then OK_POISONED, OK_DEGRADED, OK_LATE,
OK_EMPTY, OK. -/
def Status.rank : Status → Nat
  | .ok => 0 | .okEmpty => 1 | .okLate => 2 | .okDegraded => 3 | .okPoisoned => 4 | _ => 5

def Status.join (a b : Status) : Status := if a.rank < b.rank then b else a

/-- A journal record: the next index, an event of kind 0x0001 on the safety source (R58, R59); the last 65,536 stay. -/
def State.journal (s : State) (opcode queue status : Nat) (detail : List Byte) : State :=
  let ix := s.q.nextJournal
  let d := padTo 6 detail
  let r : Journal := ⟨ix, s.evc.nextSeq srcSafety, opcode, queue, status, d, s.now⟩
  let js := s.q.journal ++ [r]
  let s1 := { s with q := { s.q with nextJournal := ix + 1, journal := js.drop (js.length - 65536) } }
  s1.event srcSafety 0x0001
    (leBytes 2 opcode ++ leBytes 2 queue ++ leBytes 4 ix ++ leBytes 2 status ++ d)

/-- The 32 bytes of a journal record as its ring holds it (R59). -/
def Journal.bytes (r : Journal) : List Byte :=
  eventBytes srcSafety 0x0001 r.seq r.tick
    (leBytes 2 r.opcode ++ leBytes 2 r.queue ++ leBytes 4 r.index ++ leBytes 2 r.status ++ padTo 6 r.detail)

/-- A journal record of an action of the module itself (QUEUE 0xFFFF). -/
def State.journalAction (s : State) (code : Nat) (object : List Byte) : State :=
  s.journal 0 0xFFFF 0 (leBytes 1 code ++ object)

/-! ### What the module can do at all -/

/-- Power is up, reset is released and the ROM passed its self-check (R338, R341). -/
def State.alive (s : State) : Bool :=
  s.pins.pwrEn && s.pins.pwrGood && s.pins.resetN && !s.boot.resetHold && s.pins.vinPresent && !s.pins.hardOff

/-- The module carries out commands: alive and not in Trivet (R331). -/
def State.working (s : State) : Bool := s.alive && !s.boot.trivet

/-- Control firmware runs (R339). -/
def State.running (s : State) : Bool := s.working && s.boot.stage == 9

/-- An event whose condition does not hold does not happen: the state stays (log 4). -/
def State.when (s : State) (c : Bool) (t : State) : Res := .next (if c then t else s)

/-- Fields of a phase entry (Table 12.3). -/
def Power.entry (p : Power) (ph : Nat) : Nat := (p.phases.getD ph 0).toNat
def Power.opPref (p : Power) (ph : Nat) : Nat := bits (p.entry ph) 3 0
def Power.opFloor (p : Power) (ph : Nat) : Nat := bits (p.entry ph) 7 4
def Power.phaseFill (p : Power) (ph : Nat) : Bool := bit (p.entry ph) 8

/-- The configuration space of the CXL port does not answer yet (14_boot_and_identity.md R339; log 103). -/
def State.configBusy (s : State) : Bool := s.boot.stage < 3

end Sys2Proof.Machine
end

