-- ==== Sys2Proof/Machine/Opcodes.lean ====
section
/-! DEFINITION. The opcode tables of 03_commands_and_events.md (Tables 3.9-3.12), the tick-launched opcodes
(02_timer.md Table 2.4), the journaled changes (Table 3.14), and the packet layout of an SQ entry (Table 3.6). -/

namespace Sys2Proof.Machine

/-- The packet header of an opcode's row; none for any other row. -/
def envOf : Instr → Option Env
  | .nop e => some e
  | .devQuery e => some e
  | .qpCreate e _ _ _ _ _ _ _ => some e
  | .qpDestroy e _ => some e
  | .fwLoad e _ _ => some e
  | .journalRead e _ _ _ => some e
  | .jobOpen e _ _ _ => some e
  | .jobClose e _ _ => some e
  | .ctxCreate e _ _ _ _ _ => some e
  | .ctxDestroy e _ => some e
  | .ctxEvict e _ => some e
  | .ctxRestore e => some e
  | .ctxPin e _ => some e
  | .memAlloc e _ _ _ _ => some e
  | .memFree e _ => some e
  | .memCopy e _ _ _ => some e
  | .memFill e _ _ _ => some e
  | .memConvert e _ _ _ _ => some e
  | .prefetchListSet e _ _ _ => some e
  | .wgtLoad e _ _ _ => some e
  | .wgtReplace e _ _ _ => some e
  | .adapterLoad e _ _ _ _ => some e
  | .adapterRetire e _ _ => some e
  | .wgtVerify e _ => some e
  | .cfgLoad e _ _ => some e
  | .cfgActivate e _ => some e
  | .cfgCheck e _ _ => some e
  | .cfgUnload e _ => some e
  | .invoke e _ _ _ _ => some e
  | .invokeList e _ _ => some e
  | .preempt e _ => some e
  | .barrier e _ _ => some e
  | .srvStart e _ => some e
  | .reqAdmit e _ _ _ _ => some e
  | .reqCancel e _ => some e
  | .stepAnswer e _ _ _ _ => some e
  | .srvPolicy e _ _ _ _ _ _ => some e
  | .srvStop e _ => some e
  | .linkTrain e _ => some e
  | .linkExpectSet e _ _ _ _ => some e
  | .routeLoad e _ _ _ => some e
  | .portOwnerSet e _ _ => some e
  | .linkQuery e _ => some e
  | .put e _ _ _ _ => some e
  | .get e _ _ _ _ => some e
  | .exchange e _ _ _ => some e
  | .reduceScatter e _ _ _ => some e
  | .allGather e _ _ _ => some e
  | .mirrorSet e _ _ => some e
  | .pwrLimits e _ _ _ _ _ => some e
  | .phaseTableSet e _ _ => some e
  | .keepwarmSet e _ _ => some e
  | .mgrHeartbeat e _ => some e
  | .pwrQuery e => some e
  | .selftest e _ => some e
  | .healthQuery e _ _ => some e
  | .repairCommit e _ => some e
  | .katCfg e _ => some e
  | .scrubCfg e _ _ => some e
  | .idQuery e => some e
  | .attest e _ _ _ => some e
  | .flashRecordRead e _ _ _ => some e
  | .tmrMasterSet e _ _ _ => some e
  | .tmrQuery e => some e
  | .tmrAlarm e _ _ _ _ => some e
  | .traceCfg e _ _ _ => some e
  | .dump e _ _ _ _ => some e
  | .sqFetch => none
  | .sqTailDoorbell _ _ => none
  | .cqHeadDoorbell _ _ => none
  | .qp0Enable _ => none
  | .qp0Disable _ => none
  | .evcPendWrite _ _ => none
  | .evcMaskWrite _ _ => none
  | .evcRouteWrite _ _ => none
  | .evcRingSizeWrite _ => none
  | .tmrHoldoverLimitWrite _ => none
  | .powerCapWrite _ _ => none
  | .flowKWrite _ => none
  | .retrain _ _ => none
  | .registerWrite _ _ _ _ => none
  | .registerReadClear _ => none
  | .msixVectorUnmask _ => none
  | .hdmDecoderCommit _ _ _ _ => none
  | .hostMemRead _ _ => none
  | .hostMemWrite _ _ _ => none
  | .getVersion _ => none
  | .getCapabilities _ => none
  | .negotiateAlgorithms _ => none
  | .getDigests _ => none
  | .getCertificate _ _ _ _ => none
  | .challenge _ _ _ => none
  | .getMeasurements _ _ _ _ => none
  | .setEndpointId _ => none
  | .getEndpointId => none
  | .getMctpVersionSupport => none
  | .getMessageTypeSupport => none
  | .sidebandReadRegister _ => none
  | .sidebandReadBootStatus => none
  | .bypass => none
  | .idcode => none
  | .samplePreload => none
  | .extest => none
  | .extestPulse => none
  | .extestTrain => none
  | .clamp => none
  | .highz => none
  | .pwrEnRise => none
  | .pwrEnFall => none
  | .resetNAssert => none
  | .resetNRelease => none
  | .bootStageComplete _ => none
  | .firmwareStart _ => none
  | .ddrZeroFill => none
  | .vinSample _ _ => none
  | .droopTrip _ => none
  | .peakLimiterAdjust => none
  | .sustainedLoopRun _ => none
  | .capFallDutyStep _ => none
  | .opRailSettled => none
  | .keepwarmBeat _ _ => none
  | .mgrTimeoutLapse => none
  | .thermalSample _ _ _ _ => none
  | .thermalThrottleStep => none
  | .flowPulse => none
  | .flowCheck _ _ => none
  | .simmerExit => none
  | .timerTick => none
  | .tickLaunch _ => none
  | .timeMarkerSend => none
  | .timeMarker _ _ _ _ => none
  | .markerMiss => none
  | .holdoverEntry => none
  | .holdoverLimitExpiry => none
  | .markEdge => none
  | .trefLost => none
  | .trefRestored => none
  | .tmrMasterSetTimeout => none
  | .alarmFire _ => none
  | .invocationLaunch _ => none
  | .invocationComplete _ => none
  | .invocationDeadline _ => none
  | .mma _ _ => none
  | .mmaBt _ _ => none
  | .vec1 _ => none
  | .vec2 _ => none
  | .vecacc _ => none
  | .red _ => none
  | .cvt _ => none
  | .emit _ => none
  | .move _ => none
  | .drop _ => none
  | .oneos _ => none
  | .jump _ => none
  | .ldc _ => none
  | .loop _ => none
  | .ticket _ => none
  | .ticketRequest _ _ _ => none
  | .ticketReply _ => none
  | .phase _ => none
  | .eosout _ => none
  | .endStep _ => none
  | .ldb _ _ => none
  | .streamLoop _ _ => none
  | .stride _ _ => none
  | .shape _ _ => none
  | .fmt _ _ => none
  | .gather _ _ => none
  | .wait _ _ => none
  | .signal _ _ => none
  | .run _ _ => none
  | .runIteration _ _ => none
  | .streamJump _ _ => none
  | .endp _ _ => none
  | .tileSend _ _ => none
  | .tileArrival _ _ _ => none
  | .creditReturn _ => none
  | .spillEntry _ => none
  | .spillOut _ => none
  | .spillReturn _ => none
  | .servicePacketReceive _ _ => none
  | .servicePacketRepeat _ => none
  | .treeRebuildAsChain _ _ _ => none
  | .wavefrontSourceSwitch _ => none
  | .coreSwitch _ => none
  | .prefetchEntryStart _ => none
  | .prefetchEntryComplete _ _ => none
  | .shardReadyPoll _ _ => none
  | .shardStart _ _ => none
  | .shardComplete _ _ => none
  | .weightDeadline _ => none
  | .layerOverwriteStart _ => none
  | .layerOverwriteDone _ _ => none
  | .stepCompose _ => none
  | .stepEnd _ => none
  | .requestDeadline _ _ => none
  | .evictionOrRestoreEnd _ => none
  | .routingPointStart _ _ => none
  | .routeWaitExpiry _ _ => none
  | .katRound _ _ _ => none
  | .lbistCoreRun _ _ _ _ => none
  | .sramScrub _ _ _ => none
  | .hbmPatrolScrub _ _ _ _ _ _ => none
  | .hbmRowRepair _ _ _ _ _ => none
  | .ddrPatrolScrub _ _ _ => none
  | .coreRemap _ _ _ => none
  | .lockstepMismatch _ => none
  | .wearMeasure _ _ => none
  | .wearLogWrite => none
  | .laneFailure _ _ => none
  | .farEndIdle _ => none
  | .linkTrainingComplete _ _ _ => none
  | .identityTimeout _ => none
  | .identity _ _ _ _ _ _ => none
  | .acknowledgement _ _ _ _ => none
  | .credit _ _ _ _ _ => none
  | .timeProbe _ _ _ _ _ _ _ => none
  | .ackTimer _ => none
  | .creditFrameTimer _ _ _ => none
  | .packetReceive _ _ _ => none
  | .transitForward => none
  | .writeData => none
  | .readRequest => none
  | .readData => none
  | .collectiveSlice => none
  | .mirrorData => none
  | .openRange => none
  | .openReply => none
  | .endToEndAcknowledgement => none
  | .unreachable => none
  | .transferRetry _ => none
  | .transferDeadline _ => none
  | .vcStall _ _ => none
  | .heldPacketDiscard _ => none
  | .collectiveDeadline _ => none
  | .vinRise _ => none
  | .pwrGoodRise => none
  | .vinRemoval => none
  | .tripLatchRelease => none
  | .adapterRoomDeadline _ _ => none
  | .commandTransferEnd _ => none
  | .selftestComplete _ _ => none
  | .doeDiscovery _ => none
  | .unsupportedRequest _ => none
  | .dynamicAddressAssignment _ => none

/-- OPCODE of a row of Tables 3.9-3.12; 0 for any other row. -/
def opcodeOf : Instr → Nat
  | .nop _ => 0x0101
  | .devQuery _ => 0x0102
  | .qpCreate _ _ _ _ _ _ _ _ => 0x0103
  | .qpDestroy _ _ => 0x0104
  | .fwLoad _ _ _ => 0x0105
  | .journalRead _ _ _ _ => 0x0106
  | .jobOpen _ _ _ _ => 0x0201
  | .jobClose _ _ _ => 0x0202
  | .ctxCreate _ _ _ _ _ _ => 0x0203
  | .ctxDestroy _ _ => 0x0204
  | .ctxEvict _ _ => 0x0205
  | .ctxRestore _ => 0x0206
  | .ctxPin _ _ => 0x0207
  | .memAlloc _ _ _ _ _ => 0x0301
  | .memFree _ _ => 0x0302
  | .memCopy _ _ _ _ => 0x0303
  | .memFill _ _ _ _ => 0x0304
  | .memConvert _ _ _ _ _ => 0x0305
  | .prefetchListSet _ _ _ _ => 0x0306
  | .wgtLoad _ _ _ _ => 0x0401
  | .wgtReplace _ _ _ _ => 0x0402
  | .adapterLoad _ _ _ _ _ => 0x0403
  | .adapterRetire _ _ _ => 0x0404
  | .wgtVerify _ _ => 0x0405
  | .cfgLoad _ _ _ => 0x0501
  | .cfgActivate _ _ => 0x0502
  | .cfgCheck _ _ _ => 0x0503
  | .cfgUnload _ _ => 0x0504
  | .invoke _ _ _ _ _ => 0x0601
  | .invokeList _ _ _ => 0x0602
  | .preempt _ _ => 0x0603
  | .barrier _ _ _ => 0x0604
  | .srvStart _ _ => 0x0701
  | .reqAdmit _ _ _ _ _ => 0x0702
  | .reqCancel _ _ => 0x0703
  | .stepAnswer _ _ _ _ _ => 0x0704
  | .srvPolicy _ _ _ _ _ _ _ => 0x0705
  | .srvStop _ _ => 0x0706
  | .linkTrain _ _ => 0x0801
  | .linkExpectSet _ _ _ _ _ => 0x0802
  | .routeLoad _ _ _ _ => 0x0803
  | .portOwnerSet _ _ _ => 0x0804
  | .linkQuery _ _ => 0x0805
  | .put _ _ _ _ _ => 0x0901
  | .get _ _ _ _ _ => 0x0902
  | .exchange _ _ _ _ => 0x0903
  | .reduceScatter _ _ _ _ => 0x0904
  | .allGather _ _ _ _ => 0x0905
  | .mirrorSet _ _ _ => 0x0906
  | .pwrLimits _ _ _ _ _ _ => 0x0A01
  | .phaseTableSet _ _ _ => 0x0A02
  | .keepwarmSet _ _ _ => 0x0A03
  | .mgrHeartbeat _ _ => 0x0A04
  | .pwrQuery _ => 0x0A05
  | .selftest _ _ => 0x0B01
  | .healthQuery _ _ _ => 0x0B02
  | .repairCommit _ _ => 0x0B03
  | .katCfg _ _ => 0x0B04
  | .scrubCfg _ _ _ => 0x0B05
  | .idQuery _ => 0x0C01
  | .attest _ _ _ _ => 0x0C02
  | .flashRecordRead _ _ _ _ => 0x0C03
  | .tmrMasterSet _ _ _ _ => 0x0D01
  | .tmrQuery _ => 0x0D02
  | .tmrAlarm _ _ _ _ _ => 0x0D03
  | .traceCfg _ _ _ _ => 0x0E01
  | .dump _ _ _ _ _ => 0x0E02
  | .sqFetch => 0
  | .sqTailDoorbell _ _ => 0
  | .cqHeadDoorbell _ _ => 0
  | .qp0Enable _ => 0
  | .qp0Disable _ => 0
  | .evcPendWrite _ _ => 0
  | .evcMaskWrite _ _ => 0
  | .evcRouteWrite _ _ => 0
  | .evcRingSizeWrite _ => 0
  | .tmrHoldoverLimitWrite _ => 0
  | .powerCapWrite _ _ => 0
  | .flowKWrite _ => 0
  | .retrain _ _ => 0
  | .registerWrite _ _ _ _ => 0
  | .registerReadClear _ => 0
  | .msixVectorUnmask _ => 0
  | .hdmDecoderCommit _ _ _ _ => 0
  | .hostMemRead _ _ => 0
  | .hostMemWrite _ _ _ => 0
  | .getVersion _ => 0
  | .getCapabilities _ => 0
  | .negotiateAlgorithms _ => 0
  | .getDigests _ => 0
  | .getCertificate _ _ _ _ => 0
  | .challenge _ _ _ => 0
  | .getMeasurements _ _ _ _ => 0
  | .setEndpointId _ => 0
  | .getEndpointId => 0
  | .getMctpVersionSupport => 0
  | .getMessageTypeSupport => 0
  | .sidebandReadRegister _ => 0
  | .sidebandReadBootStatus => 0
  | .bypass => 0
  | .idcode => 0
  | .samplePreload => 0
  | .extest => 0
  | .extestPulse => 0
  | .extestTrain => 0
  | .clamp => 0
  | .highz => 0
  | .pwrEnRise => 0
  | .pwrEnFall => 0
  | .resetNAssert => 0
  | .resetNRelease => 0
  | .bootStageComplete _ => 0
  | .firmwareStart _ => 0
  | .ddrZeroFill => 0
  | .vinSample _ _ => 0
  | .droopTrip _ => 0
  | .peakLimiterAdjust => 0
  | .sustainedLoopRun _ => 0
  | .capFallDutyStep _ => 0
  | .opRailSettled => 0
  | .keepwarmBeat _ _ => 0
  | .mgrTimeoutLapse => 0
  | .thermalSample _ _ _ _ => 0
  | .thermalThrottleStep => 0
  | .flowPulse => 0
  | .flowCheck _ _ => 0
  | .simmerExit => 0
  | .timerTick => 0
  | .tickLaunch _ => 0
  | .timeMarkerSend => 0
  | .timeMarker _ _ _ _ => 0
  | .markerMiss => 0
  | .holdoverEntry => 0
  | .holdoverLimitExpiry => 0
  | .markEdge => 0
  | .trefLost => 0
  | .trefRestored => 0
  | .tmrMasterSetTimeout => 0
  | .alarmFire _ => 0
  | .invocationLaunch _ => 0
  | .invocationComplete _ => 0
  | .invocationDeadline _ => 0
  | .mma _ _ => 0
  | .mmaBt _ _ => 0
  | .vec1 _ => 0
  | .vec2 _ => 0
  | .vecacc _ => 0
  | .red _ => 0
  | .cvt _ => 0
  | .emit _ => 0
  | .move _ => 0
  | .drop _ => 0
  | .oneos _ => 0
  | .jump _ => 0
  | .ldc _ => 0
  | .loop _ => 0
  | .ticket _ => 0
  | .ticketRequest _ _ _ => 0
  | .ticketReply _ => 0
  | .phase _ => 0
  | .eosout _ => 0
  | .endStep _ => 0
  | .ldb _ _ => 0
  | .streamLoop _ _ => 0
  | .stride _ _ => 0
  | .shape _ _ => 0
  | .fmt _ _ => 0
  | .gather _ _ => 0
  | .wait _ _ => 0
  | .signal _ _ => 0
  | .run _ _ => 0
  | .runIteration _ _ => 0
  | .streamJump _ _ => 0
  | .endp _ _ => 0
  | .tileSend _ _ => 0
  | .tileArrival _ _ _ => 0
  | .creditReturn _ => 0
  | .spillEntry _ => 0
  | .spillOut _ => 0
  | .spillReturn _ => 0
  | .servicePacketReceive _ _ => 0
  | .servicePacketRepeat _ => 0
  | .treeRebuildAsChain _ _ _ => 0
  | .wavefrontSourceSwitch _ => 0
  | .coreSwitch _ => 0
  | .prefetchEntryStart _ => 0
  | .prefetchEntryComplete _ _ => 0
  | .shardReadyPoll _ _ => 0
  | .shardStart _ _ => 0
  | .shardComplete _ _ => 0
  | .weightDeadline _ => 0
  | .layerOverwriteStart _ => 0
  | .layerOverwriteDone _ _ => 0
  | .stepCompose _ => 0
  | .stepEnd _ => 0
  | .requestDeadline _ _ => 0
  | .evictionOrRestoreEnd _ => 0
  | .routingPointStart _ _ => 0
  | .routeWaitExpiry _ _ => 0
  | .katRound _ _ _ => 0
  | .lbistCoreRun _ _ _ _ => 0
  | .sramScrub _ _ _ => 0
  | .hbmPatrolScrub _ _ _ _ _ _ => 0
  | .hbmRowRepair _ _ _ _ _ => 0
  | .ddrPatrolScrub _ _ _ => 0
  | .coreRemap _ _ _ => 0
  | .lockstepMismatch _ => 0
  | .wearMeasure _ _ => 0
  | .wearLogWrite => 0
  | .laneFailure _ _ => 0
  | .farEndIdle _ => 0
  | .linkTrainingComplete _ _ _ => 0
  | .identityTimeout _ => 0
  | .identity _ _ _ _ _ _ => 0
  | .acknowledgement _ _ _ _ => 0
  | .credit _ _ _ _ _ => 0
  | .timeProbe _ _ _ _ _ _ _ => 0
  | .ackTimer _ => 0
  | .creditFrameTimer _ _ _ => 0
  | .packetReceive _ _ _ => 0
  | .transitForward => 0
  | .writeData => 0
  | .readRequest => 0
  | .readData => 0
  | .collectiveSlice => 0
  | .mirrorData => 0
  | .openRange => 0
  | .openReply => 0
  | .endToEndAcknowledgement => 0
  | .unreachable => 0
  | .transferRetry _ => 0
  | .transferDeadline _ => 0
  | .vcStall _ _ => 0
  | .heldPacketDiscard _ => 0
  | .collectiveDeadline _ => 0
  | .vinRise _ => 0
  | .pwrGoodRise => 0
  | .vinRemoval => 0
  | .tripLatchRelease => 0
  | .adapterRoomDeadline _ _ => 0
  | .commandTransferEnd _ => 0
  | .selftestComplete _ _ => 0
  | .doeDiscovery _ => 0
  | .unsupportedRequest _ => 0
  | .dynamicAddressAssignment _ => 0

/-- The Ctx column (R47). -/
inductive CtxCol where
  | none | req | opt
  deriving DecidableEq, Repr

def ctxCol (opcode : Nat) : CtxCol :=
  if [0x0204, 0x0205, 0x0206, 0x0207, 0x0306, 0x0401, 0x0402, 0x0403, 0x0404, 0x0405, 0x0501, 0x0502, 0x0503, 0x0504, 0x0601, 0x0603, 0x0701, 0x0702, 0x0703, 0x0704, 0x0705, 0x0706, 0x0906].contains opcode then .req
  else if [0x0303, 0x0304, 0x0305, 0x0901, 0x0902, 0x0903, 0x0904, 0x0905, 0x0E02].contains opcode then .opt
  else .none

/-- Minimum lead in ticks of the tick-launched opcodes (Table 2.4); none for the others. -/
def minLead : Nat → Option Nat
  | 0x0402 => some 1000
  | 0x0502 => some 500
  | 0x0601 => some 200
  | 0x0602 => some 200
  | 0x0604 => some 100
  | 0x0901 => some 500
  | 0x0902 => some 500
  | 0x0903 => some 1000
  | 0x0904 => some 1000
  | 0x0905 => some 1000
  | 0x0A01 => some 100
  | 0x0A02 => some 100
  | 0x0A03 => some 100
  | _ => Option.none

/-- The commands the ROM answers at stage 8 (14_boot_and_identity.md R342). -/
def romAnswers (opcode : Nat) : Bool :=
  [0x0101, 0x0102, 0x0105, 0x0106, 0x0B02, 0x0C01, 0x0C02, 0x0C03].contains opcode

/-- The parameters of a packet (bytes 16-63 of the entry) by opcode: whether its reserved bytes and bits are zero, and
the command they spell; none for an undefined opcode. -/
def packetParams (bs : List Byte) (opcode : Nat) : Bool × Option (Env → Instr) :=
  let u := fun (w off n : Nat) => BitVec.ofNat w (fieldAt bs off n)
  let b := fun (off i : Nat) => bit (fieldAt bs off 1) i
  let z := fun (off n : Nat) => allZero (slice bs off n)
  let m := fun (off mask : Nat) => fieldAt bs off 1 &&& mask == 0
  match opcode with
  | 0x0101 => (z 16 48, some fun e => .nop e)
  | 0x0102 => (z 16 48, some fun e => .devQuery e)
  | 0x0103 => (z 42 22 && m 40 0x40, some fun e => .qpCreate e (u 64 16 8) (u 64 24 8) (u 32 32 4) (u 32 36 4) (u 6 40 1) (b 40 7) (u 8 41 1))
  | 0x0104 => (z 18 46, some fun e => .qpDestroy e (u 16 16 2))
  | 0x0105 => (z 28 36, some fun e => .fwLoad e (u 64 16 8) (u 32 24 4))
  | 0x0106 => (z 32 32, some fun e => .journalRead e (u 64 16 8) (u 32 24 4) (u 32 28 4))
  | 0x0201 => (z 28 36, some fun e => .jobOpen e (u 64 16 8) (u 16 24 2) (u 16 26 2))
  | 0x0202 => (z 18 46 && m 17 0xFE, some fun e => .jobClose e (u 8 16 1) (b 17 0))
  | 0x0203 => (z 17 7 && z 35 29 && m 34 0xFC, some fun e => .ctxCreate e (u 8 16 1) (u 64 24 8) (u 16 32 2) (b 34 0) (b 34 1))
  | 0x0204 => (z 17 47 && m 16 0xFE, some fun e => .ctxDestroy e (b 16 0))
  | 0x0205 => (z 17 47, some fun e => .ctxEvict e (u 8 16 1))
  | 0x0206 => (z 16 48, some fun e => .ctxRestore e)
  | 0x0207 => (z 17 47, some fun e => .ctxPin e (u 8 16 1))
  | 0x0301 => (z 27 37, some fun e => .memAlloc e (u 64 16 8) (u 8 24 1) (u 8 25 1) (u 8 26 1))
  | 0x0302 => (z 24 40, some fun e => .memFree e (u 64 16 8))
  | 0x0303 => (z 40 24, some fun e => .memCopy e (u 64 16 8) (u 64 24 8) (u 64 32 8))
  | 0x0304 => (z 40 24, some fun e => .memFill e (u 64 16 8) (u 64 24 8) (u 64 32 8))
  | 0x0305 => (z 48 16 && m 41 0x80 && m 42 0x80, some fun e => .memConvert e (u 64 16 8) (u 64 24 8) (u 64 32 8) (u 64 40 8))
  | 0x0306 => (z 29 35 && m 28 0xFE, some fun e => .prefetchListSet e (u 64 16 8) (u 32 24 4) (b 28 0))
  | 0x0401 => (z 40 24, some fun e => .wgtLoad e (u 64 16 8) (u 64 24 8) (u 64 32 8))
  | 0x0402 => (z 25 7 && z 40 24 && m 24 0xFE, some fun e => .wgtReplace e (u 64 16 8) (b 24 0) (u 64 32 8))
  | 0x0403 => (z 40 24, some fun e => .adapterLoad e (u 64 16 8) (u 32 24 4) (u 32 28 4) (u 64 32 8))
  | 0x0404 => (z 16 8 && z 32 32, some fun e => .adapterRetire e (u 32 24 4) (u 32 28 4))
  | 0x0405 => (z 16 8 && z 32 32, some fun e => .wgtVerify e (u 64 24 8))
  | 0x0501 => (z 28 36, some fun e => .cfgLoad e (u 64 16 8) (u 32 24 4))
  | 0x0502 => (z 18 46, some fun e => .cfgActivate e (u 16 16 2))
  | 0x0503 => (z 28 36, some fun e => .cfgCheck e (u 64 16 8) (u 32 24 4))
  | 0x0504 => (z 18 46, some fun e => .cfgUnload e (u 16 16 2))
  | 0x0601 => (z 18 6 && z 48 16, some fun e => .invoke e (u 16 16 2) (u 64 24 8) (u 64 32 8) (u 64 40 8))
  | 0x0602 => (z 28 36, some fun e => .invokeList e (u 64 16 8) (u 32 24 4))
  | 0x0603 => (z 17 47 && m 16 0xFE, some fun e => .preempt e (b 16 0))
  | 0x0604 => (z 20 44, some fun e => .barrier e (u 16 16 2) (u 16 18 2))
  | 0x0701 => (z 24 40, some fun e => .srvStart e (u 64 16 8))
  | 0x0702 => (z 37 27 && m 36 0xFE, some fun e => .reqAdmit e (u 64 16 8) (u 64 24 8) (u 32 32 4) (b 36 0))
  | 0x0703 => (z 20 44, some fun e => .reqCancel e (u 32 16 4))
  | 0x0704 => (z 36 28, some fun e => .stepAnswer e (u 32 16 4) (u 32 20 4) (u 64 24 8) (u 32 32 4))
  | 0x0705 => (z 24 40, some fun e => .srvPolicy e (u 16 16 2) (u 8 18 1) (u 8 19 1) (u 8 20 1) (u 8 21 1) (u 16 22 2))
  | 0x0706 => (z 17 47 && m 16 0xFE, some fun e => .srvStop e (b 16 0))
  | 0x0801 => (z 18 46 && m 17 0xF0, some fun e => .linkTrain e (u 16 16 2))
  | 0x0802 => (z 17 1 && z 21 3 && z 32 32 && m 19 0xF0, some fun e => .linkExpectSet e (u 8 16 1) (u 12 18 2) (u 8 20 1) (u 64 24 8))
  | 0x0803 => (z 29 35, some fun e => .routeLoad e (u 64 16 8) (u 32 24 4) (u 8 28 1))
  | 0x0804 => (z 18 46, some fun e => .portOwnerSet e (u 8 16 1) (u 8 17 1))
  | 0x0805 => (z 17 47, some fun e => .linkQuery e (u 8 16 1))
  | 0x0901 => (z 48 16, some fun e => .put e (u 64 16 8) (u 64 24 8) (u 64 32 8) (u 64 40 8))
  | 0x0902 => (z 48 16, some fun e => .get e (u 64 16 8) (u 64 24 8) (u 64 32 8) (u 64 40 8))
  | 0x0903 => (z 34 30, some fun e => .exchange e (u 64 16 8) (u 64 24 8) (u 16 32 2))
  | 0x0904 => (z 34 30, some fun e => .reduceScatter e (u 64 16 8) (u 64 24 8) (u 16 32 2))
  | 0x0905 => (z 34 30, some fun e => .allGather e (u 64 16 8) (u 64 24 8) (u 16 32 2))
  | 0x0906 => (z 19 45 && m 17 0xF0 && m 18 0xFE, some fun e => .mirrorSet e (u 12 16 2) (b 18 0))
  | 0x0A01 => (z 36 28, some fun e => .pwrLimits e (u 32 16 4) (u 32 20 4) (u 32 24 4) (u 32 28 4) (u 32 32 4))
  | 0x0A02 => (z 25 39, some fun e => .phaseTableSet e (u 64 16 8) (u 8 24 1))
  | 0x0A03 => (z 24 40, some fun e => .keepwarmSet e (u 32 16 4) (u 32 20 4))
  | 0x0A04 => (z 20 44, some fun e => .mgrHeartbeat e (u 32 16 4))
  | 0x0A05 => (z 16 48, some fun e => .pwrQuery e)
  | 0x0B01 => (z 17 47 && m 16 0xF8, some fun e => .selftest e (u 8 16 1))
  | 0x0B02 => (z 28 36, some fun e => .healthQuery e (u 64 16 8) (u 32 24 4))
  | 0x0B03 => (z 17 47 && m 16 0xFE, some fun e => .repairCommit e (b 16 0))
  | 0x0B04 => (z 20 44, some fun e => .katCfg e (u 32 16 4))
  | 0x0B05 => (z 24 40, some fun e => .scrubCfg e (u 32 16 4) (u 32 20 4))
  | 0x0C01 => (z 16 48, some fun e => .idQuery e)
  | 0x0C02 => (z 28 4, some fun e => .attest e (u 64 16 8) (u 32 24 4) (u 256 32 32))
  | 0x0C03 => (z 17 7 && z 36 28, some fun e => .flashRecordRead e (u 8 16 1) (u 64 24 8) (u 32 32 4))
  | 0x0D01 => (z 17 1 && z 20 4 && z 32 32 && m 19 0xF0, some fun e => .tmrMasterSet e (u 8 16 1) (u 12 18 2) (u 64 24 8))
  | 0x0D02 => (z 16 48, some fun e => .tmrQuery e)
  | 0x0D03 => (z 18 6 && z 40 24, some fun e => .tmrAlarm e (u 8 16 1) (u 8 17 1) (u 64 24 8) (u 64 32 8))
  | 0x0E01 => (z 32 32, some fun e => .traceCfg e (u 64 16 8) (u 32 24 4) (u 32 28 4))
  | 0x0E02 => (z 29 3 && z 36 28, some fun e => .dump e (u 64 16 8) (u 32 24 4) (u 8 28 1) (u 32 32 4))
  | _ => (true, Option.none)

/-- The header of a packet fetched from queue `q` (Table 3.6), given whether its parameters respect R6. -/
def packetEnv (q : Nat) (bs : List Byte) (paramsOk : Bool) : Env :=
  let fl := fieldAt bs 2 1
  { q := BitVec.ofNat 16 q
    rsv := !(fl / 32 == 0 && fieldAt bs 3 1 == 0 && fieldAt bs 4 2 / 1024 == 0 && paramsOk)
    fence := bit fl 0, atTick := bit fl 1, lateRun := bit fl 2, notify := bit fl 3, chain := bit fl 4
    ctx := BitVec.ofNat 10 (fieldAt bs 4 2), tag := BitVec.ofNat 16 (fieldAt bs 6 2)
    launch := BitVec.ofNat 64 (fieldAt bs 8 8) }

/-- The command an SQ entry spells; none when its opcode is not defined (R49 stage 1). -/
def decodePacket (q : Nat) (bs : List Byte) : Env × Option Instr :=
  let (ok, f) := packetParams bs (fieldAt bs 0 2)
  let e := packetEnv q bs ok
  (e, f.map fun g => g e)

end Sys2Proof.Machine
end

