-- ==== Sys2Proof/Machine/Operands.lean ====
section
/-! DEFINITION. Operand forms of commands: context addresses and GAs (03_commands_and_events.md R48; 07 R164-R166). -/

namespace Sys2Proof.Machine

/-- Core field that names the accessing core's own SRAM (R165). -/
def ownCoreField : Nat := 0x3FFFFFFF

/-- A region whose target is the accessing core's own SRAM (R165). -/
def Region.ownCore (r : Region) : Bool := spaceOf r.target == 2 && offOf r.target / 2 ^ 18 == ownCoreField

def State.ctx? (s : State) (id : Nat) : Option Ctx := s.ctxs.find? fun c => c.id == id

/-- Replace a context. -/
def State.setCtx (s : State) (c : Ctx) : State :=
  { s with ctxs := s.ctxs.map fun d => if d.id == c.id then c else d }

def State.modCtx (s : State) (id : Nat) (f : Ctx → Ctx) : State :=
  { s with ctxs := s.ctxs.map fun d => if d.id == id then f d else d }

def State.job? (s : State) (n : Nat) : Option Job := s.jobs.find? fun j => j.num == n

/-- The region a context address lies in. -/
def Ctx.region? (c : Ctx) (a : Nat) : Option Region :=
  c.regions.find? fun r => r.cbase ≤ a && a < r.cbase + r.length

/-- The key of a range of context addresses: wholly inside one region that carries the rights (R166); own-core regions
have no key outside a core. -/
def Ctx.translate (c : Ctx) (a len : Nat) (rd wr : Bool) : Option Nat :=
  match c.region? a with
  | some r =>
    if a + len ≤ r.cbase + r.length && (!rd || r.read) && (!wr || r.write) && !r.ownCore then
      some (r.target + (a - r.cbase)) else none
  | none => none

/-- The key of a GA range a command names (R48, R158): this module's chip number, a space commands may name, no hole;
flash as a source only. -/
def State.gaRange (s : State) (ga len : Nat) (wr : Bool) : Option Nat :=
  let k := keyOf ga
  if s.ownGa ga && s.rangeOk k len && [0, 1, 2, 3, 5].contains (spaceOf k) && !(wr && spaceOf k == 5) then some k
  else none

/-- The key a command reaches at a range of context addresses: one that `Ctx.translate` gives; in SRAM every core of it is one
the grid presents, which a retirement since CTX_CREATE may have changed (01_module_overview.md R11; log 133). -/
def State.translate (s : State) (c : Ctx) (a len : Nat) (rd wr : Bool) : Option Nat :=
  (c.translate a len rd wr).filter fun k => spaceOf k != 2 || s.rangeOk k len

/-- The key of an address parameter (R48): a context address when the command names a context, else a GA. -/
def State.addr (s : State) (e : Env) (a len : Nat) (rd wr : Bool) : Option Nat :=
  if e.ctx = 0x3FF then s.gaRange a len wr
  else match s.ctx? e.ctx.toNat with
    | some c => s.translate c a len rd wr
    | none => none

/-- The key of a GA range that a fetched command holds: by space and offset, whatever chip number the module has taken since
(11_links_and_systems.md R260). -/
def State.gaHeld (s : State) (ga len : Nat) (wr : Bool) : Option Nat :=
  let k := keyOf ga
  if s.rangeOk k len && [0, 1, 2, 3, 5].contains (spaceOf k) && !(wr && spaceOf k == 5) then some k else none

/-- The key of an address parameter of a command that has been fetched. -/
def State.heldAddr (s : State) (e : Env) (a len : Nat) (rd wr : Bool) : Option Nat :=
  if e.ctx = 0x3FF then s.gaHeld a len wr
  else match s.ctx? e.ctx.toNat with
    | some c => s.translate c a len rd wr
    | none => none

/-- First failure of a list of checks, in order (R49). -/
def firstFail : List (Bool × Status) → Option Status
  | [] => none
  | (ok, st) :: rest => if ok then firstFail rest else some st

/-- A pointer to a descriptor, table, list or manifest (R48): 64-byte aligned, then addressable for reading. -/
def State.ptrChecks (s : State) (e : Env) (a len : Nat) : List (Bool × Status) :=
  [(a % 64 == 0, .badAlign), ((s.addr e a len true false).isSome, .badParam)]

/-- The key an address parameter has, once its checks passed. -/
def State.keyAt (s : State) (e : Env) (a len : Nat) (rd wr : Bool) : Nat := (s.heldAddr e a len rd wr).getD 0

/-- The address parameters of a command (R48): address, length, and the rights it needs there. -/
def addrsOf : Instr → List (Nat × Nat × Bool × Bool)
  | .fwLoad _ a n => [(a.toNat, n.toNat, true, false)]
  | .jobOpen _ a _ n => [(a.toNat, n.toNat, true, false)]
  | .ctxCreate _ _ a n _ _ => [(a.toNat, 32 * n.toNat, true, false)]
  | .memCopy _ a b n => [(a.toNat, n.toNat, true, false), (b.toNat, n.toNat, false, true)]
  | .memFill _ a n _ => [(a.toNat, n.toNat, false, true)]
  | .memConvert _ a b n _ => [(a.toNat, n.toNat, true, false), (b.toNat, 1, false, true)]
  | .prefetchListSet _ a n _ => [(a.toNat, 64 * n.toNat, true, false)]
  | .wgtLoad _ a b _ => [(a.toNat, 64, true, false), (b.toNat, if b = 0 then 0 else 1, true, false)]
  | .wgtReplace _ a _ _ => [(a.toNat, 64, true, false)]
  | .adapterLoad _ a _ _ _ => [(a.toNat, 64, true, false)]
  | .wgtVerify _ b => [(b.toNat, if b = 0 then 0 else 1, true, false)]
  | .cfgLoad _ a n => [(a.toNat, n.toNat, true, false)]
  | .cfgCheck _ a n => [(a.toNat, n.toNat, true, false)]
  | .invokeList _ a n => [(a.toNat, 64 * n.toNat, true, true)]
  | .srvStart _ a => [(a.toNat, 192, true, false)]
  | .reqAdmit _ a _ _ _ => [(a.toNat, 64, true, false)]
  | .stepAnswer _ _ _ a n => [(a.toNat, n.toNat, true, false)]
  | .routeLoad _ a n _ => [(a.toNat, 16 * n.toNat, true, false)]
  | .put _ a _ n _ => [(a.toNat, n.toNat, true, false)]
  | .get _ _ b n _ => [(b.toNat, n.toNat, false, true)]
  | .exchange _ a _ _ => [(a.toNat, 64, true, false)]
  | .reduceScatter _ a _ _ => [(a.toNat, 64, true, false)]
  | .allGather _ a _ _ => [(a.toNat, 64, true, false)]
  | .phaseTableSet _ a n => [(a.toNat, 8 * n.toNat, true, false)]
  | .healthQuery _ a n => [(a.toNat, n.toNat, false, true)]
  | .attest _ a n _ => [(a.toNat, n.toNat, false, true)]
  | .flashRecordRead _ _ a n => [(a.toNat, n.toNat, false, true)]
  | .dump _ a n _ _ => [(a.toNat, n.toNat, false, true)]
  | _ => []

/-- Every address parameter of a command that starts still has its key: a core that a retirement took away since the fetch
has none (01_module_overview.md R11; log 133). -/
def State.addrsHeld (s : State) (i : Instr) : Bool :=
  (envOf i).all fun e => (addrsOf i).all fun x => x.2.1 == 0 || (s.heldAddr e x.1 x.2.1 x.2.2.1 x.2.2.2).isSome

/-- A live allocation that holds a whole range. -/
def Memory.allocOf (m : Memory) (k len : Nat) : Option Alloc :=
  m.allocs.find? fun a => a.base ≤ k && k + len ≤ a.base + a.len

/-- Two ranges share a byte. -/
def overlaps (a la b lb : Nat) : Bool := a < b + lb && b < a + la && 0 < la && 0 < lb

end Sys2Proof.Machine
end

