-- ==== Sys2Proof/Machine/Queue.lean ====
section
/-! DEFINITION. The command plane (03_commands_and_events.md R38-R59): fetch checks, order of start, completion. -/

namespace Sys2Proof.Machine

def State.pair? (s : State) (q : Nat) : Option QPair := s.q.pairs.find? fun p => p.id == q

def State.modPair (s : State) (q : Nat) (f : QPair → QPair) : State :=
  { s with q := { s.q with pairs := s.q.pairs.map fun p => if p.id == q then f p else p } }

def State.rec? (s : State) (id : Nat) : Option CmdRec := s.q.recs.find? fun r => r.id == id

def State.modRec (s : State) (id : Nat) (f : CmdRec → CmdRec) : State :=
  { s with q := { s.q with recs := s.q.recs.map fun r => if r.id == id then f r else r } }

/-- Commands of a queue that are fetched and whose CQ entry is not written, in SQ order. -/
def State.recsOf (s : State) (q : Nat) : List CmdRec := s.q.recs.filter fun r => r.env.q.toNat == q

def CmdRec.isDone (r : CmdRec) : Bool :=
  match r.phase with
  | .done _ _ _ => true
  | _ => false

/-- Queue pairs bound to a job (R210). -/
def State.boundPairs (s : State) (j : Nat) : Nat := (s.q.pairs.filter fun p => p.enable && p.job == j).length

/-- Depth of a queue from its log2 field. -/
def QPair.cqDepth (p : QPair) : Nat := 2 ^ p.cqLog2
def QPair.sqDepth (p : QPair) : Nat := 2 ^ p.sqLog2

/-- Free entries of a CQ (R42). -/
def QPair.cqFree (p : QPair) : Nat :=
  p.cqDepth - 1 - (p.cqTail + p.cqDepth - p.cqHead % p.cqDepth) % p.cqDepth

/-- A queue pair goes into error (R44): the kind 0x0002 record goes to the bound job's source or to the safety source. -/
def State.pairError (s : State) (q code value : Nat) : State :=
  match s.pair? q with
  | some p =>
    if p.error then s else
    let src := if p.job < 16 then srcJob p.job else srcSafety
    (s.modPair q fun p => { p with error := true, errCode := code }).event src 0x0002
      (leBytes 2 q ++ leBytes 1 code ++ zeros 1 ++ leBytes 4 value)
  | none => s

/-! ### Completion -/

/-- The 32 bytes of a CQ entry (Table 3.7). -/
def cqBytes (tag status : Nat) (phase : Bool) (sqHead tick : Nat) (result : List Byte) : List Byte :=
  leBytes 2 tag ++ leBytes 2 status ++ leBytes 1 (if phase then 1 else 0) ++ zeros 1 ++ leBytes 2 sqHead ++
    leBytes 8 tick ++ padTo 16 result

/-- Write one CQ entry at CQ_TAIL (R42, R46), then its message (R53). A write that fails puts the pair in error, code 3:
a CQ on another module, outside its space, or in host memory that fails the write. One that a failed HBM stack drops has
not failed (log 87). -/
def State.writeCq (s : State) (q : Nat) (e : Env) (st : Status) (result : List Byte) (tick : Nat) : State :=
  match s.pair? q with
  | some p =>
    let k := keyOf (p.cqBase.toNat + 32 * p.cqTail)
    if p.cqOwn && s.rangeOk k 32 && [0, 1, 3].contains (spaceOf k) then
      let s0 := s.writeBytes k (cqBytes e.tag.toNat st.code p.phase p.sqHead tick result)
      if s.mem.hostRefuses k 32 then s0.pairError q 3 0
      else
        let tail := (p.cqTail + 1) % p.cqDepth
        let s1 := s0.modPair q fun p => { p with cqTail := tail, phase := if tail == 0 then !p.phase else p.phase }
        if p.vecEn && (e.notify || !st.success) then s1.msix p.vector else s1
    else s.pairError q 3 0
  | none => s

/-- IMAGE_VERSION of a firmware image whose header was read (14_boot_and_identity.md Table 14.6, R343); 0 otherwise. -/
def State.fwImageVersion (s : State) (image len : Nat) : Nat :=
  if 512 ≤ len && len ≤ 64 * 2 ^ 20 && image % 64 == 0 then
    match s.gaHeld image len false with
    | some k => s.readNat (k + 8) 4
    | none => 0
  else 0

/-- Detail bytes of a command's journal record (Table 3.14); none for a command that is not journaled. -/
def State.journalDetail (s : State) (i : Instr) (st : Status) (result : List Byte) : Option (List Byte) :=
  let repair := leBytes 2 s.grid.retiredAll ++ leBytes 1 (gradeOf s.grid.retiredAll)
  match i with
  | .qpCreate .. => some (slice result 0 2)
  | .qpDestroy _ qid => some (leBytes 2 qid.toNat)
  | .jobOpen .. => some (if st.success then slice result 0 1 else [])
  | .jobClose _ job _ => some [job]
  | .linkExpectSet _ port _ _ _ => some [port]
  | .portOwnerSet _ port owner => some [port, owner]
  | .routeLoad _ _ n sl => some (sl :: 0 :: leBytes 4 n.toNat)
  | .pwrLimits .. => some (leBytes 4 s.pwr.sustainCap)
  | .phaseTableSet .. => some (leBytes 4 s.pwr.sustainCap)
  | .keepwarmSet _ floor _ => some (leBytes 4 floor.toNat)
  | .repairCommit .. => some repair
  | .selftest .. => some repair
  | .katCfg .. => some repair
  | .scrubCfg .. => some repair
  | .fwLoad _ image len => some (if st = .fwRejected then leBytes 4 (s.fwImageVersion image.toNat len.toNat) else slice result 0 4)
  | .tmrMasterSet _ role master _ => some (leBytes 1 role.toNat ++ leBytes 2 master.toNat)
  | _ => none

/-- Commands that are linked behind record `id` of queue `q` by CHAIN, in order, up to the end of the chain. -/
def chainAfter (q : Nat) : List CmdRec → List CmdRec
  | [] => []
  | r :: rs => if r.env.q.toNat == q then (if r.chained then r :: (if r.env.chain then chainAfter q rs else []) else [])
               else chainAfter q rs

/-- A status with which a command's CQ entry carries result bytes (R46, Table 3.7): the success group, CHECK_FAILED, and
those with which the command's own chapter names a result: the shard statuses of a weight command (08_weights.md R190, R192),
DEADLINE and LINK_DOWN of a transfer (11_links_and_systems.md R276, R279). -/
def Status.carries (st : Status) (i : Instr) : Bool :=
  st.success || st == .checkFailed || match i with
  | .wgtLoad .. | .wgtReplace .. | .wgtVerify .. | .adapterLoad .. => st == .shardCorrupt || st == .shardMissing
  | .put .. | .get .. => st == .deadline || st == .linkDown
  | _ => false

/-- One command completes: the journal record, then the record is done (R46, R58). -/
def State.markDone (s : State) (id : Nat) (st : Status) (result : List Byte) : State :=
  match s.rec? id with
  | some r =>
    let st' := if r.late && st.success then st.join .okLate else st
    let s1 := match s.journalDetail r.cmd st' result with
      | some d => s.journal (opcodeOf r.cmd) r.env.q.toNat st'.code d
      | none => s
    let s2 := s1.modRec id fun r => { r with phase := .done st' (padTo 16 (if st'.carries r.cmd then result else [])) s.now, xfer := none }
    s2.trace 1 r.env.q.toNat (leBytes 2 (opcodeOf r.cmd) ++ leBytes 2 r.env.tag.toNat ++ leBytes 2 st'.code)
  | none => s

/-- What its chain makes of a command that completed outside the success group (R52): every later member that the module
has fetched, and that has not completed, completes CANCELLED, and the pair remembers it for members still to come. -/
def State.cancelChain (s : State) (id : Nat) (st : Status) : State :=
  match s.rec? id with
  | some r =>
    if st.success || !r.env.chain then s else
    let q := r.env.q.toNat
    let later := chainAfter q ((s.q.recs.dropWhile fun x => x.id != id).drop 1)
    let s1 := (later.filter fun x => !x.isDone).foldl (fun s x => s.markDone x.id .cancelled []) s
    let open_ := match later.getLast? with
      | some x => x.env.chain
      | none => true
    if open_ then s1.modPair q fun p => { p with chainFailed := true } else s1
  | none => s

/-- A completed command and what its chain makes of it. -/
def State.markChain (s : State) (id : Nat) (st : Status) (result : List Byte) : State :=
  (s.markDone id st result).cancelChain id st

/-- The command has completed. -/
def State.doneRec (s : State) (id : Nat) : Bool := (s.rec? id).any (·.isDone)

/-- The first queue whose oldest command is done. -/
def State.readyCq (s : State) : Option CmdRec :=
  s.q.recs.find? fun r => r.isDone && ((s.recsOf r.env.q.toNat).head?.map (·.id)) == some r.id

/-- A pair under QP_DESTROY with no command left (R55). -/
def State.closedPair (s : State) : Option (Nat × Nat) :=
  s.q.pairs.findSome? fun p => match p.closing with
    | some rid => if (s.recsOf p.id).isEmpty then some (p.id, rid) else none
    | none => none

/-- Write CQ entries in SQ order while the oldest command of a queue is done (R50), and end QP_DESTROYs. -/
def State.settle : Nat → State → State
  | 0, s => s
  | fuel + 1, s =>
    match s.readyCq with
    | some r =>
      match r.phase with
      | .done st res tick =>
        let s1 := { s with q := { s.q with recs := s.q.recs.filter fun x => x.id != r.id } }
        State.settle fuel (s1.writeCq r.env.q.toNat r.env st res tick)
      | _ => s
    | none =>
      match s.closedPair with
      | some (q, rid) =>
        let s1 := { s with q := { s.q with pairs := s.q.pairs.filter fun p => p.id != q } }
        State.settle fuel (s1.markChain rid .ok [])
      | none =>
        -- ENABLE of pair 0 cleared and its entries written: SQ_HEAD and CQ_TAIL return to zero (R39)
        if (s.recsOf 0).isEmpty then
          s.modPair 0 fun p => if p.enable then p else { p with sqHead := 0, cqTail := 0 }
        else s

/-- Enough turns for every command and pair. -/
def State.settled (s : State) : State := s.settle (2 * (s.q.recs.length + s.q.pairs.length) + 2)

/-- A command completes: journal, chain, CQ entries in SQ order. -/
def State.finish (s : State) (id : Nat) (st : Status) (result : List Byte := []) : State :=
  (s.markChain id st result).settled

/-- Several commands complete together, in the order given, each once with its own status; only then do their chains cancel
the members that are left (R52; log 118). -/
def State.finishAll (s : State) (done : List (Nat × Status × List Byte)) : State :=
  let s1 := done.foldl (fun s d => if s.doneRec d.1 then s else s.markDone d.1 d.2.1 d.2.2) s
  (done.foldl (fun s d => s.cancelChain d.1 d.2.1) s1).settled

/-- Result bytes of a check that failed (Table 3.13): the code in bytes 16-17, the item index in 20-23. -/
def checkResult (code item : Nat) : List Byte := leBytes 2 code ++ zeros 2 ++ leBytes 4 item

/-! ### Fetch -/

/-- Stages 1 to 5 of Table 3.8 for a defined opcode; `chk` is stage 4 (and any time check of the opcode's own). -/
def State.fetchStatus (s : State) (op : Nat) (e : Env) (chk : Option Status) : Option Status :=
  let launch := e.launch.toNat
  let ctxOk := match ctxCol op with
    | .none => e.ctx == 0x3FF
    | .req => e.ctx != 0x3FF && (s.ctx? e.ctx.toNat).isSome
    | .opt => e.ctx == 0x3FF || (s.ctx? e.ctx.toNat).isSome
  match firstFail [
      (!e.rsv, .badParam),
      (e.atTick || launch == 0, .badParam),
      (!e.atTick || (minLead op).isSome, .badParam),
      (launch ≤ s.now + 2 ^ 36, .badParam),
      (e.atTick || !e.lateRun, .badParam),
      (ctxOk, .badContext)] with
  | some st => some st
  | none =>
    match chk with
    | some st => some st
    | none =>
      if e.atTick && s.tmr.lock == .unlocked then some .timeUnlocked
      else if e.atTick && launch < s.now + (minLead op).getD 0 && !e.lateRun then some .timePast
      else none

/-- The pair can take one more command (R41-R44, R342). -/
def State.canFetch (s : State) (q : Nat) : Bool :=
  s.working && (8 ≤ s.boot.stage) &&
  match s.pair? q with
  | some p => p.enable && !p.error && p.closing.isNone && (s.recsOf q).length < p.cqFree
  | none => false

/-- A command enters: it becomes a record of its queue and completes at once if a check of stages 1 to 5 fails, or if a
member of its chain failed before (R52). Accepted with AT_TICK it waits for its tick, unless it is already late with
LATE_RUN set (R31). -/
def State.takeIn (s : State) (i : Instr) (e : Env) (refused : Option Status) : State :=
  let q := e.q.toNat
  match s.pair? q with
  | none => s
  | some p =>
    let late := e.atTick && e.launch.toNat < s.now + (minLead (opcodeOf i)).getD 0
    let bound := if e.ctx = 0x3FF then none else (s.ctx? e.ctx.toNat).map (·.uid)
    let alloc := match i with
      | .memFree _ ga => ((s.mem.allocs.find? fun a => a.base == keyOf ga.toNat)).map (·.uid)
      | _ => none
    let r : CmdRec := { id := s.q.nextRec, cmd := i, env := e, bound, alloc, chained := p.chainOpen,
                        late := late && refused.isNone, launched := false,
                        phase := if e.atTick && !late then .waiting else .fetched, xfer := none }
    let failed := p.chainOpen && p.chainFailed
    let s1 := { s with q := { s.q with recs := s.q.recs ++ [r], nextRec := s.q.nextRec + 1 } }
    let s2 := s1.modPair q fun p => { p with chainOpen := e.chain, chainFailed := false }
    if failed then s2.finish r.id .cancelled
    else match refused with
      | some st => s2.finish r.id st
      | none => s2

/-! ### Start -/

/-- The command before a record in its SQ, when its CQ entry is not yet written. -/
def State.predecessor (s : State) (r : CmdRec) : Option CmdRec :=
  ((s.recsOf r.env.q.toNat).takeWhile fun x => x.id != r.id).getLast?

/-- A later command of the SQ may start as far as this one goes: it has completed, it has launched, or it has started and
holds nothing by a tick (R33, R50). -/
def CmdRec.passed (r : CmdRec) : Bool := r.isDone || r.launched || (r.phase == .running && !r.env.atTick)

/-- Order of start (R50, R52): the predecessor has completed; outside a chain it is enough that a tick-launched
predecessor has launched; and no earlier command is still to start. -/
def State.orderOk (s : State) (r : CmdRec) : Bool :=
  (((s.recsOf r.env.q.toNat).takeWhile fun x => x.id != r.id).all (·.passed)) &&
  match s.predecessor r with
  | none => true
  | some p => p.isDone || (p.launched && !r.chained)

/-- FENCE (R51). -/
def State.fenceOk (s : State) (r : CmdRec) : Bool :=
  !r.env.fence ||
  let q := r.env.q.toNat
  let job := ((s.pair? q).map (·.job)).getD 0xFF
  s.q.recs.all fun x =>
    x.id ≥ r.id || x.isDone ||
      !(x.env.q.toNat == q || job == 0xFF || ((s.pair? x.env.q.toNat).map (·.job)) == some job)

def State.startable (s : State) (r : CmdRec) : Bool := s.orderOk r && s.fenceOk r

/-- The context bound at fetch still exists (R47). -/
def State.boundOk (s : State) (r : CmdRec) : Bool :=
  match r.bound with
  | none => true
  | some u => s.ctxs.any fun c => c.uid == u

/-- Commands that have not launched when they start: a BARRIER launches at its release, an INVOKE or a list when an
invocation of it does (R33, R96; 09_serving.md R217). -/
def launchesLater : Instr → Bool
  | .barrier .. | .invoke .. | .invokeList .. => true
  | _ => false

/-- A command starts: stages 6 and 7 and its effect are `start`; before them, the opcodes the ROM does not answer
(R342), a length or count of zero (R54), the binding of R47 and addresses that a retirement took away since the fetch (R11;
log 133). -/
def State.startCmd (s : State) (r : CmdRec) (zero : Bool) (start : Nat → State → State) : State :=
  let s0 := s.modRec r.id fun r => { r with phase := .running, launched := r.env.atTick && !launchesLater r.cmd }
  let s1 := s0.trace 0 r.env.q.toNat (leBytes 2 (opcodeOf r.cmd) ++ leBytes 2 r.env.tag.toNat)
  if s.boot.stage != 9 && !romAnswers (opcodeOf r.cmd) then s1.finish r.id .wrongState
  else if zero then s1.finish r.id .okEmpty
  else if !s.boundOk r then s1.finish r.id .badContext
  else if !s.addrsHeld r.cmd then s1.finish r.id .badParam
  else start r.id s1

/-- The oldest fetched command of a queue that is this very one. -/
def State.fetched? (s : State) (i : Instr) (e : Env) : Option CmdRec :=
  s.q.recs.find? fun r => r.env.q == e.q && r.phase == .fetched && decide (r.cmd = i)

/-- The row of an opcode (log 5). A command that stands fetched in its queue starts if it may. Else the row brings the
command itself: it is fetched from its queue with the checks of stages 1 to 5 and starts at once if nothing holds it. -/
def command (i : Instr) (e : Env) (chk : State → Option Status) (zero : State → Bool)
    (start : Nat → State → State) (s : State) : Res :=
  if !s.working then .next s else
  match s.fetched? i e with
  | some r => s.when (s.startable r) (s.startCmd r (zero s) start)
  | none =>
    if !s.canFetch e.q.toNat then .next s else
    let s1 := s.takeIn i e (s.fetchStatus (opcodeOf i) e (chk s))
    match s1.fetched? i e with
    | some r => s1.when (s1.startable r) (s1.startCmd r (zero s1) start)
    | none => .next s1

/-- A command that waits for its tick is launched, or found late (R33, R50, R51). -/
def State.launch (s : State) (r : CmdRec) (zero : Bool) (start : Nat → State → State) : State :=
  if s.startable r then s.startCmd r zero start
  else if r.env.lateRun then s.modRec r.id fun r => { r with phase := .fetched, late := true }
  else s.finish r.id .timePast

end Sys2Proof.Machine
end

