-- ==== Sys2Proof/Machine/Timer.lean ====
section
/-! DEFINITION. The rack time base unit (02_timer.md R20-R37): roles, markers, lock states, alarms and their commands. -/

namespace Sys2Proof.Machine

/-- STATE of Table 15.14. -/
def LockState.code : LockState → Nat
  | .locked => 0 | .holdover => 1 | .unlocked => 2

/-- ROLE of Table 15.14. -/
def Role.code : Role → Nat
  | .follower => 0 | .masterRef => 1 | .masterFree => 2

def Timer.isMaster (t : Timer) : Bool := t.role != .follower

/-- Ticks since the last good marker. -/
def Timer.sinceGood (t : Timer) : Option Nat := t.lastGood.map fun g => t.elapsed - g

/-- Bound while LOCKED: that of a block within the hops of one, that of a system beyond (R29; log 10). -/
def lockedBound (hops : Nat) : Nat := if hops ≤ 6 then 2 else max 8 (ceilDiv (2 + hops) 4)

/-- Worst-case offset bound in ticks (R29; log 10). -/
def Timer.bound (t : Timer) : Nat :=
  match t.lock with
  | .unlocked => 0xFFFF
  | .locked => lockedBound t.hops
  | .holdover => min 0xFFFF (lockedBound t.hops + ceilDiv ((t.sinceGood).getD 0) 1000000)

/-- Event 0x0029, Timer state change (R358). -/
def State.timerEvent (s : State) (new old : LockState) : State :=
  let up := match s.tmr.upstream with
    | some p => p
    | none => 0xFFFF
  (s.event srcTimer 0x0029 (leBytes 1 new.code ++ leBytes 1 old.code ++ leBytes 2 up)).trace 8 0
    (leBytes 1 new.code ++ leBytes 1 old.code)

/-- The unit changes; a change of its lock state or of its upstream port writes its event with the new ones (R358). -/
def State.timerTo (s : State) (f : Timer → Timer) : State :=
  let s1 := s.modTmr f
  if s1.tmr.lock = s.tmr.lock ∧ s1.tmr.upstream = s.tmr.upstream then s1 else s1.timerEvent s1.tmr.lock s.tmr.lock

/-- The lock state changes, with its event. -/
def State.setLock (s : State) (new : LockState) : State :=
  s.timerTo fun t => { t with lock := new, refLost := new == .locked && t.refLost }

/-- Commands accepted with AT_TICK that wait for their tick (R32; log 9). -/
def State.pendingLaunches (s : State) : List Nat := (s.q.recs.filter fun r => r.phase == .waiting).map (·.id)

/-- What a step of the count, or entry to UNLOCKED, does to launches and alarms (R20, R32, R36): pending launches and
the members of barriers opened with AT_TICK complete TIME_UNLOCKED; armed alarms are cancelled with fired tick zero. -/
def State.dropLaunches (s : State) : State :=
  let members := (s.q.barriers.filter (·.atTick)).flatMap (·.joined)
  let s1 := { s with q := { s.q with barriers := s.q.barriers.filter fun b => !b.atTick } }
  let s2 := s1.finishAll ((s1.pendingLaunches ++ members).map fun id => (id, .timeUnlocked, []))
  let armed := s2.tmr.alarms
  armed.foldl (fun s a => s.event srcTimer 0x0028 (leBytes 1 a.slot))
    (s2.modTmr fun t => { t with alarms := [] })

/-- Entry to UNLOCKED (Table 2.3). -/
def State.enterUnlocked (s : State) : State :=
  (s.timerTo fun t => { t with lock := .unlocked, refLost := false, upstream := none, ports := [], hops := 0
                               overRun := 0 }).dropLaunches

/-- Entry to HOLDOVER; with a limit of 0 the module goes on to UNLOCKED at once (Table 2.3). -/
def State.enterHoldover (s : State) : State :=
  let s1 := s.setLock .holdover
  if s1.tmr.limit = 0 then s1.enterUnlocked else s1

/-- A LOCKED follower has had no good marker on any port for 100 beats. -/
def Timer.starved (t : Timer) : Bool :=
  t.role == .follower && t.lock == .locked && 102400 ≤ (t.sinceGood).getD 102400

/-- A follower in HOLDOVER has passed its limit. -/
def Timer.expired (t : Timer) : Bool :=
  t.role == .follower && t.lock == .holdover && t.limit ≤ (t.sinceGood).getD t.limit

/-- Evaluation of the lock state at the start of a tick (R28). -/
def State.timerEval (s : State) : State :=
  let s1 := if s.tmr.starved then s.enterHoldover else s
  if s1.tmr.expired then s1.enterUnlocked else s1

/-- One tick of the count: a written limit is taken over (R361), the state is evaluated. -/
def State.tickCount (s : State) : State :=
  (s.modTmr fun t => { t with count := (t.count + 1) % 2 ^ 64, elapsed := t.elapsed + 1, limit := t.limitNext.getD t.limit,
                              limitNext := none }).timerEval

/-! ### Markers (R23-R27) -/

/-- Port marks without one port. -/
def withoutPort (ps : List PortMark) (p : Nat) : List PortMark := ps.filter fun m => m.port != p

/-- A better choice of upstream: lower HOPS, then lower port number (R27). -/
def PortMark.better (a b : PortMark) : Bool := a.hops < b.hops || (a.hops == b.hops && a.port < b.port)

/-- The port to take time from among those with good markers within two beats, other than `except` (R27). -/
def Timer.bestPort (t : Timer) (except : Nat) : Option PortMark :=
  (t.ports.filter fun m => m.port != except && m.bad == 0 && t.elapsed - m.lastGood ≤ 2048).foldl
    (fun best m => match best with
      | some b => if m.better b then some m else some b
      | none => some m) none

/-- The follower takes another upstream port, or none; each change writes its event (R27, R358). A LOCKED follower takes
REF_LOST from the last good marker of the new port (R23). One left without an upstream keeps the HOPS it had (DESIGN CHOICE,
log 143). -/
def State.setUpstream (s : State) (m : Option PortMark) : State :=
  if s.tmr.upstream = m.map (·.port) then s else
  s.timerTo fun t => match m with
    | some x => { t with upstream := some x.port, hops := x.hops + 1
                         refLost := if t.lock = .locked then x.refLost else t.refLost }
    | none => { t with upstream := none }

/-- Ports that markers leave on: trained and not quarantined. -/
def Links.upPorts (l : Links) : List Nat :=
  (List.range 12).filter fun n => match l.ports[n]? with
    | some p => p.st == .up
    | none => false

/-- The 16 bytes of a marker this module sends (Table 2.2). -/
def State.markerBytes (s : State) : List Byte :=
  let st := if s.tmr.isMaster then 3 else 0
  leBytes 1 0x31 ++ leBytes 1 (st + (if s.tmr.refLost then 4 else 0)) ++
    leBytes 1 (if s.tmr.isMaster then 0 else s.tmr.hops) ++ zeros 1 ++ leBytes 2 s.tmr.master ++
    leBytes 2 s.ownChip ++ leBytes 8 s.tmr.count

/-- A marker is good (R26). -/
def State.markerGood (s : State) (port : Nat) (crcOk : Bool) (m : Marker) : Bool :=
  crcOk && m.kind == 0x31 && !m.rsv && s.tmr.named && m.master.toNat == s.tmr.master && m.hops.toNat < 63 &&
    (m.state == 0 || m.state == 3) && s.link.upPorts.contains port

/-- A bad marker: two in a row on the upstream port change the upstream port (R27). -/
def State.badMarker (s : State) (port : Nat) : State :=
  let s1 := s.modTmr fun t => { t with
      ports := t.ports.map fun x => if x.port == port then { x with bad := x.bad + 1, lower := 0 } else x }
  let run := ((s1.tmr.ports.find? fun x => x.port == port).map (·.bad)).getD 0
  if s1.tmr.upstream = some port && 2 ≤ run then s1.setUpstream (s1.tmr.bestPort port) else s1

/-- Step the count to a marker's corrected value, rounded to the nearest tick, ties to the higher (R26). -/
def State.stepTo (s : State) (corrected : Nat) : State :=
  let n := (corrected + 8) / 16
  s.modTmr fun t => { t with count := n, offset := (16 * n : Int) - corrected, overRun := 0 }

/-- A good marker of the upstream port moves the lock state (Table 2.3). Slewing changes the length of ticks, not the
count (log 14). -/
def State.disciplined (s : State) (corrected : Nat) (sub : Nat) (refLost : Bool) : State :=
  let off : Int := (16 * s.tmr.count + sub : Nat) - (corrected : Int)
  let far := 64 * 16 < off.natAbs
  let keep := s.modTmr fun t => { t with offset := off, lastGood := some t.elapsed }
  let locked := fun (t : State) => t.modTmr fun u => { u with refLost := refLost }
  match s.tmr.lock with
  | .unlocked => locked ((s.stepTo corrected).setLock .locked)
  | .locked =>
    if far then
      let run := s.tmr.overRun + 1
      if 4 ≤ run then keep.enterUnlocked
      else locked (keep.modTmr fun t => { t with overRun := run })
    else locked (keep.modTmr fun t => { t with overRun := 0 })
  | .holdover =>
    if far then
      -- the count steps and what waits for ticks of the old count ends at the count it has now (log 84)
      let u := s.tmr
      let s1 := (keep.stepTo corrected).enterUnlocked
      s1.timerTo fun t => { t with lock := .locked, refLost := refLost, upstream := u.upstream, ports := u.ports, hops := u.hops }
    else if off.natAbs ≤ 16 then locked (keep.setLock .locked)
    else keep

/-- A good marker: the port's record, the choice of upstream port (R27), then the discipline of the count. A beat without
a good marker ends a port's run of lower HOPS. -/
def State.goodMarker (s : State) (port sub : Nat) (m : Marker) : State :=
  let t := s.tmr
  let hops := m.hops.toNat
  let upMark := t.upstream.bind fun u => t.ports.find? fun x => x.port == u
  let old := t.ports.find? fun x => x.port == port
  let isUp := t.upstream == some port
  let last := match old with
    | some x => if t.elapsed < x.lastGood + 2048 then x.lower else 0
    | none => 0
  let lower := match upMark with
    | some u => if !isUp && hops < u.hops then last + 1 else 0
    | none => 0
  let mark : PortMark := ⟨port, hops, t.elapsed, m.refLost, 0, lower⟩
  let s1 := s.modTmr fun t => { t with ports := withoutPort t.ports port ++ [mark], lastGood := some t.elapsed }
  let s2 :=
    if isUp then s1.modTmr fun t => { t with hops := hops + 1 }
    else if t.upstream.isNone || 16 ≤ lower then s1.setUpstream (some { mark with lower := 0 })
    else s1
  if s2.tmr.upstream = some port then
    let delay := ((s.link.ports[port]?).map (·.delay)).getD 0
    s2.disciplined (16 * m.count.toNat + delay) sub m.refLost
  else s2

/-! ### Rows -/

def execTimeMarkerSend (s : State) : Res :=
  s.when (s.running && (s.tmr.isMaster || s.tmr.lock == .locked) && s.tmr.count % 1024 == 0)
    (s.link.upPorts.foldl (fun t p => t.control p s.markerBytes) s)

/-- A time marker on the link: its 16 bytes (Table 2.2) and the CRC. -/
def markerFrame (body : BitVec 128) (crc : U32) : List Byte := leBytes 16 body.toNat ++ leBytes 4 crc.toNat

/-- A master takes no time from markers. A follower counts markers that name another master (R24); one that arrives on a
port that is not trained, or is quarantined, is bad (R26). -/
def execTimeMarker (port : BitVec 4) (sub : BitVec 4) (body : BitVec 128) (crc : U32) (s : State) : Res :=
  let p := port.toNat
  let frame := markerFrame body crc
  let m := Marker.of frame
  let crcOk := crcGood frame
  if !(s.running && (s.link.ports[p]?).isSome && s.tmr.role == .follower) then .next s else
  if s.markerGood p crcOk m then .next (s.goodMarker p sub.toNat m)
  else
    let other := crcOk && m.kind == 0x31 && s.tmr.named && m.master.toNat != s.tmr.master
    let s1 := if other then s.modTmr fun t => { t with ignored := satAdd 32 t.ignored 1 } else s
    .next (s1.badMarker p)

/-- Two consecutive markers of the upstream port are missed (R27). -/
def execMarkerMiss (s : State) : Res :=
  match s.tmr.upstream with
  | some u =>
    let last := ((s.tmr.ports.find? fun x => x.port == u).map (·.lastGood)).getD 0
    s.when (s.running && s.tmr.role == .follower && last + 2048 ≤ s.tmr.elapsed)
      ((s.timerEvent s.tmr.lock s.tmr.lock).setUpstream (s.tmr.bestPort u))
  | none => .next s

def execHoldoverEntry (s : State) : Res := s.when (s.running && s.tmr.starved) s.enterHoldover

def execHoldoverLimitExpiry (s : State) : Res := s.when (s.running && s.tmr.expired) s.enterUnlocked

/-- The module takes a master role with a loaded count (R22, R23); what the step of the count ends is stamped with the
count it loads (R20; log 84). The last measured offset becomes 0, for a master measures none (DESIGN CHOICE, log 142). -/
def State.takeMaster (s : State) (role : Role) (master init : Nat) : State :=
  (s.timerTo fun t => { t with
      count := init, loadCount := init, role := role, named := true, master := master, lock := .locked, upstream := none
      ports := [], hops := 0, overRun := 0, refLost := false, offset := 0, lastGood := none }).dropLaunches

/-- The TMR_MASTER_SETs that wait for a MARK edge take effect, in the order in which they started. -/
def State.takeWaits (s : State) : State :=
  s.tmr.waits.foldl (fun s w => (s.takeMaster .masterRef w.master w.init).finish w.cmd .ok)
    (s.modTmr fun t => { t with waits := [] })

/-- MARK is sampled on TREF edges only (R23). An edge ends the waiting TMR_MASTER_SETs, or is tested by a master. -/
def execMarkEdge (s : State) : Res :=
  if !(s.working && s.tmr.trefPresent) then .next s else
  if !s.tmr.waits.isEmpty then .next s.takeWaits
  else
    s.when (s.tmr.role == .masterRef && !s.tmr.refLost &&
        (s.tmr.count + 100000000 - s.tmr.loadCount % 100000000) % 100000000 != 0)
      (s.event srcTimer 0x002A (leBytes 1 1 ++ zeros 7 ++ leBytes 8 s.tmr.count))

def execTrefLost (s : State) : Res :=
  if !(s.working && s.tmr.trefPresent) then .next s else
  let s1 := s.modTmr fun t => { t with trefPresent := false }
  if s.tmr.role = .masterRef then
    .next ((s1.modTmr fun t => { t with refLost := true }).event srcTimer 0x002A
      (leBytes 1 2 ++ zeros 7 ++ leBytes 8 s.tmr.count))
  else .next s1

def execTrefRestored (s : State) : Res :=
  if !(s.working && !s.tmr.trefPresent) then .next s else
  let s1 := s.modTmr fun t => { t with trefPresent := true }
  if s.tmr.role = .masterRef && s.tmr.refLost then
    .next ((s1.modTmr fun t => { t with refLost := false }).event srcTimer 0x002A
      (leBytes 1 3 ++ zeros 7 ++ leBytes 8 s.tmr.count))
  else .next s1

/-- No MARK edge within 2 s of a command's start (R22): the one that has waited longest. -/
def execTmrMasterSetTimeout (s : State) : Res :=
  match s.tmr.waits with
  | w :: ws =>
    s.when (s.working && w.start + 200000000 ≤ s.tmr.elapsed)
      ((s.modTmr fun t => { t with waits := ws }).finish w.cmd .checkFailed (checkResult 0x00E0 0))
  | [] => .next s

/-- An armed alarm fires at its due tick (R36). One whose first tick passed between its check at fetch and its start is armed
and fires at once; its record names the due tick all the same (DESIGN CHOICE, log 141). -/
def execAlarmFire (slot : BitVec 4) (s : State) : Res :=
  match s.tmr.alarms.find? fun a => a.slot == slot.toNat with
  | some a =>
    let rest := s.tmr.alarms.filter fun b => b.slot != a.slot
    let again := if a.period = 0 then [] else [{ a with next := a.next + a.period }]
    s.when (s.working && a.next ≤ s.tmr.count)
      ((s.modTmr fun t => { t with alarms := rest ++ again }).event srcTimer 0x0028
        (leBytes 1 a.slot ++ zeros 7 ++ leBytes 8 a.next))
  | none => .next s

/-! ### Commands -/

def checkTmrMasterSet (role : Byte) (init : U64) : Option Status :=
  firstFail [(role.toNat ≤ 2, .badParam), (role.toNat != 0 || init == 0, .badParam)]

def startTmrMasterSet (role : Byte) (master : BitVec 12) (init : U64) (id : Nat) (s : State) : State :=
  match role.toNat with
  | 0 =>
    let s1 := s.enterUnlocked
    (s1.modTmr fun t => { t with role := .follower, named := true, master := master.toNat, lastGood := none }).finish id .ok
  | 2 => (s.takeMaster .masterFree master.toNat init.toNat).finish id .ok
  | _ => s.modTmr fun t => { t with waits := t.waits ++ [⟨id, master.toNat, init.toNat, t.elapsed⟩] }

def execTmrMasterSet (e : Env) (role : Byte) (master : BitVec 12) (init : U64) (s : State) : Res :=
  command (.tmrMasterSet e role master init) e (fun _ => checkTmrMasterSet role init) (fun _ => false)
    (startTmrMasterSet role master init) s

/-- Beats since the last good marker, saturating; all ones where none has come since the role was taken (Table 2.5; log 85). -/
def Timer.beatsSince (t : Timer) : Nat :=
  match t.sinceGood with
  | some n => min 0xFFFFFFFF (n / 1024)
  | none => 0xFFFFFFFF

/-- The result of TMR_QUERY (Table 2.5). -/
def Timer.queryResult (t : Timer) : List Byte :=
  leBytes 1 (t.lock.code + (if t.refLost then 4 else 0) + 8 * t.role.code) ++ leBytes 1 t.hops ++ leBytes 2 t.master ++
    leBytes 2 t.bound ++ leBytes 2 (t.upstream.getD 0xFFFF) ++ leBytes 4 t.beatsSince ++ leBytes 4 t.ignored

def startTmrQuery (id : Nat) (s : State) : State := s.finish id .ok s.tmr.queryResult

def execTmrQuery (e : Env) (s : State) : Res :=
  command (.tmrQuery e) e (fun _ => none) (fun _ => false) startTmrQuery s

/-- Stage 4, then the time checks of stage 5 (R36). -/
def checkTmrAlarm (slot op : Byte) (first period : U64) (s : State) : Option Status :=
  firstFail [(slot.toNat ≤ 15, .badParam), (op.toNat ≤ 1, .badParam),
    (op.toNat != 1 || (first == 0 && period == 0), .badParam),
    (op.toNat == 1 || s.tmr.lock != .unlocked, .timeUnlocked),
    (op.toNat == 1 || s.tmr.count < first.toNat, .timePast)]

def startTmrAlarm (slot op : Byte) (first period : U64) (id : Nat) (s : State) : State :=
  let armed := s.tmr.alarms.any fun a => a.slot == slot.toNat
  let rest := s.tmr.alarms.filter fun a => a.slot != slot.toNat
  if op = 0 then
    if armed then s.finish id .noRoom
    else (s.modTmr fun t => { t with
      alarms := t.alarms ++ [⟨slot.toNat, first.toNat, period.toNat⟩] }).finish id .ok
  else (s.modTmr fun t => { t with alarms := rest }).finish id .ok

def execTmrAlarm (e : Env) (slot op : Byte) (first period : U64) (s : State) : Res :=
  command (.tmrAlarm e slot op first period) e (checkTmrAlarm slot op first period) (fun _ => false)
    (startTmrAlarm slot op first period) s

/-! ### Registers of the Timer block (Tables 15.13-15.16) -/

def Timer.stateReg (t : Timer) : Nat :=
  min 0xFFFF t.ignored * 2 ^ 48 + t.bound * 2 ^ 32 + t.upstream.getD 0xF * 2 ^ 16 + t.hops % 64 * 2 ^ 8 +
    t.role.code * 2 ^ 3 + (if t.refLost then 4 else 0) + t.lock.code

def Timer.masterCfgReg (t : Timer) : Nat :=
  t.master * 2 ^ 16 + (if t.named then 256 else 0) + t.role.code

def execTmrHoldoverLimitWrite (value : U64) (s : State) : Res :=
  s.when s.working (s.modTmr fun t => { t with limitNext := some (value.toNat % 2 ^ 40) })

end Sys2Proof.Machine
end

