-- ==== Sys2Proof/Machine/Admin.lean ====
section
/-! DEFINITION. Queue pairs, doorbells, admin commands, the journal command and BARRIER (03_commands_and_events.md;
04_stations_and_streams.md R96). -/

namespace Sys2Proof.Machine

/-! ### NOP and DEV_QUERY (R55, R342) -/

def startNop (id : Nat) (s : State) : State := s.finish id .ok

def execNop (e : Env) (s : State) : Res := command (.nop e) e (fun _ => none) (fun _ => false) startNop s

/-- The result of DEV_QUERY: at stage 8 only W and the trained DDR capacity. -/
def State.devQueryResult (s : State) : List Byte :=
  let ddr := s.grid.ddrGib.foldl (· + ·) 0
  if s.boot.stage = 9 then
    leBytes 4 s.boot.cfwVersion ++ leBytes 2 (2048 - s.q.pairs.length) ++ leBytes 2 (1023 - s.ctxs.length) ++
      leBytes 1 (16 - s.jobs.length) ++ zeros 1 ++ leBytes 2 s.grid.width ++ leBytes 4 ddr
  else zeros 10 ++ leBytes 2 s.grid.width ++ leBytes 4 ddr

def startDevQuery (id : Nat) (s : State) : State := s.finish id .ok s.devQueryResult

def execDevQuery (e : Env) (s : State) : Res :=
  command (.devQuery e) e (fun _ => none) (fun _ => false) startDevQuery s

/-! ### QP_CREATE and QP_DESTROY (R40, R55, R56) -/

/-- A depth a queue may have. -/
def depthOk (n : Nat) : Bool := isPow2 n && 16 ≤ n && n ≤ 65536

/-- Checks of one queue base. -/
def State.baseChecks (s : State) (base : U64) : List (Bool × Status) :=
  [(base.toNat % 4096 == 0, .badAlign),
   ([0, 1, 3].contains (spaceOf (keyOf base.toNat)) && (s.gaRange base.toNat 1 true).isSome, .badParam)]

def checkQpCreate (sqBase cqBase : U64) (sqDepth cqDepth : U32) (job : Byte) (s : State) : Option Status :=
  firstFail (s.baseChecks sqBase ++ s.baseChecks cqBase ++
    [(sqDepth != 0, .badSize), (depthOk sqDepth.toNat, .badParam), (cqDepth != 0, .badSize),
     (depthOk cqDepth.toNat, .badParam), (job.toNat < 16 || job == 0xFF, .badParam)])

/-- Queue IDs that no pair has. -/
def State.freeQueueIds (s : State) : List Nat :=
  (List.range 2048).filter fun q => q != 0 && (s.pair? q).isNone

/-- The pair a QP_CREATE makes (R56). -/
def QPair.make (id : Nat) (sqBase cqBase : U64) (sqDepth cqDepth : U32) (vector : BitVec 6) (vecEn : Bool)
    (job : Byte) : QPair :=
  { QPair.reset id with
    sqBase, cqBase, enable := true, job := job.toNat, vecEn, vector := vector.toNat,
    sqOwn := true, cqOwn := true, cqLog2 := log2Exact cqDepth.toNat, sqLog2 := log2Exact sqDepth.toNat, phase := true }

/-- The job has room for one more bound pair (R210). -/
def State.jobTakesPair (s : State) (job : Nat) : Bool :=
  match s.job? job with
  | some j => s.boundPairs job < j.nqp
  | none => false

def startQpCreate (sqBase cqBase : U64) (sqDepth cqDepth : U32) (vector : BitVec 6) (vecEn : Bool) (job : Byte)
    (id : Nat) (s : State) : State :=
  let bound := job.toNat < 16
  if bound && (s.job? job.toNat).isNone then s.finish id .wrongState
  else if bound && !s.jobTakesPair job.toNat then s.finish id .noRoom
  else match s.choose s.freeQueueIds with
    | (some q, s1) =>
      (s1.modQ fun x => { x with pairs := x.pairs ++ [QPair.make q sqBase cqBase sqDepth cqDepth vector vecEn job] }).finish
        id .ok (leBytes 2 q)
    | (none, s1) => s1.finish id .noRoom

def execQpCreate (e : Env) (sqBase cqBase : U64) (sqDepth cqDepth : U32) (vector : BitVec 6) (vecEn : Bool) (job : Byte)
    (s : State) : Res :=
  command (.qpCreate e sqBase cqBase sqDepth cqDepth vector vecEn job) e (checkQpCreate sqBase cqBase sqDepth cqDepth job)
    (fun _ => false) (startQpCreate sqBase cqBase sqDepth cqDepth vector vecEn job) s

/-- A pair that QP_DESTROY may name from another queue. -/
def State.destroyable (s : State) (e : Env) (qid : U16) : Bool :=
  1 ≤ qid.toNat && qid.toNat < 2048 && qid != e.q && (s.pair? qid.toNat).isSome

/-- Members of a destroyed pair leave their barriers (R96). -/
def State.leaveBarriers (s : State) (ids : List Nat) : State :=
  s.modQ fun q => { q with barriers := q.barriers.map fun b => { b with joined := b.joined.filter fun i => !ids.contains i } }

/-- A pair already under QP_DESTROY is refused like one that does not exist (log 88). -/
def startQpDestroy (e : Env) (qid : U16) (id : Nat) (s : State) : State :=
  let q := qid.toNat
  if !s.destroyable e qid || ((s.pair? q).bind (·.closing)).isSome then s.finish id .badParam
  else
    let members := (s.q.barriers.flatMap (·.joined)).filter fun i => ((s.recsOf q).map (·.id)).contains i
    let waiting := ((s.recsOf q).filter fun r => r.phase == .waiting).map (·.id)
    let s1 := (s.modPair q fun p => { p with closing := some id }).leaveBarriers members
    s1.finishAll ((waiting ++ members).map fun i => (i, .cancelled, []))

def checkQpDestroy (e : Env) (qid : U16) (s : State) : Option Status :=
  firstFail [(s.destroyable e qid, .badParam)]

def execQpDestroy (e : Env) (qid : U16) (s : State) : Res :=
  command (.qpDestroy e qid) e (checkQpDestroy e qid) (fun _ => false)
    (startQpDestroy e qid) s

/-! ### JOURNAL_READ (R59) -/

def checkJournalRead (dest : U64) (maxn : U32) (s : State) : Option Status :=
  firstFail [(dest.toNat % 64 == 0, .badAlign),
    ([0, 1, 3].contains (spaceOf (keyOf dest.toNat)) && (s.gaRange dest.toNat (32 * maxn.toNat) true).isSome, .badParam)]

/-- The records a read starting at `first` returns, and how many were lost before them. -/
def State.journalFrom (s : State) (first maxn : Nat) : List Journal × Nat :=
  let f := max first 1
  let held := s.q.journal.filter fun r => f ≤ r.index
  let oldest := ((s.q.journal.head?).map (·.index)).getD 1
  (held.take maxn, oldest - f)

def startJournalRead (dest : U64) (first maxn : U32) (id : Nat) (s : State) : State :=
  let (rs, lost) := s.journalFrom first.toNat maxn.toNat
  match rs with
  | [] => s.finish id .okEmpty
  | r :: _ =>
    (s.writeBytes (keyOf dest.toNat) (rs.flatMap Journal.bytes)).finish id .ok
      (leBytes 4 r.index ++ leBytes 4 rs.length ++ leBytes 4 lost)

def execJournalRead (e : Env) (dest : U64) (first maxn : U32) (s : State) : Res :=
  command (.journalRead e dest first maxn) e (checkJournalRead dest maxn) (fun _ => maxn == 0)
    (startJournalRead dest first maxn) s

/-! ### BARRIER (R96) -/

def State.barrier? (s : State) (bid : Nat) : Option Barrier := s.q.barriers.find? fun b => b.id == bid

def State.closeBarrier (s : State) (bid : Nat) : State :=
  s.modQ fun q => { q with barriers := q.barriers.filter fun b => b.id != bid }

/-- A barrier whose last member has joined releases, one with AT_TICK not before its launch tick: every member completes
with the release tick; late under LATE_RUN, OK_LATE. -/
def State.releaseIfFull (s : State) (bid : Nat) : State :=
  match s.barrier? bid with
  | some b =>
    if b.members ≤ b.joined.length && (!b.atTick || b.launch ≤ s.now) then
      let st : Status := if b.atTick && b.launch < s.now then .okLate else .ok
      (s.closeBarrier bid).finishAll (b.joined.map fun i => (i, st, leBytes 8 s.now))
    else s
  | none => s

def startBarrier (e : Env) (bid members : U16) (id : Nat) (s : State) : State :=
  let b0 : Barrier := ⟨bid.toNat, members.toNat, e.atTick, e.lateRun, e.launch.toNat, [id]⟩
  match s.barrier? bid.toNat with
  | some b =>
    if b.members = b0.members ∧ b.atTick = b0.atTick ∧ b.lateRun = b0.lateRun ∧ b.launch = b0.launch then
      (s.modQ fun q => { q with barriers := q.barriers.map fun x =>
        if x.id == b.id then { x with joined := x.joined ++ [id] } else x }).releaseIfFull bid.toNat
    else s.finish id .wrongState
  | none =>
    if 256 ≤ s.q.barriers.length then s.finish id .noRoom
    else (s.modQ fun q => { q with barriers := q.barriers ++ [b0] }).releaseIfFull bid.toNat

def checkBarrier (members : U16) (_s : State) : Option Status :=
  firstFail [(members.toNat ≤ 2048, .badParam)]

def execBarrier (e : Env) (bid members : U16) (s : State) : Res :=
  command (.barrier e bid members) e (checkBarrier members) (fun _ => members == 0)
    (startBarrier e bid members) s

/-- Barriers whose launch tick has come (R96): the full ones release; of the others, those without LATE_RUN close, and
those who joined complete TIME_PAST. -/
def State.lateBarriers (s : State) : State :=
  let s := (s.q.barriers.map (·.id)).foldl State.releaseIfFull s
  let due := s.q.barriers.filter fun b => b.atTick && !b.lateRun && b.launch ≤ s.now && b.joined.length < b.members
  (s.modQ fun q => { q with barriers := q.barriers.filter fun b => !(due.map (·.id)).contains b.id }).finishAll
    (due.flatMap fun b => b.joined.map fun i => (i, .timePast, []))

/-! ### Doorbells (R41, R42, R44, R363) -/

/-- A doorbell write to a pair that does not exist (R44). -/
def State.strayDoorbell (s : State) (off : Nat) (value : U64) : State :=
  s.event srcSafety 0x0003 (leBytes 1 2 ++ leBytes 1 1 ++ zeros 2 ++ leBytes 4 off ++ leBytes 8 value.toNat)

def execSqTailDoorbell (q : U16) (value : U64) (s : State) : Res :=
  let i := value.toNat % 65536
  if !s.working || 2048 ≤ q.toNat then .next s else
  match s.pair? q.toNat with
  | none => .next (s.strayDoorbell (8 * q.toNat) value)
  | some p =>
    if p.error || !p.enable then .next s
    else if p.sqDepth ≤ i then .next (s.pairError q.toNat 1 (value.toNat % 2 ^ 32))
    else .next (s.modPair q.toNat fun p => { p with sqTail := i })

/-- A head index beyond CQ_TAIL (R42). -/
def QPair.headOk (p : QPair) (i : Nat) : Bool :=
  i < p.cqDepth &&
    (i + p.cqDepth - p.cqHead) % p.cqDepth ≤ (p.cqTail + p.cqDepth - p.cqHead) % p.cqDepth

def execCqHeadDoorbell (q : U16) (value : U64) (s : State) : Res :=
  let i := value.toNat % 65536
  if !s.working || 2048 ≤ q.toNat then .next s else
  match s.pair? q.toNat with
  | none => .next (s.strayDoorbell (0x10000 + 8 * q.toNat) value)
  | some p =>
    if p.error || !p.enable then .next s
    else if !p.headOk i then .next (s.pairError q.toNat 5 (value.toNat % 2 ^ 32))
    else .next (s.modPair q.toNat fun p => { p with cqHead := i })

/-! ### Queue pair 0 (R39, R44) -/

/-- The fields of a QP_CTRL write, while ENABLE is clear (Table 3.3). -/
def QPair.withCtrl (p : QPair) (v : U64) : QPair :=
  let n := v.toNat
  { p with job := bits n 39 32, vecEn := bit n 23, vector := bits n 21 16, cqLog2 := bits n 12 8, sqLog2 := bits n 4 0 }

/-- The fields with which pair 0 may be enabled (R39). A base on another module is valid: it fails at its first use. -/
def State.pair0Valid (s : State) (p : QPair) : Bool :=
  let base := fun (b : U64) => b.toNat % 4096 == 0 && [0, 1, 3].contains (spaceOf (keyOf b.toNat))
  let log := fun n => 4 ≤ n && n ≤ 16
  log p.sqLog2 && log p.cqLog2 && base p.sqBase && base p.cqBase &&
    (p.job == 0xFF || (p.job < 16 && s.jobTakesPair p.job))

def execQp0Enable (ctrl : U64) (s : State) : Res :=
  match s.pair? 0 with
  | none => .next s
  | some p0 =>
    if !s.working || p0.enable then .next s else
    let p := p0.withCtrl ctrl
    let s1 := s.modPair 0 fun _ => p
    if s.pair0Valid p then
      .next (s1.modPair 0 fun p => { p with enable := true, error := false, errCode := 0, sqHead := 0, cqTail := 0,
                                            sqTail := 0, cqHead := 0, phase := true, chainOpen := false,
                                            chainFailed := false })
    else
      -- only a valid JOB binds the pair (R39)
      let src := if p.job < 16 && s.jobTakesPair p.job then srcJob p.job else srcSafety
      .next ((s1.modPair 0 fun p => { p with error := true, errCode := 4 }).event src 0x0002
        (zeros 2 ++ leBytes 1 4))

def execQp0Disable (ctrl : U64) (s : State) : Res :=
  if !s.working then .next s else
  .next ((s.modPair 0 fun p =>
    if p.enable then { p with enable := false, sqTail := 0, cqHead := 0 } else p.withCtrl ctrl).settled)

/-! ### Registers of the Queues block (Tables 3.1-3.4) -/

def QPair.ctrlReg (p : QPair) : Nat :=
  (if p.enable then 2 ^ 63 else 0) + p.job * 2 ^ 32 + (if p.vecEn then 2 ^ 23 else 0) + p.vector * 2 ^ 16 +
    p.cqLog2 * 2 ^ 8 + p.sqLog2

def QPair.stateReg (p : QPair) : Nat :=
  p.sqHead * 2 ^ 48 + p.cqTail * 2 ^ 32 + (if p.error then p.errCode * 2 ^ 8 else 0) + (if p.phase then 4 else 0) +
    (if p.enable && !p.error && p.sqHead != p.sqTail then 2 else 0) + (if p.error then 1 else 0)

end Sys2Proof.Machine
end

