-- ==== Sys2Proof/Machine/Crypto.lean ====
section
/-! DEFINITION. SHA-384, which weights, images, records and evidence are checked with (08_weights.md R191;
14_boot_and_identity.md R344-R349), and ECDSA over P-384 (R344, R345). The manual names both and leaves them to their
standards. -/

namespace Sys2Proof.Machine

/-- A number from bytes, most significant first. -/
def beNat (bs : List Byte) : Nat := bs.foldl (fun n b => 256 * n + b.toNat) 0

/-- The low `k` bytes of a number, most significant first. -/
def beBytes (k n : Nat) : List Byte := (leBytes k n).reverse

/-! ### SHA-384 -/

/-- The greatest `r` with `r ^ k ≤ n`, found from the bit below `bits` downwards. -/
def rootFrom (k n : Nat) : Nat → Nat → Nat
  | 0, r => r
  | bits + 1, r => rootFrom k n bits (if (r + 2 ^ bits) ^ k ≤ n then r + 2 ^ bits else r)

/-- The first 64 bits behind the point of the `k`-th root of a number. -/
def rootWord (k n : Nat) : U64 := BitVec.ofNat 64 (rootFrom k (n * 2 ^ (64 * k)) 68 0)

/-- The first 80 primes. -/
def shaPrimes : List Nat :=
  (List.range 410).filter fun p => 2 ≤ p && (List.range 21).all fun d => d < 2 || d == p || p % d != 0

/-- Constants of the rounds: the cube roots of the primes. -/
def shaK : List U64 := shaPrimes.map (rootWord 3)

/-- Initial hash words: the square roots of the ninth to the sixteenth prime. -/
def shaInit : List U64 := ((shaPrimes.drop 8).take 8).map (rootWord 2)

/-- A word turned right by three amounts, combined. -/
def turned (x : U64) (i j k : Nat) : U64 := x.rotateRight i ^^^ x.rotateRight j ^^^ x.rotateRight k

/-- A word turned right by two amounts and moved by a third, combined. -/
def moved (x : U64) (i j k : Nat) : U64 := x.rotateRight i ^^^ x.rotateRight j ^^^ (x >>> k)

/-- The next word of the message schedule, of the words made before it, newest first. -/
def shaNext (made : List U64) : U64 :=
  let word := fun (back : Nat) => made.getD (back - 1) 0
  word 16 + moved (word 15) 1 8 7 + word 7 + moved (word 2) 19 61 6

/-- One round for constant `k` and word `w`: the two words that are new enter the eight working words, which move on. -/
def shaRound (v : List U64) (k w : U64) : List U64 :=
  let at_ := fun (i : Nat) => v.getD i 0
  let choice := (at_ 4 &&& at_ 5) ||| (~~~(at_ 4) &&& at_ 6)
  let majority := (at_ 0 &&& at_ 1) ||| (at_ 2 &&& (at_ 0 ||| at_ 1))
  let low := at_ 7 + turned (at_ 4) 14 18 41 + choice + k + w
  [low + turned (at_ 0) 28 34 39 + majority] ++ v.take 3 ++ [at_ 3 + low] ++ (v.drop 4).take 3

/-- One 128-byte block: each round uses the oldest of the last sixteen schedule words and makes one more. -/
def shaBlock (h : List U64) (block : List Byte) : List U64 :=
  let first := (List.range 16).map fun i => BitVec.ofNat 64 (beNat (slice block (8 * (15 - i)) 8))
  let step := fun (x : List U64 × List U64) k => (shaRound x.1 k (x.2.getD 15 0), (shaNext x.2 :: x.2).take 16)
  List.zipWith (· + ·) h (shaK.foldl step (h, first)).1

/-- Blocks of a padded message. -/
def shaBlocks : Nat → List U64 → List Byte → List U64
  | 0, h, _ => h
  | fuel + 1, h, bs => if bs.isEmpty then h else shaBlocks fuel (shaBlock h (bs.take 128)) (bs.drop 128)

/-- The message with its padding: a one bit, zeros, and the length in bits in the last 16 bytes of a block. -/
def shaPad (bs : List Byte) : List Byte :=
  let n := bs.length
  bs ++ [0x80] ++ zeros ((239 - n % 128) % 128) ++ beBytes 16 (8 * n)

/-- SHA-384 as a number whose first byte is the most significant. -/
def sha384 (bs : List Byte) : BitVec 384 :=
  let p := shaPad bs
  BitVec.ofNat 384 (beNat (((shaBlocks (p.length / 128) shaInit p).take 6).flatMap fun w => beBytes 8 w.toNat))

/-- A digest from its 48 bytes, and its bytes. -/
def digestAt (bs : List Byte) (off : Nat) : BitVec 384 := BitVec.ofNat 384 (beNat (slice bs off 48))

def digestBytes (d : BitVec 384) : List Byte := beBytes 48 d.toNat

/-! ### ECDSA over P-384 -/

def p384 : Nat := 2 ^ 384 - 2 ^ 128 - 2 ^ 96 + 2 ^ 32 - 1
def p384n : Nat := 0xffffffffffffffffffffffffffffffffffffffffffffffffc7634d81f4372ddf581a0db248b0a77aecec196accc52973
def p384b : Nat := 0xb3312fa7e23ee7e4988e056be3f82d19181d9c6efe8141120314088f5013875ac656398d8a2ed19d2a85c8edd3ec2aef
def p384g : Nat × Nat :=
  (0xaa87ca22be8b05378eb1c71ef320ad746e1d3b628ba79b9859f741e082542a385502f25dbf55296c3a545e3872760ab7,
   0x3617de4a96262c6f5d9e98bf9292dc29f8f41dbd289a147ce9da3113b5f0b8c00a60b1ce1d7e819d7a431d7c90ea0e5f)

/-- Power modulo m, by the exponent's bits. -/
def powMod (m : Nat) : Nat → Nat → Nat → Nat
  | 0, _, _ => 1 % m
  | fuel + 1, b, e =>
    if e = 0 then 1 % m
    else
      let h := powMod m fuel (b * b % m) (e / 2)
      if e % 2 = 1 then h * b % m else h

/-- Inverse modulo a prime. -/
def invMod (m a : Nat) : Nat := powMod m 400 (a % m) (m - 2)

/-- Sum of two points; none is the point at infinity. -/
def pointAdd : Option (Nat × Nat) → Option (Nat × Nat) → Option (Nat × Nat)
  | none, q => q
  | p, none => p
  | some (x1, y1), some (x2, y2) =>
    if x1 = x2 && (y1 + y2) % p384 = 0 then none
    else
      let l := if x1 = x2 then (3 * x1 * x1 + (p384 - 3)) * invMod p384 (2 * y1) % p384
        else (y2 + p384 - y1) * invMod p384 (x2 + p384 - x1) % p384
      let x := (l * l + 2 * p384 - x1 - x2) % p384
      some (x, (l * (x1 + p384 - x) + p384 - y1) % p384)

/-- A multiple of a point. -/
def pointMul : Nat → Nat → Option (Nat × Nat) → Option (Nat × Nat)
  | 0, _, _ => none
  | fuel + 1, k, p =>
    if k = 0 then none
    else
      let h := pointMul fuel (k / 2) (pointAdd p p)
      if k % 2 = 1 then pointAdd h p else h

/-- A point of the curve. -/
def onCurve (x y : Nat) : Bool :=
  x < p384 && y < p384 && (y * y) % p384 == (x * x * x + (p384 - 3) * x + p384b) % p384

/-- A signature (r, then s) over a digest verifies under a public key (X, then Y). -/
def ecdsaVerify (key sig : BitVec 768) (digest : BitVec 384) : Bool :=
  let x := key.toNat / 2 ^ 384
  let y := key.toNat % 2 ^ 384
  let r := sig.toNat / 2 ^ 384
  let s := sig.toNat % 2 ^ 384
  if !(onCurve x y && 1 ≤ r && r < p384n && 1 ≤ s && s < p384n) then false
  else
    let w := invMod p384n s
    match pointAdd (pointMul 400 (digest.toNat * w % p384n) (some p384g)) (pointMul 400 (r * w % p384n) (some (x, y))) with
    | some (px, _) => px % p384n == r
    | none => false

end Sys2Proof.Machine
end

