-- ==== Sys2Proof/Machine/Num.lean ====
section
/-! DEFINITION. Number formats and arithmetic (06_arithmetic.md R129-R156): exact values, decoding, rounding, conversion,
chunk sums and the vector unit's functions. -/

namespace Sys2Proof.Machine

/-- An exact value: NaN, an infinity, or (-1)^neg × m × 2^e. -/
inductive Val where
  | nan
  | inf (neg : Bool)
  | fin (neg : Bool) (m : Nat) (e : Int)
  deriving DecidableEq, Repr

def Val.zero : Val := .fin false 0 0

def Val.isNan : Val → Bool
  | .nan => true
  | _ => false

/-- The magnitude is zero. -/
def Val.isZero : Val → Bool
  | .fin _ m _ => m == 0
  | _ => false

/-- A floating-point layout: exponent bits, mantissa bits, bias (Table 6.1). -/
structure FpFmt where
  eb : Nat
  mb : Nat
  bias : Nat
  deriving DecidableEq, Repr

/-- Layout of a floating-point format code; none for integers and E8M0. -/
def fpFmt : Nat → Option FpFmt
  | 0x0 => some ⟨8, 23, 127⟩
  | 0x1 => some ⟨8, 7, 127⟩
  | 0x2 => some ⟨5, 10, 15⟩
  | 0x3 => some ⟨4, 3, 7⟩
  | 0x4 => some ⟨5, 2, 15⟩
  | 0x5 => some ⟨3, 2, 3⟩
  | 0x6 => some ⟨2, 3, 1⟩
  | 0x7 => some ⟨2, 1, 1⟩
  | 0xC => some ⟨4, 3, 7⟩
  | _ => none

/-- Width of an element in bits (Table 6.1). -/
def fmtWidth : Nat → Nat
  | 0x0 => 32 | 0xA => 32
  | 0x1 => 16 | 0x2 => 16
  | 0x5 => 6 | 0x6 => 6
  | 0x7 => 4 | 0x9 => 4
  | _ => 8

/-- Largest finite encoding without its sign (Table 6.1). -/
def fmtMax : Nat → Nat
  | 0x0 => 0x7F7FFFFF | 0x1 => 0x7F7F | 0x2 => 0x7BFF | 0x3 => 0x7E | 0x4 => 0x7B
  | 0x5 => 0x1F | 0x6 => 0x1F | 0x7 => 0x7 | 0x8 => 127 | 0x9 => 7 | 0xA => 0x7FFFFFFF
  | 0xB => 0xFE | _ => 0x7E

/-- Formats with infinities. -/
def fmtHasInf (f : Nat) : Bool := f == 0 || f == 1 || f == 2 || f == 4

/-- Integer formats. -/
def fmtIsInt (f : Nat) : Bool := f == 8 || f == 9 || f == 10

/-- Canonical NaN of the formats that have one (Table 6.1). -/
def fmtNan : Nat → Option Nat
  | 0x0 => some 0x7FC00000 | 0x1 => some 0x7FC0 | 0x2 => some 0x7E00 | 0x3 => some 0x7F | 0x4 => some 0x7E
  | 0xB => some 0xFF | 0xC => some 0x7F | _ => none

/-- Encoded value of an element (R129, Table 6.1). -/
def decodeElem (f enc : Nat) : Val :=
  match fpFmt f with
  | some p =>
    let w := 1 + p.eb + p.mb
    let x := enc % 2 ^ w
    let s := bit x (w - 1)
    let e := x / 2 ^ p.mb % 2 ^ p.eb
    let m := x % 2 ^ p.mb
    let top := 2 ^ p.eb - 1
    if f = 0xC && 0x7F ≤ x then .nan
    else if f = 3 && x % 128 = 0x7F then .nan
    else if fmtHasInf f && e = top then (if m = 0 then .inf s else .nan)
    else if e = 0 then .fin s m (1 - (p.bias : Int) - p.mb)
    else .fin s (2 ^ p.mb + m) ((e : Int) - p.bias - p.mb)
  | none =>
    if f = 0xB then (if enc % 256 = 0xFF then .nan else .fin false 1 ((enc % 256 : Int) - 127))
    else
      let i := signed (fmtWidth f) enc
      .fin (i < 0) i.natAbs 0

/-- Product of exact values; Inf × 0 is NaN. -/
def Val.mul : Val → Val → Val
  | .fin a m e, .fin b n k => .fin (a != b) (m * n) (e + k)
  | .nan, _ => .nan
  | _, .nan => .nan
  | .inf a, .inf b => .inf (a != b)
  | .inf a, .fin b n _ => if n = 0 then .nan else .inf (a != b)
  | .fin a m _, .inf b => if m = 0 then .nan else .inf (a != b)

def Val.neg : Val → Val
  | .nan => .nan
  | .inf a => .inf (!a)
  | .fin a m e => .fin (!a) m e

def Val.abs : Val → Val
  | .nan => .nan
  | .inf _ => .inf false
  | .fin _ m e => .fin false m e

/-- Signed integer of a finite value in units of 2 ^ k, for k at most its exponent. -/
def Val.units (k : Int) : Val → Int
  | .fin s m e => let v : Int := m * 2 ^ (e - k).toNat; if s then -v else v
  | _ => 0

def Val.exp : Val → Int
  | .fin _ _ e => e
  | _ => 0

/-- Exact comparison of finite values. -/
def Val.ltFin (a b : Val) : Bool :=
  let k := min a.exp b.exp
  a.units k < b.units k

/-- Comparison of values that are not NaN. -/
def Val.lt (a b : Val) : Bool :=
  match a, b with
  | .inf s, .inf t => s && !t
  | .inf s, _ => s
  | _, .inf t => !t
  | _, _ => a.ltFin b

/-- Exact sum of two values that are not NaN; a zero sum is +0 unless both are -0; Inf - Inf is NaN (R138, Table 6.10). -/
def Val.add (a b : Val) : Val :=
  match a, b with
  | .nan, _ => .nan
  | _, .nan => .nan
  | .inf s, .inf t => if s = t then .inf s else .nan
  | .inf s, _ => .inf s
  | _, .inf t => .inf t
  | .fin s m e, .fin t n k =>
    let d := min e k
    let v := Val.units d a + Val.units d b
    if v = 0 then .fin (s && t && m == 0 && n == 0) 0 0 else .fin (v < 0) v.natAbs d

/-! ### Rounding (R142) -/

/-- Nearest integer to a quotient, ties to even. -/
def rne (num den : Nat) : Nat :=
  let q := num / den
  let r := num % den
  if 2 * r < den then q else if 2 * r > den then q + 1 else q + q % 2

/-- Floor of the binary logarithm of a positive quotient. -/
def log2Quot (num den : Nat) : Int :=
  let e : Int := (Nat.log2 num : Int) - Nat.log2 den
  let under := if 0 ≤ e then num < den * 2 ^ e.toNat else num * 2 ^ (-e).toNat < den
  if under then e - 1 else e

/-- The quotient num × 2^k / den as a quotient of naturals. -/
def scaled (num den : Nat) (k : Int) : Nat × Nat :=
  if 0 ≤ k then (num * 2 ^ k.toNat, den) else (num, den * 2 ^ (-k).toNat)

/-- Magnitude encoding of num/den in a floating-point layout, rounded once, with an unbounded exponent above. -/
def roundFp (p : FpFmt) (num den : Nat) : Nat :=
  if num = 0 then 0 else
  let e := max (log2Quot num den) (1 - (p.bias : Int))
  let (n, d) := scaled num den ((p.mb : Int) - e)
  ((e + p.bias - 1).toNat) * 2 ^ p.mb + rne n d

/-- What one element conversion gives: encoding, SAT, FLUSH, NaN seen, infinity written. -/
structure Conv where
  enc   : Nat
  sat   : Bool
  flush : Bool
  nan   : Bool
  inf   : Bool
  deriving DecidableEq, Repr

/-- Sign bit of a format. -/
def signBit (f : Nat) (neg : Bool) : Nat := if neg && f != 0xB && f != 0xC then 2 ^ (fmtWidth f - 1) else 0

/-- Largest encoding of a sign (R143 step 3, R144). -/
def satEnc (f : Nat) (neg : Bool) : Nat :=
  if fmtIsInt f then (if neg then 2 ^ (fmtWidth f - 1) else fmtMax f) else fmtMax f + signBit f neg

/-- Conversion of x divided by dm × 2^de into an element format (R143-R146); `frac`: fraction bits of an integer
element (6 for INT8 under S1). A NaN without an encoding gives +0 with `nan` set. -/
def convElem (f : Nat) (x : Val) (dm : Nat := 1) (de : Int := 0) (frac : Nat := 0) : Conv :=
  match x with
  | .nan => ⟨(fmtNan f).getD 0, false, false, true, false⟩
  | .inf s =>
    if fmtHasInf f then ⟨(if f = 0 then 0x7F800000 else if f = 1 then 0x7F80 else if f = 2 then 0x7C00 else 0x7C) + signBit f s,
      false, false, false, true⟩
    else ⟨satEnc f s, true, false, false, false⟩
  | .fin s m e =>
    let (num, den) := scaled m dm (e - de)
    if f = 0xB then
      if num = 0 then ⟨0, false, false, false, false⟩
      else
        let k := log2Quot num den
        if 128 ≤ k then ⟨0xFE, true, false, false, false⟩
        else if k < -127 then ⟨0, false, true, false, false⟩
        else ⟨(k + 127).toNat, false, false, false, false⟩
    else if fmtIsInt f then
      let q := rne (num * 2 ^ frac) den
      let top := if s then 2 ^ (fmtWidth f - 1) else fmtMax f
      if top < q then ⟨satEnc f s, true, false, false, false⟩
      else ⟨if s then (2 ^ fmtWidth f - q) % 2 ^ fmtWidth f else q, false, q == 0 && num != 0, false, false⟩
    else match fpFmt f with
      | some p =>
        let q := roundFp p num den
        if fmtMax f < q then ⟨satEnc f s, true, false, false, false⟩
        else ⟨q + signBit f s, false, q == 0 && num != 0, false, false⟩
      | none => ⟨0, false, false, false, false⟩

/-- Result of rounding an arithmetic value to FP32: encoding and FLUSH; overflow gives an infinity (R137). -/
def roundArith (x : Val) : Nat × Bool :=
  match x with
  | .fin s m e =>
    let (num, den) := scaled m 1 e
    let q := roundFp ⟨8, 23, 127⟩ num den
    let sg := if s then 0x80000000 else 0
    if 0x7F7FFFFF < q then (0x7F800000 + sg, false) else (q + sg, q == 0 && m != 0)
  | .inf s => (0x7F800000 + (if s then 0x80000000 else 0), false)
  | .nan => (0x7FC00000, false)

/-- Exact value of an FP32 encoding. -/
def fp32 (enc : Nat) : Val := decodeElem 0 enc

/-! ### Chunks (R135, R136) -/

/-- Magnitude at which a product overflows: 2^128 - 2^103. -/
def overflowAt : Val := .fin false (2 ^ 128 - 2 ^ 103) 0

/-- A formed product under rule 2. -/
def formed (p : Val) : Val :=
  match p with
  | .fin s _ _ => if p.abs.ltFin overflowAt then p else .inf s
  | _ => p

/-- The value of a chunk of formed products; none for an empty chunk. -/
def chunkValue (ps : List Val) : Option Val :=
  match ps with
  | [] => none
  | p :: rest =>
    let fs := (p :: rest).map formed
    if fs.any Val.isNan then some .nan
    else
      let pos := fs.any fun v => v == .inf false
      let neg := fs.any fun v => v == .inf true
      if pos && neg then some .nan
      else if pos then some (.inf false)
      else if neg then some (.inf true)
      else
        let k := fs.foldl (fun k v => min k v.exp) 0
        let sum := fs.foldl (fun a v => a + v.units k) 0
        let allNegZero := fs.all fun v => match v with
          | .fin true 0 _ => true
          | _ => false
        some (if sum = 0 then .fin allNegZero 0 0 else .fin (sum < 0) sum.natAbs k)

/-- A chunk rounded once: FP32 encoding and FLUSH. -/
def chunkRound (ps : List Val) : Option (Nat × Bool) := (chunkValue ps).map roundArith

/-- The three BF16 parts of an FP32 operand (R140). -/
def splitParts (enc : Nat) : List Val :=
  let top := fun (x : Nat) => x / 65536 * 65536
  let x0 := top enc
  let sub := fun (a b : Nat) => (roundArith ((fp32 a).add (fp32 b).neg)).1
  let r := sub enc x0
  let x1 := top r
  let x2 := top (sub r x1)
  [fp32 x0, fp32 x1, fp32 x2]

/-- Products of one operand pair of FP32 encodings under PASSES (R141, Table 6.4). -/
def passProducts (passes a b : Nat) : List Val :=
  let special := fun (v : Val) => match v with
    | .fin _ _ _ => false
    | _ => true
  if special (fp32 a) || special (fp32 b) then [(fp32 a).mul (fp32 b)]
  else
    let as := splitParts a
    let bs := splitParts b
    let p := fun i j => (as.getD i .zero).mul (bs.getD j .zero)
    match passes with
    | 0 => [p 0 0]
    | 1 => [p 0 0, p 0 1, p 1 0]
    | _ => [p 0 0, p 0 1, p 1 0, p 0 2, p 1 1, p 2 0]

/-! ### Vector functions (R151, R153) -/

/-- Integer square root of a number below 4 ^ n, digit by digit. -/
def isqrt : Nat → Nat → Nat → Nat
  | 0, _, r => r
  | n + 1, x, r => let t := r + 2 ^ n; isqrt n x (if t * t ≤ x then t else r)

/-- Correctly rounded reciprocal square root of a positive value: the root is computed far below the rounding position,
with a sticky bit. -/
def rsqrtVal (m : Nat) (e : Int) : Val :=
  let m' := if e % 2 = 0 then m else 2 * m
  let e' := if e % 2 = 0 then e else e - 1
  let k := 64 + Nat.log2 m'
  let t := isqrt (k + 1) (2 ^ (2 * k) / m') 0
  let sticky := if t * t * m' = 2 ^ (2 * k) then 0 else 1
  .fin false (2 * t + sticky) (-(k : Int) - 1 - e' / 2)

/-- Fraction bits of the exponential's fixed-point working. -/
def expBits : Nat := 320

/-- The natural logarithm of 2 in units of 2 ^ -320: the sum of 1 / (k 2^k). -/
def ln2Fixed : Nat :=
  ((List.range 340).map fun i => 2 ^ (expBits + 32) / ((i + 1) * 2 ^ (i + 1))).foldl (· + ·) 0 / 2 ^ 32

/-- Exponential series of y in units of 2 ^ -320. -/
def expSeries (y : Nat) : Nat :=
  ((List.range 90).foldl (fun (acc : Nat × Nat) i =>
    let t := acc.2 * y / 2 ^ expBits / (i + 1)
    (acc.1 + t, t)) (2 ^ expBits, 2 ^ expBits)).1

/-- Two to the power x for x above -150 and below 128: an integer power exactly, otherwise the series with a sticky
bit (log 22). -/
def exp2Val (neg : Bool) (m : Nat) (e : Int) : Val :=
  let fx : Int := Val.units (-(expBits : Int)) (.fin neg m (max e (-(expBits : Int))))
  let i := fx / 2 ^ expBits
  let f := (fx % 2 ^ expBits).toNat
  if f = 0 then .fin false 1 i
  else .fin false (2 * expSeries (f * ln2Fixed / 2 ^ expBits) + 1) (i - expBits - 1)

/-- A vector result: FP32 encoding and FLUSH. -/
abbrev VRes := Nat × Bool

/-- Unary operations of VEC1 (SUB). -/
def vecUnary (sub : Nat) (a : Nat) : VRes :=
  let v := fp32 a
  match sub with
  | 0 => roundArith v
  | 1 => roundArith v.neg
  | 2 => roundArith v.abs
  | 3 => match v with
    | .fin s m e => roundArith (if s then .zero else .fin false m e)
    | .inf s => roundArith (if s then .zero else .inf false)
    | .nan => roundArith .nan
  | 4 => match v with
    | .nan => roundArith .nan
    | .inf s => if s then (0, false) else (0x7F800000, false)
    | .fin s m e =>
      if m = 0 then (0x3F800000, false)
      else if !s && !(v.ltFin (.fin false 128 0)) then (0x7F800000, false)
      else if s && !((Val.fin true 150 0).ltFin v) then (0, true)
      else roundArith (exp2Val s m e)
  | 5 => match v with
    | .nan => roundArith .nan
    | .inf s => (if s then 0x80000000 else 0, false)
    | .fin s m e =>
      if m = 0 then (0x7F800000 + (if s then 0x80000000 else 0), false)
      else
        let (num, den) := scaled 1 m (-e)
        let q := roundFp ⟨8, 23, 127⟩ num den
        let sg := if s then 0x80000000 else 0
        if 0x7F7FFFFF < q then (0x7F800000 + sg, false) else (q + sg, q == 0)
  | _ => match v with
    | .nan => roundArith .nan
    | .inf s => if s then roundArith .nan else (0, false)
    | .fin s m e =>
      if m = 0 then (0x7F800000 + (if s then 0x80000000 else 0), false)
      else if s then roundArith .nan
      else roundArith (rsqrtVal m e)

/-- The greater, or the lesser, of two values; NaN if either is; of zeros of both signs +0, or -0 (Table 6.10). -/
def Val.pick (max_ : Bool) (a b : Val) : Val :=
  if a.isNan || b.isNan then .nan
  else if a.isZero && b.isZero then
    let negOf := fun (v : Val) => match v with
      | .fin s _ _ => s
      | _ => false
    .fin (if max_ then negOf a && negOf b else negOf a || negOf b) 0 0
  else if a.lt b then (if max_ then b else a) else (if max_ then a else b)

/-- Binary operations of VEC2 and VECACC (SUB). -/
def vecBinary (sub : Nat) (a b : Nat) : VRes :=
  let x := fp32 a
  let y := fp32 b
  match sub with
  | 0 => roundArith (x.add y)
  | 1 => roundArith (x.add y.neg)
  | 2 => roundArith (x.mul y)
  | 3 => roundArith (x.pick true y)
  | _ => roundArith (x.pick false y)

/-- FTZ (R154): a subnormal result becomes zero of its sign and counts FLUSH. -/
def ftz (on : Bool) (r : VRes) : VRes :=
  let m := r.1 % 0x80000000
  if on && 0 < m && m < 0x00800000 then (r.1 / 0x80000000 * 0x80000000, true) else r

end Sys2Proof.Machine
end

