-- ==== Sys2Proof/Machine/Tiles.lean ====
section
/-! DEFINITION. Tiles: packing and storage order (04_stations_and_streams.md R71, R72), block scales and decoded values
(06_arithmetic.md R131, R132), conversion into a format and scheme (R143-R149), CRC-32C (Table 4.3). -/

namespace Sys2Proof.Machine

/-- Schemes a format takes (Table 4.4). -/
def schemeOk (f scheme : Nat) : Bool :=
  match f with
  | 3 | 4 | 5 | 6 | 7 => scheme ≤ 3
  | 8 => scheme ≤ 1
  | _ => f ≤ 0xC && scheme == 0

/-- Elements a scale covers; 0 without scales. -/
def blockSize (scheme : Nat) : Nat := if scheme = 0 then 0 else if scheme = 2 then 16 else 32

/-- Scales of a tile. -/
def scaleCount (scheme : Nat) : Nat := if scheme = 0 then 0 else if scheme = 2 then 64 else 32

/-- Payload bytes of a tile (Table 4.4). -/
def payloadBytes (f : Nat) : Nat := 128 * fmtWidth f

/-- Payload and scale block of a tile in memory (R178). -/
def tileBytes (f scheme : Nat) : Nat := payloadBytes f + scaleCount scheme

/-- Tiles a queue holds (Table 4.4). -/
def queueTiles (f : Nat) : Nat := min 8 (8192 / payloadBytes f)

/-- Groups of four. -/
def groups4 : List Nat → List (Nat × Nat × Nat × Nat)
  | a :: b :: c :: d :: rest => (a, b, c, d) :: groups4 rest
  | _ => []

/-- Elements packed in storage order: four of them fill w / 2 bytes, little-endian (R71). -/
def packElems (w : Nat) (es : List Nat) : List Byte :=
  (groups4 es).flatMap fun (a, b, c, d) =>
    leBytes (w / 2) (a % 2 ^ w + b % 2 ^ w * 2 ^ w + c % 2 ^ w * 2 ^ (2 * w) + d % 2 ^ w * 2 ^ (3 * w))

/-- `n` elements of width `w` from packed bytes. -/
def unpackElems (w n : Nat) (bs : List Byte) : List Nat :=
  (List.range n).map fun i =>
    let g := leNat ((bs.drop (i / 4 * (w / 2))).take (w / 2))
    g / 2 ^ (w * (i % 4)) % 2 ^ w

/-- Storage index of element (i, j) (R71). -/
def storIx (transposed : Bool) (i j : Nat) : Nat := if transposed then 32 * j + i else 32 * i + j

end Sys2Proof.Machine

namespace Sys2Proof

open Machine

/-- Header bytes 0 to 27 (Table 4.3). -/
def TileHdr.bytes (h : TileHdr) : List Byte :=
  leBytes 1 (h.kind + 16 * h.fmt) ++
    leBytes 1 (h.scheme + (if h.poison then 4 else 0) + (if h.spilled then 8 else 0) + (if h.transposed then 16 else 0)) ++
    leBytes 1 h.vrows ++ leBytes 1 h.vcols ++ leBytes 2 h.epoch ++ leBytes 2 h.stream ++ leBytes 4 h.seq ++
    leBytes 2 h.trow ++ leBytes 2 h.tcol ++ leBytes 4 h.cscale ++ leBytes 4 h.aux ++ leBytes 2 h.ctx ++ leBytes 2 0

def Tile.body (t : Tile) : List Byte :=
  packElems (fmtWidth t.hdr.fmt) t.elems ++ t.scales.map (BitVec.ofNat 8 ·)

/-- CRC over header bytes 0-27, payload and scale block. -/
def Tile.crcOf (t : Tile) : Nat := crc32c (t.hdr.bytes ++ t.body)

def Tile.crcOk (t : Tile) : Bool := t.hdr.crc == t.crcOf

/-- The tile with its CRC written. -/
def Tile.sealed (t : Tile) : Tile := { t with hdr := { t.hdr with crc := t.crcOf } }

end Sys2Proof

namespace Sys2Proof.Machine

/-! ### Decoded values (R131, R132) -/

/-- CSCALE of a tile under S2 or S3 that is zero, negative, infinite or NaN. -/
def cscaleBad (c : Nat) : Bool :=
  match fp32 c with
  | .fin s m _ => s || m == 0
  | _ => true

end Sys2Proof.Machine

namespace Sys2Proof

open Machine

def TileHdr.badScale (h : TileHdr) : Bool := (h.scheme == 2 || h.scheme == 3) && cscaleBad h.cscale

end Sys2Proof

namespace Sys2Proof.Machine

/-- The value of a block scale: none for a block NaN. -/
def scaleVal (scheme sc : Nat) : Option Val :=
  if scheme = 2 then (match decodeElem 0xC sc with
    | .fin s m e => some (.fin s m e)
    | _ => none)
  else if sc = 0xFF then none else some (.fin false 1 ((sc : Int) - 127))

/-- Decoded value of an encoded element under a scheme, its scale and a coarse scale (Table 6.2). -/
def decodeScaled (f scheme enc sc : Nat) (c : Val) : Val :=
  let v := decodeElem f enc
  match scheme with
  | 0 => v
  | _ => match scaleVal scheme sc with
    | none => .nan
    | some x => match v with
      | .fin _ _ _ =>
        let y := v.mul x
        if scheme = 1 then (if f = 8 then y.mul (.fin false 1 (-6)) else y) else y.mul c
      | _ => v

end Sys2Proof.Machine

namespace Sys2Proof

open Machine

/-- Decoded value of element (i, j). -/
def Tile.val (t : Tile) (i j : Nat) : Val :=
  let ix := storIx t.hdr.transposed i j
  if t.hdr.badScale then .zero
  else decodeScaled t.hdr.fmt t.hdr.scheme (t.elems.getD ix 0) (t.scales.getD (ix / max 1 (blockSize t.hdr.scheme)) 0)
    (fp32 t.hdr.cscale)

/-- Encoding of element (i, j), for FP32 operands. -/
def Tile.enc (t : Tile) (i j : Nat) : Nat := t.elems.getD (storIx t.hdr.transposed i j) 0

end Sys2Proof

namespace Sys2Proof.Machine

/-! ### Conversion into a format and scheme (R143-R149) -/

/-- Arithmetic counters of one step (R156). -/
structure ACnt where
  sat   : Nat
  flush : Nat
  nan   : Nat
  inf   : Nat
  deriving DecidableEq, Repr

def ACnt.zero : ACnt := ⟨0, 0, 0, 0⟩

def ACnt.add (a b : ACnt) : ACnt := ⟨a.sat + b.sat, a.flush + b.flush, a.nan + b.nan, a.inf + b.inf⟩

/-- Exponent of the largest element (Table 6.8). -/
def emaxOf : Nat → Int
  | 3 => 8 | 4 => 15 | 5 => 4 | 6 => 2 | 7 => 2 | _ => 0

/-- A finite positive value as mantissa and exponent. -/
def Val.parts : Val → Nat × Int
  | .fin _ m e => (m, e)
  | _ => (0, 0)

/-- The NaN of an element of this format makes its block NaN (Table 6.7). -/
def nanBlocks (f scheme : Nat) : Bool := scheme != 0 && (f == 5 || f == 6 || f == 7 || f == 8)

/-- The scale code of a block with largest magnitude `amax` (R147, R148). -/
def blockScale (f scheme : Nat) (c amax : Val) : Nat :=
  let (am, ae) := amax.parts
  let (cm, ce) := c.parts
  if scheme = 2 then
    if am = 0 then 0x38
    else
      let (fm, fe) := (decodeElem f (fmtMax f)).parts
      let (num, den) := scaled am (cm * fm) (ae - ce - fe)
      ((List.range 0x7E).map (· + 1)).find? (fun u =>
        let (um, ue) := (decodeElem 0xC u).parts
        let (a, b) := scaled um 1 ue
        num * b ≤ a * den) |>.getD 0x7E
  else if am = 0 then 127
  else
    let (num, den) := if scheme = 3 then scaled am cm (ae - ce) else scaled am 1 ae
    let k := log2Quot num den - emaxOf f + 127
    if k < 0 then 0 else min 254 k.toNat

/-- What a block converts into. -/
structure BlockOut where
  elems : List Nat
  scale : Nat
  cnt   : ACnt
  poison : Bool
  deriving DecidableEq, Repr

/-- One block of values (none: outside the valid region) converted into a format and scheme with coarse scale `c`. -/
def convBlock (f scheme : Nat) (c : Val) (vals : List (Option Val)) : BlockOut :=
  let inside := vals.filterMap id
  let amax := inside.foldl (fun a v => match v with
    | .fin _ _ _ => if a.ltFin v.abs then v.abs else a
    | _ => a) Val.zero
  let blockNan := nanBlocks f scheme && inside.any Val.isNan
  if blockNan then
    ⟨vals.map fun _ => 0, if scheme = 2 then 0x7F else 0xFF, ⟨0, 0, inside.length, 0⟩, false⟩
  else
    let sc := if scheme = 0 then 0 else if inside.isEmpty then (if scheme = 2 then 0x38 else 0x7F) else blockScale f scheme c amax
    let (dm, de) : Nat × Int :=
      if scheme = 0 then (1, 0)
      else
        let (sm, se) := ((scaleVal scheme sc).getD .zero).parts
        let (cm, ce) := c.parts
        if scheme = 1 then (sm, se) else (sm * cm, se + ce)
    let frac := if f = 8 && scheme = 1 then 6 else 0
    let outs := vals.map fun v => v.map fun x => convElem f x dm de frac
    let cnt := outs.foldl (fun (a : ACnt) o => match o with
      | some r => ⟨a.sat + (if r.sat then 1 else 0), a.flush + (if r.flush then 1 else 0), a.nan + (if r.nan then 1 else 0),
          a.inf + (if r.inf then 1 else 0)⟩
      | none => a) ACnt.zero
    let noNan := (fmtNan f).isNone
    ⟨outs.map fun o => (o.map (·.enc)).getD 0, sc, cnt, noNan && inside.any Val.isNan⟩

/-- Cut a list into pieces of `n`. -/
def chunksOf (n : Nat) : Nat → List α → List (List α)
  | 0, _ => []
  | fuel + 1, l => if l.isEmpty then [] else l.take n :: chunksOf n fuel (l.drop n)

/-- 1,024 values in storage order converted into elements and scales; the flag says that a NaN without an encoding
poisons the tile (Table 6.7). -/
def convValues (f scheme : Nat) (c : Val) (vals : List (Option Val)) : List Nat × List Nat × ACnt × Bool :=
  let bs := chunksOf (if scheme = 0 then 32 else blockSize scheme) vals.length vals
  let outs := bs.map (convBlock f scheme c)
  (outs.flatMap (·.elems), if scheme = 0 then [] else outs.map (·.scale),
    outs.foldl (fun a o => a.add o.cnt) ACnt.zero, outs.any (·.poison))

/-- Values of a 32 × 32 matrix in storage order, those outside the region left out. -/
def regionVals (vr vc : Nat) (g : Nat → Nat → Val) : List (Option Val) :=
  (List.range 1024).map fun ix => if ix / 32 < vr && ix % 32 < vc then some (g (ix / 32) (ix % 32)) else none

/-- The value 1.0 as FP32. -/
def fp32One : Nat := 0x3F800000

end Sys2Proof.Machine
end

