-- ==== Sys2Proof/Machine/Flash.lean ====
section
/-! DEFINITION. Package flash (14_boot_and_identity.md R346, Tables 14.7, 14.8): records, their copies and checks. -/

namespace Sys2Proof.Machine

/-- Offsets and largest size of the copies of a record type. -/
def flashCopies (type : Nat) : List Nat :=
  match type with
  | 1 => [0x0]
  | 2 => [0x20000, 0x30000]
  | 3 => [0x10000, 0x11000]
  | 4 => [0x100000]
  | 5 => [0x1000]
  | _ => []

def flashMax (type : Nat) : Nat :=
  match type with
  | 1 => 4096
  | 2 => 65536
  | 3 => 256
  | 4 => 2 ^ 20 + 32
  | 5 => 16384
  | _ => 0

/-- LEN of the record at an offset. -/
def State.flashLen (s : State) (off : Nat) : Nat := s.readNat (mkKey 5 off + 8) 4

def State.flashBytes (s : State) (off len : Nat) : List Byte := s.readBytes (mkKey 5 off) len

/-- The CRC of a record: over its bytes with the field taken as zero. -/
def flashCrc (bs : List Byte) : Nat := crc32c (bs.take 16 ++ zeros 4 ++ bs.drop 20)

/-- A record stands at an offset and its header CRC passes (R346). -/
def State.flashValid (s : State) (type off : Nat) : Bool :=
  let len := s.flashLen off
  32 ≤ len && len ≤ flashMax type &&
    let bs := s.flashBytes off len
    fieldAt bs 0 4 == 0x31524C46 && fieldAt bs 4 1 == type && fieldAt bs 6 2 == 1 &&
      fieldAt bs 16 4 == flashCrc bs

/-- A vendor signature in the last 96 bytes, over the SHA-384 of the record from byte 32 up to it. -/
def vendorSigned (bs : List Byte) : Bool :=
  let n := bs.length
  ecdsaVerify Config.vendorKey (BitVec.ofNat 768 (beNat (slice bs (n - 96) 96))) (sha384 (slice bs 32 (n - 128)))

/-- A copy that counts: its header, and for type 3 its signature. -/
def State.copyValid (s : State) (type off : Nat) : Bool :=
  s.flashValid type off && (type != 3 || vendorSigned (s.flashBytes off (s.flashLen off)))

def State.flashSeq (s : State) (off : Nat) : Nat := s.readNat (mkKey 5 off + 12) 4

/-- The copy in force of a record: the valid one with the higher SEQ. -/
def State.flashCopy (s : State) (type : Nat) : Option Nat :=
  ((flashCopies type).filter (s.copyValid type)).foldl (fun acc o => match acc with
    | none => some o
    | some a => if s.flashSeq a < s.flashSeq o then some o else some a) none

/-- The record in force. -/
def State.flashRecord (s : State) (type : Nat) : Option (List Byte) :=
  (s.flashCopy type).map fun o => s.flashBytes o (s.flashLen o)

/-- A record with its header written: SEQ and CRC filled in. -/
def flashSealed (type seq : Nat) (body : List Byte) : List Byte :=
  let head := leBytes 4 0x31524C46 ++ leBytes 1 type ++ zeros 1 ++ leBytes 2 1 ++ leBytes 4 (32 + body.length) ++ leBytes 4 seq
  let all := head ++ zeros 16 ++ body
  head ++ leBytes 4 (flashCrc all) ++ zeros 12 ++ body

/-- Flash from `off` on is erased: it reads as 0xFF. -/
def State.eraseFlash (s : State) (off n : Nat) : State :=
  { s with mem := { s.mem with cells := s.mem.cells.filter fun c => !(mkKey 5 off ≤ c.1 && c.1 < mkKey 5 off + n) } }

/-- Write a two-copy record: to the copy not in force, erased first, with SEQ + 1. -/
def State.flashWrite (s : State) (type : Nat) (body : List Byte) : State :=
  let cur := s.flashCopy type
  let seq := match cur with
    | some o => s.flashSeq o + 1
    | none => 1
  match (flashCopies type).find? fun o => some o != cur with
  | some o => (s.eraseFlash o (flashMax type)).writeBytes (mkKey 5 o) (flashSealed type seq body)
  | none => s

/-- The identity record as stored, as long as its LEN says. -/
def State.identityRecord (s : State) : List Byte := s.flashBytes 0 (min 4096 (s.flashLen 0))

/-- The first 8 bytes of the SHA-384 of the whole identity record (R261). -/
def State.serialDigest (s : State) : U64 := BitVec.ofNat 64 (leNat ((digestBytes (sha384 s.identityRecord)).take 8))

/-- AKPUB of the identity record (Table 14.8). -/
def State.akpub (s : State) : BitVec 768 := BitVec.ofNat 768 (beNat (slice s.identityRecord 584 96))

/-- Body of the repair record in force; empty when there is none. -/
def State.repairBody (s : State) : List Byte := ((s.flashRecord 2).map (·.drop 32)).getD []

/-! ### Repair entries (Table 14.9, R326) -/

/-- The entries of a repair record's body. -/
def repairEntries (bs : List Byte) : List (List Byte) :=
  (List.range (bs.length / 8)).map fun i => slice bs (8 * i) 8

/-- Failed positions an entry list names: die, row, position. -/
def entriesFailed (es : List (List Byte)) : List (Nat × Nat × Nat) :=
  (es.filter fun e => fieldAt e 0 1 == 1).map fun e => (fieldAt e 1 1, fieldAt e 2 1, fieldAt e 3 1)

/-- Columns retired per die. -/
def entriesRetired (es : List (List Byte)) : List Nat :=
  (List.range 4).map fun d => ((es.find? fun e => fieldAt e 0 1 == 2 && fieldAt e 1 1 == d).map fun e => fieldAt e 2 1).getD 0

/-- HBM rows repaired: stack, pseudo-channel, bank, row. -/
def entriesRows (es : List (List Byte)) : List (Nat × Nat × Nat × Nat) :=
  (es.filter fun e => fieldAt e 0 1 == 3).map fun e => (fieldAt e 1 1, fieldAt e 2 1, fieldAt e 3 1, fieldAt e 4 4)

/-- The body of the repair record for the present repair state. -/
def Grid.repairBytes (g : Grid) : List Byte :=
  (g.failed.flatMap fun f => leBytes 1 1 ++ leBytes 1 f.1 ++ leBytes 1 f.2.1 ++ leBytes 1 f.2.2 ++ zeros 4) ++
    ((List.range 4).flatMap fun d =>
      if g.retired.getD d 0 = 0 then [] else leBytes 1 2 ++ leBytes 1 d ++ leBytes 1 (g.retired.getD d 0) ++ zeros 5) ++
    (g.hbmRows.flatMap fun r => leBytes 1 3 ++ leBytes 1 r.1 ++ leBytes 1 r.2.1 ++ leBytes 1 r.2.2.1 ++ leBytes 4 r.2.2.2) ++
    (g.elements.flatMap fun e => leBytes 1 4 ++ leBytes 1 e.kind ++ leBytes 2 e.index ++ leBytes 1 e.dir ++ zeros 3)

/-- Write the present repair state to the record (R326, R327). -/
def State.writeRepair (s : State) : State := s.flashWrite 2 s.grid.repairBytes

/-- Whether a flash write fails, which no operand says: a free value (log 2). -/
def State.flashFails (s : State) : Bool × State :=
  let (v, s1) := s.draw
  (v.getLsbD 0, s1)

end Sys2Proof.Machine
end

