-- ==== Sys2Proof/Machine/Codec.lean ====
section
/-! DEFINITION. The lossless exponent-dictionary codec (07_memory_tiers.md R179-R182). -/

namespace Sys2Proof.Machine

/-- Bytes of an element of FMT 0 (FP32), 1 (BF16), 2 (FP16). -/
def codecSize (f : Nat) : Nat := if f = 0 then 4 else 2

/-- Exponent of an element. -/
def codecExp (f x : Nat) : Nat :=
  if f = 0 then bits x 30 23 else if f = 1 then bits x 14 7 else bits x 14 10

/-- Mantissa bits. -/
def codecMant (f : Nat) : Nat := if f = 0 then 23 else if f = 1 then 7 else 10

/-- Exponent bits. -/
def codecExpBits (f : Nat) : Nat := if f = 2 then 5 else 8

/-- Sign and mantissa of an element as one field: sign above mantissa. -/
def codecSm (f x : Nat) : Nat :=
  x % 2 ^ codecMant f + (x / 2 ^ (codecMant f + codecExpBits f) % 2) * 2 ^ codecMant f

/-- The element of a sign-and-mantissa field and an exponent. -/
def codecJoin (f sm e : Nat) : Nat :=
  sm % 2 ^ codecMant f + e % 2 ^ codecExpBits f * 2 ^ codecMant f +
    sm / 2 ^ codecMant f * 2 ^ (codecMant f + codecExpBits f)

/-- Bytes of the sign-and-mantissa stream of n elements (R180). -/
def smBytes (f n : Nat) : Nat := if f = 0 then 3 * n else if f = 1 then n else ceilDiv (11 * n) 8

/-- The stream: a little-endian bit stream of fields of 8, 11 or 24 bits. -/
def packSm (f : Nat) (sms : List Nat) : List Byte :=
  let w := codecMant f + 1
  let n := sms.foldr (fun x acc => x + acc * 2 ^ w) 0
  leBytes (smBytes f sms.length) n

def unpackSm (f n : Nat) (bs : List Byte) : List Nat :=
  let w := codecMant f + 1
  let x := leNat (bs.take (smBytes f n))
  (List.range n).map fun i => x / 2 ^ (w * i) % 2 ^ w

def padTo8 (bs : List Byte) : List Byte := bs ++ zeros (alignUp bs.length 8 - bs.length)

/-- Elements of a byte string. -/
def codecElems (f : Nat) (bs : List Byte) : List Nat :=
  (List.range (bs.length / codecSize f)).map fun i => fieldAt bs (codecSize f * i) (codecSize f)

/-- The dictionary: the 15 most frequent exponents, most frequent first, ties to the lower value (R181). -/
def codecDict (f : Nat) (es : List Nat) : List Nat :=
  let exps := es.map (codecExp f)
  let present := ((List.range 256).filter fun e => exps.contains e).map fun e => (e, exps.count e)
  ((present.mergeSort fun a b => b.2 < a.2 || (a.2 == b.2 && a.1 ≤ b.1)).take 15).map (·.1)

/-- Two 4-bit codes a byte, even element low. -/
def packCodes : List Nat → List Byte
  | [] => []
  | [a] => [BitVec.ofNat 8 a]
  | a :: b :: rest => BitVec.ofNat 8 (a + 16 * b) :: packCodes rest

/-- A stored block (R180). -/
def storedBlock (f : Nat) (es : List Nat) : List Byte :=
  padTo8 (leBytes 1 0 ++ leBytes 1 f ++ leBytes 2 es.length ++ zeros 4 ++ es.flatMap (leBytes (codecSize f)))

/-- A dictionary block (R180). -/
def dictBlock (f : Nat) (es : List Nat) : List Byte :=
  let d := codecDict f es
  let code := fun x => (d.findIdx? (· == codecExp f x)).getD 15
  let esc := es.filter fun x => code x == 15
  padTo8 (leBytes 1 1 ++ leBytes 1 f ++ leBytes 2 es.length ++ leBytes 2 esc.length ++ zeros 2 ++
    padTo 16 (d.map (BitVec.ofNat 8 ·)) ++ packCodes (es.map code) ++ esc.map (fun x => BitVec.ofNat 8 (codecExp f x)) ++
    packSm f (es.map (codecSm f)))

/-- The shorter block; the stored one on a tie (R181). -/
def encodeBlock (f : Nat) (es : List Nat) : List Byte :=
  let a := dictBlock f es
  let b := storedBlock f es
  if a.length < b.length then a else b

/-- Elements of a full block. -/
def blockElems (f : Nat) : Nat := 4096 / codecSize f

def cutBlocks (n : Nat) : Nat → List Nat → List (List Nat)
  | 0, _ => []
  | fuel + 1, l => if l.isEmpty then [] else l.take n :: cutBlocks n fuel (l.drop n)

/-- MAGIC of a stream header (Table 7.6). -/
def codecMagic : Nat := 0x31445845

/-- The blocks of a byte string (R181); `storedOnly` packs stored blocks (R183). -/
def encodeBlocks (f : Nat) (storedOnly : Bool) (bs : List Byte) : List (List Byte) :=
  let es := codecElems f bs
  (cutBlocks (blockElems f) es.length es).map fun b => if storedOnly then storedBlock f b else encodeBlock f b

/-- An encoded stream of `len` decoded bytes from its blocks (R179). A length or block count that does not fit its 32-bit
field is written modulo 2^32 (log 130, DESIGN CHOICE). -/
def streamOf (f len : Nat) (blocks : List (List Byte)) : List Byte :=
  let body := blocks.flatten
  leBytes 4 codecMagic ++ leBytes 1 f ++ zeros 3 ++ leBytes 8 len ++ leBytes 4 (ceilDiv len 4096) ++
    leBytes 4 (32 + body.length) ++ zeros 8 ++ body

def encodeStream (f : Nat) (storedOnly : Bool) (bs : List Byte) : List Byte :=
  streamOf f bs.length (encodeBlocks f storedOnly bs)

/-! ### Decoding (R180, R182) -/

/-- A codec check that failed: code and item index (Table 7.7). -/
abbrev CodecFail := Nat × Nat

/-- The stream header under 0x0060 for a source of `len` bytes in format `f`. -/
def streamHeaderOk (f len : Nat) (bs : List Byte) : Bool :=
  32 ≤ len && fieldAt bs 0 4 == codecMagic && fieldAt bs 4 1 == f && allZero (slice bs 5 3) &&
    fieldAt bs 8 8 % codecSize f == 0 && fieldAt bs 16 4 == ceilDiv (fieldAt bs 8 8) 4096 && fieldAt bs 20 4 == len &&
    allZero (slice bs 24 8)

/-- 4-bit codes of `n` elements. -/
def unpackCodes (n : Nat) (bs : List Byte) : List Nat :=
  (List.range n).map fun i => (bs.getD (i / 2) 0).toNat / 16 ^ (i % 2) % 16

/-- Exponents of the elements: dictionary entry, or the next escape byte. -/
def codecExps (dict : List Byte) : List Nat → List Byte → List Nat
  | [], _ => []
  | c :: cs, esc =>
    if c = 15 then ((esc.head?).getD 0).toNat :: codecExps dict cs (esc.drop 1)
    else (dict.getD c 0).toNat :: codecExps dict cs esc

/-- Bytes of a block by its KIND, n and x. -/
def blockBytes (f kind n x : Nat) : Nat :=
  if kind = 0 then alignUp (8 + n * codecSize f) 8 else alignUp (24 + ceilDiv n 2 + x + smBytes f n) 8

/-- The decoded bytes of a dictionary block whose header has passed. -/
def dictElems (f n x : Nat) (bs : List Byte) : List Nat :=
  let codes := unpackCodes n (bs.drop 24)
  let exps := codecExps (slice bs 8 16) codes (bs.drop (24 + ceilDiv n 2))
  let sms := unpackSm f n (bs.drop (24 + ceilDiv n 2 + x))
  (sms.zip exps).map fun (sm, e) => codecJoin f sm e

/-- Blocks b, b + 1, ... that hold `left` decoded bytes, from encoded bytes: each block's encoded length and decoded
bytes. A block that runs past the end of the stream fails 0x0063 (log 25). -/
def decodeBlocks (f nblk : Nat) : Nat → Nat → Nat → List Byte → Except CodecFail (List (Nat × List Byte))
  | 0, _, _, bs => if bs.isEmpty then .ok [] else .error (0x0063, nblk)
  | fuel + 1, b, left, bs =>
    if bs.length < 8 then .error (0x0063, nblk) else
    let kind := fieldAt bs 0 1
    let n := fieldAt bs 2 2
    let x := fieldAt bs 4 2
    if !(kind ≤ 1 && fieldAt bs 1 1 == f && n == min left 4096 / codecSize f && x ≤ n && (kind == 1 || x == 0) &&
        fieldAt bs 6 2 == 0) then .error (0x0061, b)
    else
      let len := blockBytes f kind n x
      if bs.length < len then .error (0x0063, nblk)
      else if kind == 1 && (unpackCodes n (bs.drop 24)).count 15 != x then .error (0x0062, b)
      else
        let out := if kind = 0 then slice bs 8 (n * codecSize f)
          else (dictElems f n x bs).flatMap (leBytes (codecSize f))
        match decodeBlocks f nblk fuel (b + 1) (left - 4096) (bs.drop len) with
        | .ok rest => .ok ((len, out) :: rest)
        | .error e => .error e

/-- A whole stream, validated before anything is written (R182). -/
def decodeStream (f len : Nat) (bs : List Byte) : Except CodecFail (List (Nat × List Byte)) :=
  if !streamHeaderOk f len bs then .error (0x0060, 0)
  else
    let nblk := fieldAt bs 16 4
    decodeBlocks f nblk nblk 0 (fieldAt bs 8 8) (bs.drop 32)

/-! ### Packed pages (R183) -/

/-- The packed form of a KV page in element format `f`. -/
def packPage (f ctx page step : Nat) (bs : List Byte) : List Byte :=
  let body := if f ≤ 2 then encodeStream f false bs else encodeStream 1 true bs
  leBytes 4 0x3150564B ++ leBytes 2 ctx ++ zeros 2 ++ leBytes 4 page ++ leBytes 4 (32 + body.length) ++ leBytes 8 step ++
    zeros 8 ++ body

/-- The page of a packed form. -/
def unpackPage (bs : List Byte) : Option (List Byte) :=
  let f := fieldAt bs 36 1
  let len := fieldAt bs 12 4 - 32
  match decodeStream f len (slice bs 32 len) with
  | .ok blocks => some (blocks.flatMap (·.2))
  | .error _ => none

/-- Bytes between the slots of packed pages in an eviction target (R183). -/
def packedSlot : Nat := 65792

end Sys2Proof.Machine
end

