-- ==== Sys2Proof/Machine/Cores.lean ====
section
/-! DEFINITION. Cores, stations, channels and counters (04_stations_and_streams.md; 05_fabric.md): what the steps,
the stream engines, the fabric and the invocations share. -/

namespace Sys2Proof.Machine

/-! ### Rectangles and stations -/

def Rect.has (r : Rect) (c : Nat) : Bool :=
  r.row0 ≤ coreRow c && coreRow c < r.row0 + r.nrows && r.col0 ≤ coreCol c && coreCol c < r.col0 + r.ncols

/-- Cores in row-major order. -/
def Rect.cores (r : Rect) : List Nat :=
  (List.range r.nrows).flatMap fun i => (List.range r.ncols).map fun j => coreIx (r.row0 + i) (r.col0 + j)

def Image.cores (im : Image) : List Nat := im.stations.flatMap fun s => s.rect.cores

/-- Station of a core. -/
def Image.stationOf (im : Image) (c : Nat) : Option Nat := im.stations.findIdx? fun s => s.rect.has c

def Image.station? (im : Image) (i : Nat) : Option Station := im.stations[i]?

/-- Position of a core inside its station's rectangle, row-major. -/
def Rect.posOf (r : Rect) (c : Nat) : Nat := (coreRow c - r.row0) * r.ncols + (coreCol c - r.col0)

/-- A queue byte: format, scheme, binding (Table 4.2). -/
def qFmt (b : Nat) : Nat := b % 16
def qSch (b : Nat) : Nat := b / 16 % 4
def qBind (b : Nat) : Nat := b / 64 % 4

/-- Queue byte of input queue n, and of output queue n. -/
def Station.iq (s : Station) (n : Nat) : Nat := s.queues.getD n 0
def Station.oq (s : Station) (n : Nat) : Nat := s.queues.getD (4 + n) 0

/-! ### Lookup -/

def State.cfg? (s : State) (ctx handle : Nat) : Option Cfg :=
  (s.ctx? ctx).bind fun c => c.cfgs.find? fun g => g.handle == handle

def State.modCfg (s : State) (ctx handle : Nat) (f : Cfg → Cfg) : State :=
  s.modCtx ctx fun c => { c with cfgs := c.cfgs.map fun g => if g.handle == handle then f g else g }

def State.core? (s : State) (c : Nat) : Option Core := s.fab.cores.find? fun x => x.idx == c

def State.modCore (s : State) (c : Nat) (f : Core → Core) : State :=
  s.modFab fun g => { g with cores := g.cores.map fun x => if x.idx == c then f x else x }

def State.inv? (s : State) (i : Nat) : Option Inv := s.fab.invs.find? fun x => x.id == i

def State.modInv (s : State) (i : Nat) (f : Inv → Inv) : State :=
  s.modFab fun g => { g with invs := g.invs.map fun x => if x.id == i then f x else x }

def State.chan? (s : State) (ch : ChanId) : Option Chan := s.fab.chans.find? fun x => x.id == ch

def State.modChan (s : State) (ch : ChanId) (f : Chan → Chan) : State :=
  s.modFab fun g => { g with chans := g.chans.map fun x => if x.id == ch then f x else x }

/-- The image a core runs. -/
def State.imageOf (s : State) (ctx handle : Nat) : Option Image := (s.cfg? ctx handle).map (·.image)

/-- The context a core's configuration belongs to. -/
def State.ctxByUid (s : State) (u : Nat) : Option Ctx := s.ctxs.find? fun c => c.uid == u

/-- A core's context, image, and station. -/
def State.coreStation (s : State) (c : Core) : Option (Ctx × Image × Station) :=
  match c.occupant.bind s.ctxByUid with
  | some x => match x.cfgs.find? fun g => g.handle == c.handle with
    | some g => (g.image.station? c.station).map fun st => (x, g.image, st)
    | none => none
  | none => none

/-! ### Fresh core state (R216) -/

def Engine.fresh (prog : Nat) (pool : List U64) : Engine :=
  { prog, ip := 0, ended := prog == 0xFFFF, base := 0, dbase := 0, dlen := 0, runB := 0, pitch := 0,
    counts := List.replicate 6 1, strides := List.replicate 6 0, rowLvl := 7, colLvl := 7, rows := 0, cols := 0,
    shapePool := 0, fmt := 0, scheme := 0, pad := 0, transposed := false, rowMajor := false, gathers := [], run := none,
    pool }

/-- A sync counter rises, up to 0xFFFF (R82). -/
def Core.signal (x : Core) (c n : Nat) : Core := { x with syncs := x.syncs.modify c (satAdd 16 · n) }

def Acc.empty : Acc := ⟨0, 0, 0, 0, false, []⟩

def four (a : α) : List α := List.replicate 4 a

/-- A core as it stands at launch: queues empty, accumulators +0 with an empty region, counters zero. -/
def Core.fresh (idx : Nat) (occupant : Option Nat) (handle epoch : Nat) (inv : Option Nat) (station : Nat)
    (engines : List Engine) (no : List (Nat × Nat)) : Core :=
  { idx, occupant, handle, epoch, inv, station, pc := 0, rep := 0, ended := inv.isNone, iqs := four [], oqs := four [],
    sent := four 0, fed := four 0, ipos := four 0, accs := four Acc.empty, loops := four 0, tickets := four 0, drawn := four (0, List.replicate 24 0),
    syncs := List.replicate 8 0, engines, ticket := none, ticketNos := no, katDue := false, fenceSent := false }

/-! ### Streams of a configuration as channels -/

/-- Destination cores of a tree in the order of a chain: rows in order, alternately west to east and east to west
(R114). -/
def Rect.chainOrder (r : Rect) : List Nat :=
  (List.range r.nrows).flatMap fun i =>
    let cols := (List.range r.ncols).map fun j => coreIx (r.row0 + i) (r.col0 + j)
    if i % 2 = 0 then cols else cols.reverse

/-- Source, destination and whether it is a link between two destinations, of each channel of a stream. -/
def streamLegs (im : Image) (st : StreamEnt) (chain : Bool) : List (Nat × Nat × Bool) :=
  match st.kind with
  | 0 => st.routes.map fun r => (r.src, r.dstEp, false)
  | 2 =>
    let root := ((st.routes.head?).map (·.src)).getD 0
    match im.station? st.dst with
    | some d =>
      if chain then
        let order := d.rect.chainOrder
        (root :: order.dropLast).zip order |>.mapIdx fun i p => (p.1, p.2, i != 0)
      else d.rect.cores.map fun c => (root, c, false)
    | none => []
  | _ => []

/-- Stream that an output queue of a core feeds: of the streams from one station queue, the one that leaves this core. -/
def Image.streamFrom? (im : Image) (core q : Nat) : Option Nat :=
  im.streams.findIdx? fun t => t.kind != 1 && t.srcQ == q && t.routes.any fun r => r.src == core

def Image.streamFrom (im : Image) (core q : Nat) : Nat := (im.streamFrom? core q).getD 0

/-- Tiles the input queue of a stream's destination holds (Table 4.4). -/
def streamCap (im : Image) (st : StreamEnt) : Nat :=
  match im.station? st.dst with
  | some d => queueTiles (qFmt (d.iq st.dstQ))
  | none => 0

def Chan.fresh (id : ChanId) (src srcQ dst dstQ epoch credits : Nat) (link : Bool) : Chan :=
  { id, src, srcQ, dst, dstQ, epoch, credits, owed := 0, flight := [], nextSeq := 0, expSeq := 0, spilling := false,
    drip := [], hbm := [], spillCount := 0, fwd := [], link }

/-- The channels of a configuration; a producer holds no credit while `ready` says that its consumer has not switched
(R126). -/
def Cfg.channels (g : Cfg) (ctx : Nat) (ready : Nat → Bool) : List Chan :=
  (g.image.streams.mapIdx fun si st =>
    (streamLegs g.image st (g.chains.contains si)).mapIdx fun ri leg =>
      Chan.fresh ⟨ctx, g.handle, si, ri⟩ leg.1 st.srcQ leg.2.1 st.dstQ g.epoch
        (if ready leg.2.1 then streamCap g.image st else 0) leg.2.2).flatten

/-- A channel belongs to the configuration a core holds. -/
def State.chanOf (s : State) (c : Core) (h : Chan) : Bool :=
  h.epoch == c.epoch && h.id.handle == c.handle && (c.occupant.bind s.ctxByUid).any fun x => x.id == h.id.ctx

/-- Channels that an output queue of a core feeds: one, or all branches of a tree. -/
def State.outChans (s : State) (c : Core) (q : Nat) : List Chan :=
  s.fab.chans.filter fun h => h.src == c.idx && h.srcQ == q && s.chanOf c h && !h.link

/-- The channel that feeds an input queue of a core. -/
def State.inChan (s : State) (c : Core) (q : Nat) : Option Chan :=
  s.fab.chans.find? fun h => h.dst == c.idx && h.dstQ == q && s.chanOf c h

/-- The onward link of a chain from a channel's destination. -/
def State.onward (s : State) (h : Chan) : Option Chan :=
  s.fab.chans.find? fun k => k.link && k.id.ctx == h.id.ctx && k.id.handle == h.id.handle && k.id.stream == h.id.stream &&
    k.src == h.dst

/-- Entries taken of a destination's queue that holds tiles `ts`: those tiles, and on a chain those not forwarded (R115). -/
def State.occupied (s : State) (h : Chan) (ts : List Tile) : Nat :=
  let fwd := ((s.onward h).map (·.fwd)).getD []
  ((ts ++ fwd).map fun t => (t.hdr.kind == 2, t.hdr.seq)).eraseDups.length

/-- Remove the head of an input queue; an entry that becomes free is owed to the producer (R102). -/
def State.popIq (s : State) (core q : Nat) : State :=
  match s.core? core with
  | none => s
  | some x =>
    let ts := x.iqs.getD q []
    let s1 := s.modCore core fun x => { x with iqs := x.iqs.modify q (·.drop 1) }
    match s.inChan x q with
    | some h => s1.modChan h.id fun k => { k with owed := k.owed + (s.occupied h ts - s.occupied h (ts.drop 1)) }
    | none => s1

def State.popIqs (s : State) (core : Nat) (qs : List Nat) : State := qs.foldl (fun s q => s.popIq core q) s

/-- A link forwards its oldest stored tile when it holds a credit; the entry then free at its source is owed upstream. -/
def State.forward (s : State) (l : Chan) : State :=
  match s.chan? l.id with
  | some k => match k.fwd with
    | t :: rest =>
      if !k.link || k.credits = 0 then s
      else
        let up := s.fab.chans.find? fun h => h.id.ctx == k.id.ctx && h.id.handle == k.id.handle && h.id.stream == k.id.stream &&
          h.dst == k.src
        let s1 := s.modChan k.id fun k => { k with fwd := rest, flight := k.flight ++ [t], credits := k.credits - 1 }
        match up with
        | some h =>
          let ts := ((s.core? k.src).map fun x => x.iqs.getD h.dstQ []).getD []
          s1.modChan h.id fun h => { h with owed := h.owed + (s.occupied h ts - s1.occupied h ts) }
        | none => s1
    | [] => s
  | none => s

/-- A link forwards as long as it holds tiles and credits. -/
def State.forwardAll (s : State) (l : Chan) : State := Nat.repeat (fun s : State => s.forward l) l.fwd.length s

/-- Every channel of an output queue holds a credit (R102). -/
def credited (hs : List Chan) : Bool := hs.all fun h => 0 < h.credits

/-- Capacity of a queue from its byte. -/
def qCap (b : Nat) : Nat := queueTiles (qFmt b)

/-! ### Station counters (Tables 4.13, 5.8, 6.11) -/

/-- Two records added up, saturating at each counter's width; the peak is the larger. -/
def StCnt.add (a b : StCnt) : StCnt :=
  ⟨satAdd 32 a.tilesOut b.tilesOut, satAdd 32 a.spillEvents b.spillEvents, satAdd 32 a.spillTiles b.spillTiles,
    satAdd 32 a.spillHbm b.spillHbm, max a.spillPeak b.spillPeak, satAdd 16 a.crcErrors b.crcErrors,
    satAdd 16 a.staleDrops b.staleDrops, satAdd 16 a.lateDiscards b.lateDiscards, satAdd 16 a.formatDrops b.formatDrops,
    satAdd 16 a.chain b.chain, satAdd 32 a.sat b.sat, satAdd 32 a.flush b.flush, satAdd 32 a.nanOut b.nanOut,
    satAdd 32 a.infOut b.infOut, satAdd 32 a.poisonOut b.poisonOut, satAdd 16 a.lenMismatch b.lenMismatch,
    satAdd 16 a.gatherOob b.gatherOob, a.gated || b.gated, a.torn || b.torn⟩

/-- The fabric counter block (Table 5.8). -/
def StCnt.fabric (c : StCnt) : List Byte :=
  leBytes 4 c.tilesOut ++ leBytes 4 c.spillEvents ++ leBytes 4 c.spillTiles ++ leBytes 4 c.spillHbm ++
    leBytes 2 c.spillPeak ++ leBytes 2 c.crcErrors ++ leBytes 2 c.staleDrops ++ leBytes 2 c.lateDiscards ++
    leBytes 2 c.formatDrops ++ leBytes 2 c.chain ++ zeros 4

/-- The arithmetic counter block (Table 6.11). -/
def StCnt.arith (c : StCnt) : List Byte :=
  leBytes 4 c.sat ++ leBytes 4 c.flush ++ leBytes 4 c.nanOut ++ leBytes 4 c.infOut

/-- A station record (Table 4.13). -/
def StCnt.record (c : StCnt) (station : Nat) : List Byte :=
  c.fabric ++ c.arith ++ leBytes 4 c.poisonOut ++ leBytes 2 c.lenMismatch ++ leBytes 2 c.gatherOob ++ leBytes 2 station ++
    leBytes 1 ((if c.gated then 1 else 0) + (if c.torn then 2 else 0)) ++ zeros 5

/-- Count something in the totals since boot and, inside an invocation, in its station record (R128, R157). -/
def State.count (s : State) (inv : Option Nat) (station : Nat) (d : StCnt) : State :=
  let s1 := s.modFab fun f => { f with totals := f.totals.add d }
  match inv with
  | some i => s1.modInv i fun v => { v with stations := v.stations.modify station (·.add d) }
  | none => s1

/-- Count what a core did. -/
def State.countCore (s : State) (c : Core) (d : StCnt) : State := s.count c.inv c.station d

/-! ### Memory ranges of SRAM -/

/-- A range set to zero without poison, where unlisted bytes read zero. -/
def State.zeroRange (s : State) (k len : Nat) : State :=
  s.modMem fun m => { m with cells := m.cells.filter fun c => !(k ≤ c.1 && c.1 < k + len),
                             poison := m.poison.filter fun w => !(k ≤ w && w < k + len) }

/-- Bytes of a core's SRAM (R13). -/
def sramBytes : Nat := 2 ^ 18

/-- Key of a core's SRAM. -/
def sramKey (c : Nat) : Nat := mkKey 2 (c * sramBytes)

/-! ### Spill shares and configuration stores (05_fabric.md R119, 09_serving.md R215) -/

/-- Edge group behind a core's HBM edge port. -/
def Grid.groupOf (g : Grid) (core : Nat) : Nat := 2 * g.dieOf (coreCol core) + (if coreRow core < 40 then 0 else 1)

/-- Key of a core's part, of `size` bytes, in the reservations of a kind. -/
def State.reserveKey (s : State) (ctx handle kind size : Nat) (im : Image) (core : Nat) : Option Nat :=
  let g := s.grid.groupOf core
  let peers := im.cores.filter fun c => s.grid.groupOf c == g
  (s.mem.reserves.find? fun r => r.ctx == ctx && r.handle == handle && r.kind == kind && hbmGroup (offOf r.base) == g).map fun r =>
    r.base + size * ((peers.findIdx? (· == core)).getD 0)

/-- Key of a core's HBM spill share. -/
def State.shareKey (s : State) (ctx handle : Nat) (im : Image) (core : Nat) : Option Nat :=
  s.reserveKey ctx handle 1 65536 im core

/-- What a core's swap to a context reads (09_serving.md R215, R216): 4 KiB of the context's store for each of its
configurations on the core. -/
def State.storeReads (s : State) (c : Ctx) (core : Nat) : List (Nat × Nat) :=
  (c.cfgs.filter fun g => g.image.cores.contains core).filterMap fun g =>
    (s.reserveKey c.id g.handle 0 4096 g.image core).map fun k => (k, 4096)

/-! ### I/O-die units -/

/-- The Mandoline instance, by I/O die, that a command's work goes to: by its source in DDR or host memory, else by the
edge of its destination (log 27). -/
def mandolineOf (src dst : Nat) : Nat :=
  match spaceOf src with
  | 1 => offOf src / 2 ^ 40
  | 3 => 0
  | _ => match spaceOf dst with
    | 0 => hbmGroup (offOf dst) % 2
    | 1 => offOf dst / 2 ^ 40 % 2
    | 2 => if coreRow (offOf dst / 2 ^ 18) < 40 then 0 else 1
    | _ => 0

/-- An I/O-die unit that failed its known-answer round (R314). -/
def State.unitFailed (s : State) (kind die : Nat) : Bool := s.grid.elements.any fun e => e.kind == kind && e.index == die

end Sys2Proof.Machine
end

