-- ==== Sys2Proof/Machine/MemoryCmds.lean ====
section
/-! DEFINITION. MEM_ALLOC, MEM_FREE, MEM_COPY and MEM_FILL (07_memory_tiers.md R168-R172). -/

namespace Sys2Proof.Machine

/-! ### MEM_ALLOC (R168) -/

/-- Grants of a job in a space, lowest offset first. -/
def Job.grantsIn (j : Job) (space : Nat) : List (Nat × Nat) :=
  ((j.grants ++ j.hosts).filter fun g => spaceOf g.1 == space).mergeSort fun a b => a.1 ≤ b.1

/-- Extents in use inside a job's grants: allocations and module reservations. -/
def Memory.taken (m : Memory) (job : Nat) : List (Nat × Nat) :=
  (m.allocs.filter (·.job == job)).map (fun a => (a.base, a.len)) ++
    (m.reserves.filter (·.job == job)).map (fun r => (r.base, r.len))

/-- First fit from `at_` in a range that ends at `stop`: a blocked candidate moves behind the extent that blocks it. -/
def fitFrom (taken : List (Nat × Nat)) (size align stop : Nat) : Nat → Nat → Option Nat
  | 0, _ => none
  | fuel + 1, at_ =>
    let p := alignUp at_ align
    if stop < p + size then none
    else match taken.find? fun t => overlaps p size t.1 t.2 with
      | some t => fitFrom taken size align stop fuel (max (t.1 + t.2) (p + 1))
      | none => some p

/-- Alignment is of the offset. -/
def fitGrant (taken : List (Nat × Nat)) (size align : Nat) (g : Nat × Nat) : Option Nat :=
  fitFrom taken size align (g.1 + g.2) (taken.length + 1) g.1

/-- The lowest fitting extent of a job's grants in a space. -/
def State.firstFit (s : State) (j : Job) (space size align : Nat) : Option Nat :=
  (j.grantsIn space).findSome? fun g => fitGrant (s.mem.taken j.num) size align g

def checkMemAlloc (size : U64) (space job alignLog2 : Byte) : Option Status :=
  firstFail [(size != 0, .badSize), ([0, 1, 3].contains space.toNat, .badParam), (job.toNat ≤ 15, .badParam),
    (8 ≤ alignLog2.toNat && alignLog2.toNat ≤ 30, .badParam)]

def startMemAlloc (size : U64) (space job alignLog2 : Byte) (id : Nat) (s : State) : State :=
  match s.job? job.toNat with
  | none => s.finish id .wrongState
  | some j =>
    let n := alignUp size.toNat 4096
    match s.firstFit j space.toNat n (max 4096 (2 ^ alignLog2.toNat)) with
    | none => s.finish id .noRoom
    | some k =>
      (s.modMem fun m => { m with allocs := m.allocs ++ [⟨m.nextUid, j.num, k, n⟩], nextUid := m.nextUid + 1 }).finish id .ok
        (leBytes 8 (s.gaOf k))

def execMemAlloc (e : Env) (size : U64) (space job alignLog2 : Byte) (s : State) : Res :=
  command (.memAlloc e size space job alignLog2) e (fun _ => checkMemAlloc size space job alignLog2) (fun _ => false)
    (startMemAlloc size space job alignLog2) s

/-! ### MEM_FREE (R169) -/

/-- Ranges that a started command, a prefetch entry in flight or a collective names. -/
def Xfer.ranges : Xfer → List (Nat × Nat)
  | .copy src dst len => [(src, len), (dst, len)]
  | .fill dst len _ => [(dst, len)]
  | .convert src dst len _ => [(src, len), (dst, 1)]
  | .evict _ _ => []
  | .restore _ => []
  | .verify _ _ => []

/-- A range that a peer has opened stays so until its deadline, when the peer's transfer ends (R277; log 99). -/
def Opened.live (o : Opened) (now : Nat) : Bool := o.deadline == 0 || now < o.deadline

/-- The range a member's contribution is received into: a reduction writes one result. -/
def Coll.into (c : Coll) (m : CollMember) : Nat × Nat := if c.opcode = 0x0904 then (c.recv, c.block) else (m.rkey, m.rcap)

def State.busyRanges (s : State) : List (Nat × Nat) :=
  (s.q.recs.filter fun r => r.phase == .running).flatMap (fun r => (r.xfer.map Xfer.ranges).getD []) ++
    s.link.transfers.map (fun t => (t.local_, t.len)) ++ (s.link.opened.filter (·.live s.now)).map (fun o => (keyOf o.ga, o.len)) ++
    s.link.colls.flatMap (fun c => c.members.flatMap fun m => [(m.skey, m.slen), c.into m]) ++
    s.fab.lists.map (fun l => (l.base, 64 * l.n)) ++
    s.fab.invs.flatMap fun i => match s.ctx? i.ctx with
      | some c => (i.started.filter fun x => !x.2).flatMap fun x => match i.plist[x.1]? with
        | some p => (match c.translate p.src p.len true false with
            | some k => [(k, p.len)]
            | none => []) ++ (match c.translate p.dst 1 false true with
            | some k => [(k, 1)]
            | none => [])
        | none => []
      | none => []

/-- A region of any context lies in the extent, or something in progress names it. -/
def State.allocInUse (s : State) (a : Alloc) : Bool :=
  (s.ctxs.any fun c => c.regions.any fun r => !r.ownCore && overlaps r.target r.length a.base a.len) ||
    s.busyRanges.any fun g => overlaps g.1 g.2 a.base a.len

def checkMemFree (ga : U64) (s : State) : Option Status :=
  firstFail [(s.ownGa ga.toNat && s.mem.allocs.any fun a => a.base == keyOf ga.toNat, .badParam)]

def startMemFree (id : Nat) (s : State) : State :=
  let uid := (s.rec? id).bind (·.alloc)
  match s.mem.allocs.find? fun a => some a.uid == uid with
  | none => s.finish id .wrongState
  | some a =>
    if s.allocInUse a then s.finish id .wrongState
    else (s.modMem fun m => { m with allocs := m.allocs.filter fun b => b.uid != a.uid }).finish id .ok (leBytes 8 a.len)

def execMemFree (e : Env) (ga : U64) (s : State) : Res :=
  command (.memFree e ga) e (checkMemFree ga) (fun _ => false) startMemFree s

/-! ### MEM_COPY and MEM_FILL (R170) -/

/-- With CONTEXT 0x3FF a range in HBM, DDR or host memory lies inside one live allocation (R170). -/
def State.inAlloc (s : State) (e : Env) (k len : Nat) : Bool :=
  e.ctx != 0x3FF || !([0, 1, 3].contains (spaceOf k)) || (s.mem.allocOf k len).isSome

/-- A range with CONTEXT 0x3FF is not asked to lie in an allocation by R277. -/
def State.addrChecks (s : State) (e : Env) (a len : Nat) (rd wr : Bool) : List (Bool × Status) :=
  [(a % 64 == 0, .badAlign), ((s.addr e a len rd wr).isSome, .badParam)]

/-- Checks of one address field. -/
def State.moveChecks (s : State) (e : Env) (a len : Nat) (rd wr : Bool) : List (Bool × Status) :=
  [(a % 64 == 0, .badAlign),
   (match s.addr e a len rd wr with
    | some k => s.inAlloc e k len
    | none => false, .badParam)]

def lengthChecks (len : Nat) : List (Bool × Status) := [(len % 64 == 0, .badAlign), (len ≤ 2 ^ 40, .badSize)]

def checkMemCopy (e : Env) (src dst len : U64) (s : State) : Option Status :=
  let n := len.toNat
  firstFail (s.moveChecks e src.toNat n true false ++ s.moveChecks e dst.toNat n false true ++ lengthChecks n ++
    [(!overlaps (s.keyAt e src.toNat n true false) n (s.keyAt e dst.toNat n false true) n, .badParam)])

/-- The range reaches SRAM of a core on which an invocation is running (R170). -/
def State.sramBusy (s : State) (k len : Nat) : Bool :=
  spaceOf k == 2 && s.fab.invs.any fun i => i.phase == .running &&
    i.cores.any fun c => overlaps (mkKey 2 (c * 2 ^ 18)) (2 ^ 18) k len

def startMemCopy (e : Env) (src dst len : U64) (id : Nat) (s : State) : State :=
  let n := len.toNat
  match s.heldAddr e src.toNat n true false, s.heldAddr e dst.toNat n false true with
  | some a, some b =>
    if s.sramBusy a n || s.sramBusy b n then s.finish id .wrongState
    else s.modRec id fun r => { r with xfer := some (.copy a b n) }
  | _, _ => s.finish id .badParam

def execMemCopy (e : Env) (src dst len : U64) (s : State) : Res :=
  command (.memCopy e src dst len) e (checkMemCopy e src dst len) (fun _ => len == 0) (startMemCopy e src dst len) s

def checkMemFill (e : Env) (dst len : U64) (s : State) : Option Status :=
  firstFail (s.moveChecks e dst.toNat len.toNat false true ++ lengthChecks len.toNat)

def startMemFill (e : Env) (dst len pattern : U64) (id : Nat) (s : State) : State :=
  let n := len.toNat
  match s.heldAddr e dst.toNat n false true with
  | some b =>
    if s.sramBusy b n then s.finish id .wrongState
    else s.modRec id fun r => { r with xfer := some (.fill b n pattern) }
  | none => s.finish id .badParam

def execMemFill (e : Env) (dst len pattern : U64) (s : State) : Res :=
  command (.memFill e dst len pattern) e (checkMemFill e dst len) (fun _ => len == 0)
    (startMemFill e dst len pattern) s

/-- The copy's data have moved (R170, R172). -/
def State.endCopy (s : State) (id src dst len : Nat) : State :=
  let st : Status := if s.poisonedIn src len then .okPoisoned else .ok
  (s.copyRange src dst len).finish id st (leBytes 8 len)

/-- The pattern stands at every multiple of 8 of the range. -/
def patternBytes (len : Nat) (pattern : U64) : List Byte :=
  (List.range len).map fun i => BitVec.ofNat 8 (pattern.toNat / 2 ^ (8 * (i % 8)))

def State.endFill (s : State) (id dst len : Nat) (pattern : U64) : State :=
  (s.writeBytes dst (patternBytes len pattern)).finish id .ok (leBytes 8 len)

/-- Contents of an extent that the manual does not lay out: free bytes. -/
def State.scribble (s : State) (k len : Nat) : State :=
  let (bs, s1) := s.drawBytes len
  s1.writeBytes k bs

end Sys2Proof.Machine
end

