-- ==== Sys2Proof/Machine/Mandoline.lean ====
section
/-! DEFINITION. The Mandoline: conversion descriptors, conversions between memory layouts, MEM_CONVERT and
PREFETCH_LIST_SET (07_memory_tiers.md R174-R182; 06_arithmetic.md R143-R150). -/

namespace Sys2Proof.Machine

/-- One side of a conversion: format, scheme, row-major. -/
structure Side1 where
  fmt : Nat
  sch : Nat
  row : Bool
  deriving DecidableEq, Repr

/-- A conversion descriptor (Table 7.5). -/
structure Desc where
  mode : Nat
  src  : Side1
  dst  : Side1
  rowLen : Nat
  chi  : Nat
  /-- the reserved bits of bytes 1 and 2 are zero -/
  rsvOk : Bool
  deriving DecidableEq, Repr

def Side1.of (b : Nat) : Side1 := ⟨b % 16, b / 16 % 4, bit b 6⟩

def Desc.of (d : Nat) : Desc :=
  ⟨d % 256, Side1.of (d / 256), Side1.of (d / 2 ^ 16), d / 2 ^ 24 % 2 ^ 24, d / 2 ^ 48 % 2 ^ 16,
    !bit d 15 && !bit d 23⟩

/-- The coarse scale as an FP32 encoding. -/
def Desc.coarse (d : Desc) : Nat := d.chi * 65536

/-- A side's scheme uses a coarse scale. -/
def Side1.scaled (x : Side1) : Bool := x.sch == 2 || x.sch == 3

/-- A row-major side whose rows are no whole number of bytes or groups. -/
def Side1.rowOk (x : Side1) (rowLen : Nat) : Bool :=
  !x.row || (fmtWidth x.fmt != 4 || rowLen % 2 == 0) && (fmtWidth x.fmt != 6 || rowLen % 4 == 0)

/-- A descriptor that R177 does not refuse. -/
def Desc.ok (d : Desc) (raw : Nat) : Bool :=
  match d.mode with
  | 0 => raw == 0
  | 1 => d.rsvOk && schemeOk d.src.fmt d.src.sch && schemeOk d.dst.fmt d.dst.sch &&
      !(d.src.row && d.src.sch != 0) && !(d.dst.row && d.dst.sch != 0) && d.rowLen != 0 &&
      d.src.rowOk d.rowLen && d.dst.rowOk d.rowLen &&
      (if d.dst.scaled then !cscaleBad d.coarse else d.chi == 0)
  | 2 | 3 => d.rsvOk && d.src.fmt ≤ 2 && d.dst.fmt == d.src.fmt && d.src.sch == 0 && !d.src.row && d.dst.sch == 0 &&
      !d.dst.row && d.rowLen == 0 && d.chi == 0
  | _ => false

/-- Bytes of a row of a row-major side. -/
def Side1.rowBytes (x : Side1) (rowLen : Nat) : Nat := rowLen * fmtWidth x.fmt / 8

/-- Bytes of a source row or tile. -/
def Side1.unitBytes (x : Side1) (rowLen : Nat) : Nat := if x.row then x.rowBytes rowLen else tileBytes x.fmt x.sch

/-- Tile columns of the tensor. -/
def Desc.tileCols (d : Desc) : Nat := ceilDiv d.rowLen 32

/-- The source length is a whole number of source rows or tiles, or of elements for an encode (log 25). -/
def Desc.lenOk (d : Desc) (len : Nat) : Bool :=
  match d.mode with
  | 1 => len % max 1 (d.src.unitBytes d.rowLen) == 0
  | 3 => len % codecSize d.src.fmt == 0
  | _ => true

/-- Rows or tiles of the source. -/
def Desc.units (d : Desc) (len : Nat) : Nat := len / max 1 (d.src.unitBytes d.rowLen)

/-- Tile rows of the tensor. -/
def Desc.tileRows (d : Desc) (len : Nat) : Nat :=
  if d.src.row then ceilDiv (d.units len) 32 else ceilDiv (d.units len) (max 1 d.tileCols)

/-- Tiles of a tiled destination: as many as a tiled source has, or whole tile rows. -/
def Desc.dstTiles (d : Desc) (len : Nat) : Nat := if d.src.row then d.tileRows len * d.tileCols else d.units len

/-- Bytes of the destination range as the source length gives them; for an encode the worst case (R182), for a decode
none, since the stream's header gives them (log 25). -/
def Desc.dstLen (d : Desc) (len : Nat) : Nat :=
  match d.mode with
  | 0 => len
  | 1 => if d.dst.row then d.tileRows len * 32 * d.dst.rowBytes d.rowLen
         else d.dstTiles len * tileBytes d.dst.fmt d.dst.sch
  | 3 => 32 + ceilDiv len 4096 * 4104
  | _ => 0

/-! ### Conversion of a byte string -/

/-- What a transfer through the Mandoline writes: bytes, offsets of bytes derived from poison, counts, and whether any
source byte it read was poisoned. -/
structure ConvOut where
  bytes  : List Byte
  marks  : List Nat
  sat    : Nat
  flush  : Nat
  nanOut : Nat
  infOut : Nat
  poisoned : Bool
  deriving DecidableEq, Repr

/-- Element at a bit offset of a byte string. -/
def elemAt (bs : Array Byte) (bitOff w : Nat) : Nat :=
  leNat ((List.range 5).map fun i => bs.getD (bitOff / 8 + i) 0) / 2 ^ (bitOff % 8) % 2 ^ w

/-- Bytes an element at a bit offset touches. -/
def elemTouch (bitOff w : Nat) : List Nat :=
  (List.range ((bitOff + w - 1) / 8 - bitOff / 8 + 1)).map (bitOff / 8 + ·)

/-- Bit offset of element (i, j) of the source, its scale's byte if it has one; none for an element the source does not
hold, which reads +0 (log 23). -/
def Desc.srcPos (d : Desc) (len i j : Nat) : Option (Nat × Option Nat) :=
  let w := fmtWidth d.src.fmt
  if d.src.row then
    if i < d.units len then some (i * d.src.rowBytes d.rowLen * 8 + j * w, none) else none
  else
    let t := i / 32 * d.tileCols + j / 32
    if t < d.units len then
      let base := t * tileBytes d.src.fmt d.src.sch
      let ix := storIx false (i % 32) (j % 32)
      some (base * 8 + ix * w,
        if d.src.sch = 0 then none else some (base + payloadBytes d.src.fmt + ix / blockSize d.src.sch))
    else none

/-- Decoded value of source element (i, j); the coarse scale of a source under S2 or S3 is not stored with it and the
descriptor does not carry it: it is free (log 26). -/
def Desc.srcVal (d : Desc) (raw : Nat) (bs : Array Byte) (len i j : Nat) : Val :=
  match d.srcPos len i j with
  | none => .zero
  | some (b, sc) =>
    decodeScaled d.src.fmt d.src.sch (elemAt bs b (fmtWidth d.src.fmt)) ((sc.map fun p => (bs.getD p 0).toNat).getD 0)
      (fp32 (Config.sourceCoarse (BitVec.ofNat 64 raw)).toNat)

/-- Source element (i, j) is derived from a poisoned byte. -/
def Desc.srcPoison (d : Desc) (ps : List Nat) (len i j : Nat) : Bool :=
  !ps.isEmpty && match d.srcPos len i j with
  | none => false
  | some (b, sc) => (elemTouch b (fmtWidth d.src.fmt)).any ps.contains || sc.any ps.contains

/-- One destination tile converted: elements and scales, counts, and which storage elements carry poison. -/
def Desc.tile (d : Desc) (raw : Nat) (bs : Array Byte) (ps : List Nat) (len tr tc : Nat) :
    List Nat × List Nat × ACnt × List Bool :=
  let inside := fun ix => decide (32 * tc + ix % 32 < d.rowLen)
  let vals := (List.range 1024).map fun ix =>
    if inside ix then some (d.srcVal raw bs len (32 * tr + ix / 32) (32 * tc + ix % 32)) else none
  let (es, scs, cnt, bad) := convValues d.dst.fmt d.dst.sch (if d.dst.scaled then fp32 d.coarse else .fin false 1 0) vals
  let own := (List.range 1024).map fun ix => inside ix && d.srcPoison ps len (32 * tr + ix / 32) (32 * tc + ix % 32)
  let n := blockSize d.dst.sch
  let pois := (List.range 1024).map fun ix =>
    bad || (if n = 0 then own.getD ix false else ((own.drop (ix / n * n)).take n).any id)
  (es, scs, cnt, pois)

/-- Bytes of a converted tile and the offsets of those that carry poison. -/
def tileOut (f scheme : Nat) (es scs : List Nat) (pois : List Bool) : List Byte × List Nat :=
  let w := fmtWidth f
  let n := blockSize scheme
  let ix := (List.range 1024).filter fun i => pois.getD i false
  (packElems w es ++ scs.map (BitVec.ofNat 8 ·),
   ix.flatMap fun i => elemTouch (i * w) w ++ (if n = 0 then [] else [payloadBytes f + i / n]))

/-- Bytes of a row of a row-major destination. -/
def rowOut (f : Nat) (es : List Nat) (pois : List Bool) : List Byte × List Nat :=
  let w := fmtWidth f
  ((packElems w (es ++ List.replicate (alignUp es.length 4 - es.length) 0)).take (es.length * w / 8),
   ((List.range es.length).filter fun i => pois.getD i false).flatMap fun i => elemTouch (i * w) w)

/-- Join pieces, moving each piece's marks to its place. -/
def joinPieces (ps : List (List Byte × List Nat)) : List Byte × List Nat :=
  ps.foldl (fun acc p => (acc.1 ++ p.1, acc.2 ++ p.2.map (acc.1.length + ·))) ([], [])

/-- Mode 1 (R178). -/
def Desc.convert (d : Desc) (raw : Nat) (bs : List Byte) (ps : List Nat) : ConvOut :=
  let len := bs.length
  let a := bs.toArray
  let tiles := if d.dst.row then d.tileRows len * d.tileCols else d.dstTiles len
  let outs := (List.range tiles).map fun t => d.tile raw a ps len (t / d.tileCols) (t % d.tileCols)
  let cnt := outs.foldl (fun c o => c.add o.2.2.1) ACnt.zero
  let pieces :=
    if d.dst.row then
      (List.range (d.tileRows len * 32)).map fun i =>
        let rows := (List.range d.tileCols).map fun tc =>
          let o := outs.getD (i / 32 * d.tileCols + tc) ([], [], ACnt.zero, [])
          ((o.1.drop (i % 32 * 32)).take 32, (o.2.2.2.drop (i % 32 * 32)).take 32)
        rowOut d.dst.fmt ((rows.flatMap (·.1)).take d.rowLen) ((rows.flatMap (·.2)).take d.rowLen)
    else outs.map fun o => tileOut d.dst.fmt d.dst.sch o.1 o.2.1 o.2.2.2
  let (bytes, marks) := joinPieces pieces
  ⟨bytes, marks, cnt.sat, cnt.flush, cnt.nan, cnt.inf, !ps.isEmpty⟩

/-- All offsets of a piece when one of its source bytes, from `lo` for `n`, is poisoned. -/
def pieceMarks (ps : List Nat) (lo n : Nat) (out : List Byte) : List Nat :=
  if ps.any fun p => lo ≤ p && p < lo + n then List.range out.length else []

/-- Mode 2: each decoded block carries poison if its encoded bytes or the stream header do (log 25). -/
def Desc.decode (d : Desc) (bs : List Byte) (ps : List Nat) : Except CodecFail ConvOut :=
  match decodeStream d.src.fmt bs.length bs with
  | .error e => .error e
  | .ok blocks =>
    let hdr := ps.any (· < 32)
    let offs := blocks.foldl (fun (acc : List (Nat × Nat × List Byte) × Nat) b => (acc.1 ++ [(acc.2, b.1, b.2)], acc.2 + b.1))
      ([], 32)
    let (bytes, marks) := joinPieces (offs.1.map fun b =>
      (b.2.2, if hdr then List.range b.2.2.length else pieceMarks ps b.1 b.2.1 b.2.2))
    .ok ⟨bytes, marks, 0, 0, 0, 0, !ps.isEmpty⟩

/-- Mode 3: each encoded block carries poison if its decoded bytes do. -/
def Desc.encode (d : Desc) (bs : List Byte) (ps : List Nat) : ConvOut :=
  let blocks := encodeBlocks d.src.fmt false bs
  let (bytes, marks) := joinPieces ((streamOf d.src.fmt bs.length blocks).take 32 |> fun h =>
    (h, []) :: blocks.mapIdx fun i b => (b, pieceMarks ps (4096 * i) 4096 b))
  ⟨bytes, marks, 0, 0, 0, 0, !ps.isEmpty⟩

/-- A transfer's result under its descriptor. -/
def Desc.run (d : Desc) (raw : Nat) (bs : List Byte) (ps : List Nat) : Except CodecFail ConvOut :=
  match d.mode with
  | 0 => .ok ⟨bs, ps, 0, 0, 0, 0, !ps.isEmpty⟩
  | 1 => .ok (d.convert raw bs ps)
  | 2 => d.decode bs ps
  | _ => .ok (d.encode bs ps)

/-- The transfer of a range of memory. -/
def State.runDesc (s : State) (raw src len : Nat) : Except CodecFail ConvOut :=
  (Desc.of raw).run raw (s.readBytes src len) (s.poisonOffsets src len)

/-- The counts of a transfer through the Mandoline, in the totals since boot (R156, R157). -/
def State.countConv (s : State) (o : ConvOut) : State :=
  s.count none 0 { StCnt.zero with sat := sat 32 o.sat, flush := sat 32 o.flush, nanOut := sat 32 o.nanOut, infOut := sat 32 o.infOut }

/-! ### MEM_CONVERT -/

/-- Stage 4 (log 24). -/
def checkMemConvert (e : Env) (src dst len desc : U64) (s : State) : Option Status :=
  let d := Desc.of desc.toNat
  let n := len.toNat
  let inAl := fun (a m : Nat) (rd wr : Bool) => match s.addr e a m rd wr with
    | some k => s.inAlloc e k m
    | none => false
  firstFail [(inAl src.toNat n true false, .badParam), ((s.addr e dst.toNat 1 false true).isSome, .badParam),
    (d.ok desc.toNat, .badParam), (d.lenOk n, .badSize), (inAl dst.toNat (d.dstLen n) false true, .badParam)]

/-- Bytes that a conversion reaches at its destination: for a decode the length its stream header gives (R182). -/
def State.convertLen (s : State) (d : Desc) (src n : Nat) : Nat :=
  max 1 (if d.mode = 2 then s.readNat (src + 8) 8 else d.dstLen n)

/-- The destination of a decode, whose length only the stream gives, still has to pass R166. -/
def State.decodeFits (s : State) (r : CmdRec) (n : Nat) : Bool :=
  match r.cmd with
  | .memConvert e _ dst _ _ => match s.heldAddr e dst.toNat n false true with
    | some k => s.inAlloc e k n
    | none => false
  | _ => true

/-- The conversion's data have moved; an instance that has failed meanwhile ends it with the bytes it had written (R314). -/
def State.endConvert (s : State) (r : CmdRec) (src dst len : Nat) (desc : U64) : State :=
  if s.unitFailed 3 (mandolineOf src dst) then
    let n := s.convertLen (Desc.of desc.toNat) src len
    (s.scribble dst (if s.decodeFits r n then n else 0)).finish r.id .hwFault
  else match s.runDesc desc.toNat src len with
  | .error (code, item) => s.finish r.id .checkFailed (checkResult code item)
  | .ok o =>
    if !s.decodeFits r o.bytes.length then s.finish r.id .badParam
    else
      ((s.writeMarked dst o.bytes o.marks).countConv o).finish r.id (if o.poisoned then .okPoisoned else .ok)
        (leBytes 8 o.bytes.length ++ leBytes 4 (sat 32 o.sat) ++ leBytes 4 (sat 32 o.nanOut))

/-! ### PREFETCH_LIST_SET (R174) -/

/-- The most entries a list holds. -/
def prefetchMax : Nat := 4096

def Prefetch.of (bs : List Byte) : Prefetch :=
  ⟨fieldAt bs 0 8, fieldAt bs 8 8, fieldAt bs 16 4, fieldAt bs 20 2, fieldAt bs 22 2, fieldAt bs 24 2,
    BitVec.ofNat 64 (fieldAt bs 32 8)⟩

/-- Checks of one entry, in the order of R174; an entry of LENGTH 0 does nothing and is checked for its reserved bytes
only (log 28). -/
def State.prefetchFail (s : State) (c : Ctx) (bs : List Byte) : Option Status :=
  let p := Prefetch.of bs
  let raw := p.desc.toNat
  let d := Desc.of raw
  let rsv := allZero (slice bs 26 6) && allZero (slice bs 40 24)
  if p.len = 0 then (if rsv then none else some .badParam)
  else firstFail [(rsv, .badParam),
    (((c.region? p.dst).map fun r => spaceOf r.target) == some 0, .badParam),
    ((s.translate c p.src p.len true false).isSome, .badParam),
    (!(d.ok raw && d.lenOk p.len) || (s.translate c p.dst (max 1 (d.dstLen p.len)) false true).isSome, .badParam),
    (p.len % 256 == 0, .badAlign), (d.ok raw, .badParam), (d.lenOk p.len, .badSize)]

end Sys2Proof.Machine
end

