-- ==== Sys2Proof/Machine/Residency.lean ====
section
/-! DEFINITION. Residency (09_serving.md R214, R219-R222): footprints, eviction and restore of a context
(07_memory_tiers.md R183, R184), and the firmware's rebalancing. -/

namespace Sys2Proof.Machine

/-! ### Footprints -/

/-- Targets of a context's regions in HBM (R214). -/
def Ctx.footprint (c : Ctx) : List (Nat × Nat) :=
  (c.regions.filter fun r => spaceOf r.target == 0).map fun r => (r.target, r.length)

def rangesMeet (a b : List (Nat × Nat)) : Bool := a.any fun x => b.any fun y => overlaps x.1 x.2 y.1 y.2

/-- A restore of the context is under way. -/
def State.restoring (s : State) (ctx : Nat) : Bool :=
  (s.moves.any fun m => m.ctx == ctx && !m.evict) || s.q.recs.any fun r => r.phase == .running && r.xfer == some (.restore ctx)

/-- Contexts of a job that are resident, or becoming so, and whose footprint overlaps a context's. -/
def State.rivals (s : State) (c : Ctx) : List Ctx :=
  s.ctxs.filter fun d => d.job == c.job && d.id != c.id && (d.resident || s.restoring d.id) && rangesMeet c.footprint d.footprint

/-! ### What a context holds -/

/-- An invocation of the context is running. -/
def State.insideInv (s : State) (ctx : Nat) : Bool := s.fab.invs.any fun i => i.ctx == ctx && i.phase == .running

/-- An eviction or restore of the context is under way. -/
def State.moving (s : State) (ctx : Nat) : Bool :=
  (s.moves.any fun m => m.ctx == ctx) || s.restoring ctx || s.q.recs.any fun r => r.phase == .running && match r.xfer with
    | some (.evict c _) => c == ctx
    | _ => false

/-- A serving context: SERVING or DRAINING. -/
def Ctx.isServing (c : Ctx) : Bool := match c.serving with
  | some v => v.st != .stopped
  | none => false

/-- KV pages held by live requests, in page order. -/
def Serving.pagesHeld (v : Serving) : List Nat := (v.reqs.flatMap (·.pages)).mergeSort fun a b => a ≤ b

/-- Key of a KV page, 64 KiB from the pool's base. -/
def Ctx.pageKey (c : Ctx) (v : Serving) (i : Nat) : Nat :=
  (c.translate (v.desc.kvpool + 65536 * i) 65536 true true).getD 0

/-- Valid shards in HBM. -/
def hbmShards (shs : List ShardRec) : List ShardRec := shs.filter fun x => x.valid && spaceOf x.base == 0

/-- A shard's resting copy in a space. -/
def ShardRec.copyIn (x : ShardRec) (space : Nat) : Option Nat :=
  match x.copy with
  | some (b, _) => if spaceOf b == space then some b else none
  | none => none

/-- The packed form of a page as an eviction or the mirror writes it. -/
def State.packedPage (s : State) (c : Ctx) (v : Serving) (i : Nat) : List Byte :=
  packPage (Config.kvFormat c.uid) c.id i v.step (s.readBytes (c.pageKey v i) 65536)

/-- Offsets of the packed form that are poisoned: all of it where the page holds a poisoned word. -/
def State.packedMarks (s : State) (c : Ctx) (v : Serving) (i : Nat) : List Nat :=
  if s.poisonedIn (c.pageKey v i) 65536 then List.range (s.packedPage c v i).length else []

/-- Lay pieces one behind the other from a key; a packed page takes a whole slot. -/
def layPieces : Nat → List Saved → List Saved
  | _, [] => []
  | k, p :: ps =>
    let room := if p.page.isSome then packedSlot else p.stored
    { p with at_ := k } :: layPieces (k + room) ps

/-- State save area, then KV pages, then every held adapter version (R184 steps 1 to 3, R207). -/
def State.dynamicPieces (s : State) (c : Ctx) : List Saved :=
  let store := (s.mem.reserves.filter fun r => r.ctx == c.id && r.kind == 0).map fun r => (⟨r.base, r.len, 0, r.len, none⟩ : Saved)
  let pages := match c.serving with
    | some v => v.pagesHeld.map fun i => (⟨c.pageKey v i, 65536, 0, (s.packedPage c v i).length, some i⟩ : Saved)
    | none => []
  let adapters := ((c.adapters.flatMap (·.shards)).filter (·.valid)).map fun x => (⟨x.base, x.len, 0, x.len, none⟩ : Saved)
  store ++ pages ++ adapters

/-- The pieces CTX_EVICT writes to a region from `base`, and the weights that rest in their own copies. -/
def State.evictPieces (s : State) (c : Ctx) (space base : Nat) : List Saved × List Saved :=
  let ws := hbmShards c.shards
  let moved := (ws.filter fun x => (x.copyIn space).isNone).map fun x => (⟨x.base, x.len, 0, x.len, none⟩ : Saved)
  let copied := ws.filterMap fun x => (x.copyIn space).map fun b => (⟨x.base, x.len, b, x.len, none⟩ : Saved)
  (layPieces base (s.dynamicPieces c ++ moved), copied)

/-- The lowest-numbered region of a space with EVICT set. -/
def Ctx.evictRegion (c : Ctx) (space : Nat) : Option Region := c.regions.find? fun r => r.evict && spaceOf r.target == space

/-- End of the last piece. -/
def piecesEnd (base : Nat) (ps : List Saved) : Nat :=
  ps.foldl (fun m p => max m (p.at_ + (if p.page.isSome then packedSlot else p.stored))) base

/-- Why an eviction is refused (R184, R186, R222); no EVICT region is a region too small (log 29), and WRONG_STATE comes before
BUSY_HELD (log 120). An ADAPTER_LOAD in progress is a weight command in progress (R186; DEDUCED, log 150). -/
def State.evictRefusal (s : State) (c : Ctx) (space : Nat) (pinCounts : Bool) : Option Status :=
  firstFail [(c.weight == .loaded && c.wgt.isEmpty && !c.verifying, .wrongState),
    (!(pinCounts && c.pinned) && c.resident && !s.moving c.id, .wrongState),
    (!s.insideInv c.id, .busyHeld),
    (match c.evictRegion space with
      | some r => piecesEnd r.target (s.evictPieces c space r.target).1 ≤ r.target + r.length
      | none => false, .noRoom)]

/-! ### Moving -/

/-- Write one piece out: a page packed, everything else bit for bit, poison carried along. -/
def State.saveOut (s : State) (c : Ctx) (p : Saved) : State :=
  match p.page, c.serving with
  | some i, some v =>
    let bs := s.packedPage c v i
    s.writeMarked p.at_ bs (if s.poisonedIn p.home p.len then List.range bs.length else [])
  | _, _ => s.copyRange p.home p.at_ p.len

/-- Read one piece back. A packed page that no longer decodes leaves its page as it stands. -/
def State.saveIn (s : State) (p : Saved) : State :=
  if p.page.isSome then
    match unpackPage (s.readBytes p.at_ p.stored) with
    | some bs => s.writeMarked p.home bs (if s.poisonedIn p.at_ p.stored then List.range bs.length else [])
    | none => s
  else s.copyRange p.at_ p.home p.len

def movedBytes (ps : List Saved) : Nat := (ps.map (·.stored)).foldl (· + ·) 0

/-- Evict: what R184 writes, then the context rests; its staged state is dropped (R197). The bytes moved. -/
def State.evict (s : State) (c : Ctx) (space : Nat) : State × Nat :=
  match c.evictRegion space with
  | some r =>
    let (out, copied) := s.evictPieces c space r.target
    let s1 := out.foldl (fun s p => s.saveOut c p) s
    (s1.modCtx c.id fun d => { d with resident := false, saved := out ++ copied, staged := [], stageDigest := none,
                                      serving := d.serving.map fun v => { v with blockedSince := none } },
      movedBytes out)
  | none => (s, 0)

/-- What a restore reads back: of the KV pages, those that live requests still hold (R221). -/
def Ctx.toRestore (c : Ctx) : List Saved :=
  c.saved.filter fun p => match p.page, c.serving with
    | some i, some v => v.pagesHeld.contains i
    | _, _ => true

/-- Restore: the writes reversed into the same ranges; the bytes read. -/
def State.restore (s : State) (c : Ctx) : State × Nat :=
  let s1 := c.toRestore.foldl State.saveIn s
  (s1.modCtx c.id fun d => { d with resident := true, saved := [],
                                    serving := d.serving.map fun v => { v with runnableSince := none } }, movedBytes c.toRestore)

/-- A page would be packed, or unpacked, by a Mandoline instance that has failed (13_safety_repair_wear.md R314). -/
def State.packFails (s : State) (out : Bool) (ps : List Saved) : Bool :=
  ps.any fun p => p.page.isSome && s.unitFailed 3 (if out then mandolineOf p.home p.at_ else mandolineOf p.at_ p.home)

/-- A Mandoline instance that an eviction needs has failed. -/
def State.evictFails (s : State) (c : Ctx) (space : Nat) : Bool :=
  (c.evictRegion space).any fun r => s.packFails true (s.evictPieces c space r.target).1

/-! ### Runnable requests and rebalancing (R219, R220) -/

/-- Pages for `n` positions. -/
def Serving.pagesFor (v : Serving) (n : Nat) : Nat := ceilDiv n (max 1 v.desc.tpp)

/-- Free pages of the pool. -/
def Serving.freePages (v : Serving) : Nat := v.desc.kvpages - v.pagesHeld.length

/-- Slots no request holds, lowest first. -/
def Serving.freeSlots (v : Serving) : List Nat :=
  (List.range v.desc.maxseq).filter fun i => !(v.reqs.any fun r => r.slot == some i)

/-- Pages suffice for a request that waits. -/
def Serving.roomFor (v : Serving) (r : Req) : Bool := v.pagesFor (r.plen + 8) ≤ v.freePages

/-- Composition would find something to run (R229): a decoding request, or the first of the queue that waits for a chunk, which
none overtakes. -/
def Serving.runnable (v : Serving) : Bool :=
  (v.reqs.any fun r => r.cond == .decoding) ||
    match v.reqs.find? fun r => r.cond == .waiting || r.cond == .prefill with
    | some r => r.cond == .prefill || (!v.freeSlots.isEmpty && v.roomFor r)
    | none => false

/-- A live request that awaits neither an answer nor pages, by which a resting context is runnable (R219). -/
def Serving.restRunnable (v : Serving) : Bool :=
  v.reqs.any fun r => match r.cond with
    | .awaiting => false
    | .waiting => v.roomFor r
    | _ => true

/-- The ticks of R219 kept up to date. -/
def Serving.noteRunnable (v : Serving) (resident : Bool) (now : Nat) : Serving :=
  if resident then { v with blockedSince := if v.runnable then none else v.blockedSince, runnableSince := none }
  else { v with runnableSince := if v.restRunnable then some (v.runnableSince.getD now) else none }

/-- Write event 0x0012 once for a pair and reason. -/
def State.blockedEvent (s : State) (r c : Ctx) (reason : Nat) : State :=
  let told := (r.serving.map (·.told)).getD []
  if told.contains (c.id, reason) then s
  else
    (s.modCtx r.id fun d => { d with serving := d.serving.map fun v => { v with told := v.told ++ [(c.id, reason)] } }).event
      (srcJob r.job) 0x0012 (leBytes 2 r.id ++ leBytes 2 c.id ++ leBytes 1 reason)

/-- Reason for which the firmware leaves an occupant in place. -/
def Ctx.stayReason (c : Ctx) : Option Nat :=
  if c.pinned then some 1 else if !c.isServing then some 2 else if (c.evictRegion 1).isNone then some 3 else none

def State.noteRunnables (s : State) (j : Nat) : State :=
  { s with ctxs := s.ctxs.map fun (c : Ctx) =>
      if c.job == j && c.isServing then { c with serving := c.serving.map fun v => v.noteRunnable c.resident s.elapsed }
      else c }

/-- Order of two optional ticks with ties by number. -/
def earlier (a b : Option Nat × Nat) : Bool :=
  a.1.getD 0 < b.1.getD 0 || (a.1.getD 0 == b.1.getD 0 && a.2 ≤ b.2)

/-- What the procedure has begun for a waiting context goes on: the next occupant that there still is, is evicted, or the
context is restored as CTX_RESTORE would restore it. -/
def State.makeRoom (s : State) (r : Ctx) (todo : List Nat) : State :=
  match todo with
  | [] =>
    if r.resident || s.moving r.id || !(s.rivals r).isEmpty || s.packFails false r.toRestore then s
    else { s with moves := s.moves ++ [⟨r.job, r.id, false, r.id, []⟩] }
  | n :: rest => match s.ctx? n with
    | some c =>
      if (s.evictRefusal c 1 true).isSome || s.evictFails c 1 then s.blockedEvent r c 4
      else { s with moves := s.moves ++ [⟨r.job, n, true, r.id, rest⟩] }
    | none => s.makeRoom r rest

/-- The firmware's procedure for a job (R220); one eviction or restore at a time. -/
def State.rebalance (s : State) (j : Nat) : State :=
  let s := s.noteRunnables j
  if s.moves.any (·.job == j) then s else
  let waiting := (s.ctxs.filter fun c => c.job == j && c.isServing && !c.resident && !s.moving c.id &&
      (c.serving.bind (·.runnableSince)).isSome).mergeSort fun a b =>
    earlier (a.serving.bind (·.runnableSince), a.id) (b.serving.bind (·.runnableSince), b.id)
  match waiting with
  | [] => s
  | r :: _ =>
    let v := (s.rivals r).mergeSort fun a b => a.id ≤ b.id
    if v.isEmpty then s.makeRoom r []
    else if s.ctxs.any fun c => c.job == j && c.resident && c.isServing && (c.serving.bind (·.blockedSince)).isNone then s
    -- an occupant that is only being restored is waited for
    else if v.any fun c => !c.resident then s
    else match v.findSome? fun c => (c.stayReason).map fun n => (c, n) with
      | some (c, n) => s.blockedEvent r c n
      | none => s.makeRoom r ((v.mergeSort fun a b =>
          earlier (a.serving.bind (·.blockedSince), a.id) (b.serving.bind (·.blockedSince), b.id)).map (·.id))

/-- The procedure after an eviction goes on for its waiting context; after a restore, or when that context is gone, it runs
anew (R220). -/
def State.moveOn (s : State) (m : Move) : State :=
  match (if m.evict then s.ctx? m.forCtx else none) with
  | some r => (s.noteRunnables m.job).makeRoom r m.rest
  | none => s.rebalance m.job

end Sys2Proof.Machine
end

