-- ==== Sys2Proof/Machine/Requests.lean ====
section
/-! DEFINITION. What happens to a live request at its end: ring records and retirement (09_serving.md R233), adapter
versions (08_weights.md R204-R207). -/

namespace Sys2Proof.Machine

def State.modServing (s : State) (ctx : Nat) (f : Serving → Serving) : State :=
  s.modCtx ctx fun c => { c with serving := c.serving.map f }

/-- A record of the retirement ring (Table 9.8), at entry SEQ mod RING_N, then the vector when VEC_EN is set. -/
def State.ring (s : State) (ctx request kind flags status tokens step : Nat) : State :=
  match s.ctx? ctx with
  | some c => match c.serving with
    | some v =>
      let seq := (v.seq + 1) % 2 ^ 32
      let s1 := s.modServing ctx fun v => { v with seq := seq }
      let bs := leBytes 4 request ++ leBytes 1 kind ++ leBytes 1 flags ++ leBytes 2 status ++ leBytes 4 tokens ++
        leBytes 4 step ++ leBytes 8 s.now ++ leBytes 4 seq ++ zeros 4
      match c.translate (v.desc.ring + 32 * (seq % max 1 v.desc.ringN)) 32 false true with
      | some k =>
        let s2 := s1.writeBytes k bs
        if v.desc.vecEn then s2.msix v.desc.vector else s2
      | none => s1
    | none => s
  | none => s

/-! ### Shards (08_weights.md R187, R190) -/

/-- Write a shard's status entry (Table 8.6); nothing with STATUS zero. -/
def State.shardEntry (s : State) (c : Ctx) (w : WgtOp) (i status check sat_ nan : Nat) : State :=
  if w.status = 0 then s
  else match c.translate (w.status + 16 * i) 16 false true with
    | some k => s.writeBytes k (leBytes 2 status ++ leBytes 2 check ++ leBytes 4 (sat 32 sat_) ++ leBytes 4 (sat 32 nan) ++ zeros 4)
    | none => s

/-- A named shard that is neither valid nor failed. -/
def ShardSt.open_ : ShardSt → Bool
  | .waiting | .ready | .inFlight => true
  | _ => false

/-- Indices of shards in a state. -/
def WgtOp.shardsIn (w : WgtOp) (f : ShardSt → Bool) : List Nat :=
  (List.range w.prog.length).filter fun i => f (w.prog.getD i .unnamed)

/-- The entries of abandoned shards. -/
def State.cancelShards (s : State) (c : Ctx) : State :=
  c.wgt.foldl (fun s w => (w.shardsIn ShardSt.open_).foldl (fun s i => s.shardEntry c w i Status.cancelled.code 0 0 0) s) s

/-! ### Adapter versions -/

/-- Live requests bound to an adapter version. -/
def Ctx.boundTo (c : Ctx) (id ver : Nat) : Nat :=
  match c.serving with
  | some v => (v.reqs.filter fun r => r.adapter == some (id, ver)).length
  | none => 0

/-- A new version has room (R205): its ranges overlap no held version of any adapter, and its ID holds fewer than four. -/
def Ctx.adapterRoom (c : Ctx) (id : Nat) (ranges : List (Nat × Nat)) : Bool :=
  !rangesMeet ranges (c.adapters.flatMap fun a => a.shards.map fun x => (x.base, x.len)) &&
    (c.adapters.filter fun a => a.id == id).length < 4

/-- Loads that wait for room take it in start order; `recs` are the records a manifest's shards get. -/
def Ctx.takeRoom (c : Ctx) (recs : WgtOp → List ShardRec) : Ctx :=
  c.wgt.foldl (fun (c : Ctx) w =>
    if w.kind = 2 && w.noRoom && c.adapterRoom w.adapter ((recs w).map fun x => (x.base, x.len)) then
      { c with adapters := c.adapters ++ [⟨w.adapter, w.version, .loading, ((w.shards.head?).map (·.dst)).getD 0, recs w⟩]
               wgt := c.wgt.map fun (x : WgtOp) => if x.cmd == w.cmd then { x with noRoom := false } else x }
    else c) c

/-- Records without content for the shards of a command: at their staging ranges, or at their destinations. -/
def Ctx.emptyRecs (c : Ctx) (stage : Bool) (es : List ShardEnt) : List ShardRec :=
  es.mapIdx fun i e =>
    let n := max 1 ((Desc.of e.desc.toNat).dstLen e.srcLen)
    ⟨i, (c.translate (if stage then e.stage else e.dst) n false true).getD 0, n, 0, false, none⟩

/-- Superseded and retired versions with no bound request are freed (R207), and loads that wait for room may take it. -/
def Ctx.freeAdapters (c : Ctx) : Ctx :=
  ({ c with adapters := c.adapters.filter fun a =>
      !((a.st == .superseded || a.st == .retired) && c.boundTo a.id a.version == 0) } : Ctx).takeRoom
    fun w => c.emptyRecs false w.shards

/-! ### Retirement -/

/-- A request retires (R233): its slot and pages are free, its ring record is written, a waiting REQ_CANCEL completes
with its decode steps, and adapter versions it held are freed. -/
def State.retire (s : State) (ctx req : Nat) (st : Status) (poison : Bool) : State :=
  match s.ctx? ctx with
  | some c => match c.serving with
    | some v => match v.reqs.find? fun r => r.id == req with
      | some r =>
        let s0 := s.modServing ctx fun v =>
          { v with reqs := v.reqs.filter fun x => x.id != req, retired := v.retired + 1 }
        let s1 := s0.modCtx ctx Ctx.freeAdapters
        let s2 := s1.ring ctx req 0 (if poison then 1 else 0) st.code r.emitted r.steps
        match r.cancel with
        | some rec => s2.finish rec .ok (leBytes 4 r.steps)
        | none => s2
      | none => s
    | none => s
  | none => s

/-- A serving context without live requests that SRV_STOP stops: it becomes STOPPED and the command completes with the
requests retired since its start (R237). -/
def State.stopIfDrained (s : State) (ctx : Nat) : State :=
  match s.ctx? ctx with
  | some c => match c.serving with
    | some v => match v.stopCmd with
      | some rec =>
        if v.reqs.isEmpty && v.cur.isNone then
          (s.modServing ctx fun v => { v with st := .stopped, stopCmd := none }).finish rec .ok (leBytes 4 v.retired)
        else s
      | none => s
    | none => s
  | none => s

end Sys2Proof.Machine
end

