-- ==== Sys2Proof/Machine/Programs.lean ====
section
/-! DEFINITION. Step words and stream instructions (04_stations_and_streams.md Tables 4.5-4.8), engine addresses (R82,
R83, R105, R165) and the routes of a configuration (05_fabric.md R104, R113, R114). -/

namespace Sys2Proof.Machine

/-! ### Step words (Tables 4.5, 4.6) -/

structure SW where
  (op inq pop out acc : Nat)
  clr : Bool
  (ofmt osch passes : Nat)
  ftz : Bool
  (rsv repeat_ sub tgt imm : Nat)
  deriving DecidableEq, Repr

def SW.of (w : Nat) : SW :=
  { op := bits w 63 58, inq := bits w 57 54, pop := bits w 53 50, out := bits w 49 46, acc := bits w 45 44,
    clr := bit w 43, ofmt := bits w 42 39, osch := bits w 38 37, passes := bits w 36 35, ftz := bit w 34,
    rsv := bits w 33 32, repeat_ := bits w 31 24, sub := bits w 23 16, tgt := bits w 15 8, imm := bits w 7 0 }

/-- Queue numbers of a mask, ascending. -/
def maskQs (m : Nat) : List Nat := (List.range 4).filter fun i => bit m i

def SW.ins (w : SW) : List Nat := maskQs w.inq
def SW.pops (w : SW) : List Nat := maskQs w.pop
def SW.outs (w : SW) : List Nat := maskQs w.out

/-! ### Stream instructions (Tables 4.7, 4.8) -/

def siOp (w : Nat) : Nat := bits w 31 28
def siLvl (w : Nat) : Nat := bits w 27 25
def siPool (w : Nat) : Nat := bits w 3 0
/-- RUN's MODE and QUEUE. -/
def siMode (w : Nat) : Nat := bits w 27 26
def siQueue (w : Nat) : Nat := bits w 25 24

/-- A program holds a mode-2 RUN. -/
def hasMode2 (ws : List U32) : Bool := ws.any fun w => siOp w.toNat == 9 && siMode w.toNat == 2

def Image.streamProg? (im : Image) (i : Nat) : Option (List U32) := match im.programs[i]? with
  | some (.stream ws) => some ws
  | _ => none

def Image.stepProg? (im : Image) (i : Nat) : Option (List U64) := match im.programs[i]? with
  | some (.step ws) => some ws
  | _ => none

def Image.routing? (im : Image) (i : Nat) : Option Routing := match im.programs[i]? with
  | some (.routing r) => some r
  | _ => none

/-! ### Engine addresses -/

/-- The key an engine of a core reaches at a context address, own-core regions included (R82, R165, R166). -/
def Ctx.engineKey (c : Ctx) (core a len : Nat) (rd wr : Bool) : Option Nat :=
  match c.region? a with
  | some r =>
    if a + len ≤ r.cbase + r.length && (!rd || r.read) && (!wr || r.write) then
      some (if r.ownCore then sramKey core + offOf r.target % sramBytes + (a - r.cbase) else r.target + (a - r.cbase))
    else none
  | none => none

/-- A memory endpoint (Table 5.4): port 0 HBM edge, 1 I/O edge, 2 bay lane. -/
structure Endp where
  (port edge pos : Nat)
  deriving DecidableEq, Repr

def Endp.of (d : Nat) : Endp := ⟨bits d 29 28, bits d 9 9, bits d 8 0⟩

def bayLane : Endp := ⟨2, 0, 0⟩

/-- The endpoint an engine of a core is bound to in a role: 0 its only or read endpoint, 1 its write endpoint (R105). -/
def Image.endpoint (im : Image) (station core eng role : Nat) : Endp :=
  match im.streams.find? fun t => t.kind == 1 && t.src == station && t.srcQ == eng && t.dst == role with
  | some t => match t.routes.find? fun r => r.src == core with
    | some r => Endp.of r.dstEp
    | none => bayLane
  | none => bayLane

/-- A range lies behind an endpoint of a core (R105). -/
def Grid.behind (g : Grid) (e : Endp) (core k len : Nat) : Bool :=
  let last := k + max 1 len - 1
  if e.port = 1 then
    let x := 2 * e.edge + (if 40 ≤ e.pos then 1 else 0)
    if spaceOf k = 3 then x == 0
    else spaceOf k == 1 && offOf k / 2 ^ 40 == x && spaceOf last == 1 && offOf last / 2 ^ 40 == x
  else
    let col := if e.port = 0 then e.pos else coreCol core
    let edge := if e.port = 0 then e.edge else if coreRow core < 8 then 0 else 1
    spaceOf k == 0 && (e.port == 0 || isRim core) &&
      hbmGroup (offOf k) == 2 * g.dieOf col + edge && spaceOf last == 0 && hbmGroup (offOf last) == 2 * g.dieOf col + edge

/-! ### Paths -/

/-- Hops from one number to another, as ordered steps. -/
def stepsTo : Nat → Nat → Nat → List (Nat × Nat)
  | 0, _, _ => []
  | fuel + 1, a, b =>
    if a = b then [] else
    let n := if a < b then a + 1 else a - 1
    (a, n) :: stepsTo fuel n b

/-- Horizontal hops in a row, vertical hops in a column. -/
def hopsH (row c0 c1 : Nat) : List (Nat × Nat) := (stepsTo 320 c0 c1).map fun p => (coreIx row p.1, coreIx row p.2)
def hopsV (col r0 r1 : Nat) : List (Nat × Nat) := (stepsTo 80 r0 r1).map fun p => (coreIx p.1 col, coreIx p.2 col)

/-- One leg (R104). -/
def legHops (vert : Bool) (a b : Nat × Nat) : List (Nat × Nat) :=
  if vert then hopsV a.2 a.1 b.1 ++ hopsH b.1 a.2 b.2 else hopsH a.1 a.2 b.2 ++ hopsV b.2 a.1 b.1

def pathHops (vert : Bool) : Nat × Nat → List (Nat × Nat) → List (Nat × Nat)
  | _, [] => []
  | a, b :: rest => legHops vert a b ++ pathHops vert b rest

def rc (core : Nat) : Nat × Nat := (coreRow core, coreCol core)

/-- Node of an edge port: 25,600 on for the north edge by column, then south by column, west and east by row. -/
def edgeNode (e : Endp) : Nat :=
  if e.port = 0 then 25600 + 320 * e.edge + e.pos else 26240 + 80 * e.edge + e.pos

/-- Router of an endpoint. -/
def Endp.router (e : Endp) (width : Nat) : Nat × Nat :=
  if e.port = 0 then (if e.edge = 0 then 0 else 79, e.pos) else (e.pos, if e.edge = 0 then 0 else width - 1)

/-- Directed hops of a record (R104, R105). -/
def RouteRec.hops (r : RouteRec) (mem : Bool) (width : Nat) : List (Nat × Nat) :=
  let e := Endp.of r.dstEp
  if mem && e.port == 2 then []
  else
    let stop := if mem then e.router width else rc r.dstEp
    let path := pathHops r.vert (rc r.src) (r.wp1.toList ++ r.wp2.toList ++ [stop])
    if mem then path ++ [(coreIx stop.1 stop.2, edgeNode e)] else path

/-- Slots of a mask. -/
def slotBits (m : Nat) : List Nat := (List.range 15).filter fun i => bit m i

/-- Hops of a multicast tree (R113). -/
def treeHops (root : Nat) (d : Rect) : List (Nat × Nat) :=
  let (r0, c0) := rc root
  let ra := d.row0
  let rb := d.row0 + d.nrows - 1
  let ca := d.col0
  let cb := d.col0 + d.ncols - 1
  let spine := min (max r0 ra) rb
  hopsV c0 r0 spine ++ hopsH spine c0 (min c0 ca) ++ hopsH spine c0 (max c0 cb) ++
    (List.range d.ncols).flatMap fun i => hopsV (ca + i) spine ra ++ hopsV (ca + i) spine rb

/-- Links of a chain, in order (R114). -/
def chainLinks (root : Nat) (d : Rect) : List (Nat × Nat) :=
  let order := d.chainOrder
  (root :: order.dropLast).zip order

/-- Hops of a chain's link. Where its two cores are not neighbours, as the root and the first core may be, it runs
horizontally first (log 75). -/
def linkHops (p : Nat × Nat) : List (Nat × Nat) := legHops false (rc p.1) (rc p.2)

/-- A hop lies inside a partition (05_fabric.md "Slot allocation"). -/
def hopInside (part : List Rect) (h : Nat × Nat) : Bool :=
  let ok := fun (n : Nat) => 25600 ≤ n || part.any (·.has n)
  ok h.1 && ok h.2

end Sys2Proof.Machine
end

