-- ==== Sys2Proof/Machine/Loader.lean ====
section
/-! DEFINITION. The configuration image as the loader reads it (04_stations_and_streams.md R66-R73, Tables 4.1, 4.2;
05_fabric.md Tables 5.2, 5.3; 10_experts.md Tables 10.1, 10.2) and the checks of steps 1 to 3 of R97. -/

namespace Sys2Proof.Machine

/-! ### Reading -/

/-- Little-endian field of an image; bytes beyond its end read zero. -/
def fa (a : Array Byte) (off n : Nat) : Nat := leNat ((List.range n).map fun i => a.getD (off + i) 0)

def zeroAt (a : Array Byte) (off n : Nat) : Bool := (List.range n).all fun i => a.getD (off + i) 0 == 0

/-- A check that failed: code and item index. -/
abbrev Bad := Nat × Nat

/-- Codes of one item, in order. -/
def codes (item : Nat) (cs : List (Bool × Nat)) : Option Bad :=
  (cs.find? fun c => !c.1).map fun c => (c.2, item)

/-- Header fields (Table 4.1). -/
structure Hdr where
  (magic version mode width drip length nstation nstream nrail narg : Nat)
  (offStation offStream offProgram offPool offRail offArg : Nat)
  deriving DecidableEq, Repr

def Hdr.of (a : Array Byte) : Hdr :=
  { magic := fa a 0 4, version := fa a 4 2, mode := fa a 6 1, width := fa a 8 2, drip := fa a 10 2, length := fa a 12 4,
    nstation := fa a 16 2, nstream := fa a 18 2, nrail := fa a 20 1, narg := fa a 22 2, offStation := fa a 24 4,
    offStream := fa a 28 4, offProgram := fa a 32 4, offPool := fa a 36 4, offRail := fa a 40 4, offArg := fa a 44 4 }

def Hdr.offsets (h : Hdr) : List Nat := [h.offStation, h.offStream, h.offProgram, h.offPool, h.offRail, h.offArg]

/-- End of the area that starts at an offset (R67). -/
def Hdr.areaEnd (h : Hdr) (start : Nat) : Nat :=
  (h.offsets.filter fun o => start < o).foldl min h.length

/-- An expert entry (Table 10.2). -/
def ExpertEnt.of (a : Array Byte) (o : Nat) : ExpertEnt :=
  ⟨fa a o 2, fa a (o + 2) 1 % 4, fa a (o + 3) 1 % 16, fa a (o + 4) 2 % 4096⟩

/-- A routing block (Table 10.1) whose header starts at `o`, with `n` expert entries. -/
def Routing.of (a : Array Byte) (o n : Nat) : Routing :=
  { nexp := fa a o 2, topk := fa a (o + 2) 1, gatefn := fa a (o + 3) 1, spillDepth := fa a (o + 4) 1,
    renorm := bit (fa a (o + 5) 1) 0, exch := bit (fa a (o + 5) 1) 1, rq := fa a (o + 6) 1, capMax := fa a (o + 8) 4,
    capFactor := fa a (o + 12) 4, scores := fa a (o + 16) 8, tmax := fa a (o + 24) 4, routeWait := fa a (o + 28) 4,
    dispatch := fa a (o + 32) 8, combine := fa a (o + 40) 8, gates := fa a (o + 48) 8, ybuf := fa a (o + 56) 8,
    yrow := fa a (o + 64) 4, rel0 := fa a (o + 68) 2, nrel := fa a (o + 70) 2, counters := fa a (o + 72) 8,
    group := fa a (o + 80) 2, period := fa a (o + 84) 4, dispOff := fa a (o + 88) 4, retOff := fa a (o + 92) 4,
    experts := (List.range n).map fun e => ExpertEnt.of a (o + 96 + 8 * e) }

/-- Bytes of a program block of a kind with a count. -/
def blockSize' (kind n : Nat) : Nat :=
  8 + (if kind = 1 then 8 * n else if kind = 2 then alignUp (4 * n) 8 else 96 + 8 * n)

/-- Program blocks with their offsets, from `pos` to the end of the area; none when the area breaks R67. -/
def programsAt (a : Array Byte) (stop : Nat) : Nat → Nat → Option (List (Program × Nat))
  | 0, pos => if pos = stop then some [] else none
  | fuel + 1, pos =>
    if pos = stop then some []
    else
      let kind := fa a pos 1
      let n := fa a (pos + 2) 2
      let next := pos + blockSize' kind n
      let padOk := kind != 2 || zeroAt a (pos + 8 + 4 * n) (next - (pos + 8 + 4 * n))
      if !(1 ≤ kind && kind ≤ 3 && next ≤ stop && zeroAt a (pos + 1) 1 && zeroAt a (pos + 4) 4 && padOk) then none
      else
        let p : Program := match kind with
          | 1 => .step ((List.range n).map fun i => BitVec.ofNat 64 (fa a (pos + 8 + 8 * i) 8))
          | 2 => .stream ((List.range n).map fun i => BitVec.ofNat 32 (fa a (pos + 8 + 4 * i) 4))
          | _ => .routing (Routing.of a (pos + 8) n)
        (programsAt a stop fuel next).map fun ps => (p, pos) :: ps

def Hdr.programs (h : Hdr) (a : Array Byte) : Option (List (Program × Nat)) :=
  let stop := h.areaEnd h.offProgram
  programsAt a stop ((stop - h.offProgram) / 8 + 1) h.offProgram

/-- A station entry (Table 4.2). -/
def Station.of (a : Array Byte) (o : Nat) : Station :=
  { rect := ⟨fa a (o + 32) 1, fa a (o + 33) 1, fa a (o + 34) 2, fa a (o + 36) 2⟩
    stepProg := fa a (o + 38) 2
    streamProg := (List.range 4).map fun i => fa a (o + 40 + 2 * i) 2
    queues := (List.range 8).map fun i => fa a (o + 48 + i) 1
    pool := fa a (o + 56) 4, sramKib := fa a (o + 60) 2 }

/-- A waypoint (Table 5.3). -/
def waypoint (w : Nat) : Option (Nat × Nat) := if w = 0xFFFF then none else some (bits w 15 9, bits w 8 0)

def RouteRec.of (a : Array Byte) (o : Nat) : RouteRec :=
  ⟨fa a o 4, fa a (o + 4) 4, fa a (o + 8) 2 % 2 ^ 15, bit (fa a (o + 10) 1) 0, waypoint (fa a (o + 12) 2),
    waypoint (fa a (o + 14) 2)⟩

/-- A stream entry (Table 5.2), its records read from the stream table at `base`. DST of a memory route is kept as its
role (DST_Q). Of an entry that claims more records than `fieldsOk` admits, the first 25,600. -/
def StreamEnt.of (a : Array Byte) (base o : Nat) : StreamEnt :=
  let kind := fa a o 1
  let dq := fa a (o + 5) 1 % 4
  { kind, watch := (let w := fa a (o + 1) 1 % 32; if w = 0 then 12 else w), src := fa a (o + 2) 2,
    srcQ := fa a (o + 4) 1 % 4, dstQ := dq, dst := if kind = 1 then dq else fa a (o + 6) 2,
    treeSlots := fa a (o + 16) 2 % 2 ^ 15, treeK := fa a (o + 18) 1 % 16,
    routes := (List.range (min (fa a (o + 12) 4) 25600)).map fun i => RouteRec.of a (base + fa a (o + 8) 4 + 16 * i) }

def RailEnt.of (a : Array Byte) (o : Nat) : RailEnt := ⟨fa a o 4, fa a (o + 4) 1, fa a (o + 8) 4, fa a (o + 12) 2⟩

/-- The image as its tables give it. -/
def Hdr.image (h : Hdr) (a : Array Byte) (ps : List (Program × Nat)) : Image :=
  { flat := h.mode == 1, width := h.width, dripKib := h.drip
    stations := (List.range h.nstation).map fun i => Station.of a (h.offStation + 64 * i)
    streams := (List.range h.nstream).map fun i => StreamEnt.of a h.offStream (h.offStream + 32 * i)
    programs := ps.map (·.1)
    pool := (List.range ((h.areaEnd h.offPool - h.offPool) / 8)).map fun i => BitVec.ofNat 64 (fa a (h.offPool + 8 * i) 8)
    rails := (List.range h.nrail).map fun i => RailEnt.of a (h.offRail + 16 * i)
    args := (List.range h.narg).map fun i => (fa a (h.offArg + 8 * i) 4, fa a (h.offArg + 8 * i + 4) 2) }

/-! ### Step 1: the header (codes 0x0001 to 0x0003) -/

/-- The header's first failure. All of code 0x0001 comes before 0x0002 and 0x0003, in ascending byte offset, the program
area after byte 48 (log 96, DESIGN CHOICE). -/
def Hdr.fail (h : Hdr) (a : Array Byte) (cmdLen w : Nat) : Option Bad :=
  let off := fun (o size : Nat) => o % 64 == 0 && o + max 1 size ≤ h.length
  let one := fun (item : Nat) (ok : Bool) => if ok then none else some ((0x0001, item) : Bad)
  one 0 (h.magic == 0x31464353) <|> one 4 (h.version == 1) <|> one 7 (zeroAt a 7 1) <|>
    one 8 (1 ≤ h.width && h.width ≤ 320) <|> one 16 (1 ≤ h.nstation && h.nstation ≤ 25600) <|>
    one 18 (h.nstream ≤ 4095) <|> one 20 (h.nrail ≤ 16) <|> one 21 (zeroAt a 21 1) <|> one 22 (h.narg ≤ 4096) <|>
    one 24 (off h.offStation (64 * h.nstation)) <|> one 28 (off h.offStream (32 * h.nstream)) <|>
    one 32 (off h.offProgram 1) <|> one 36 (off h.offPool 1) <|> one 40 (off h.offRail (16 * h.nrail)) <|>
    one 44 (off h.offArg (8 * h.narg)) <|> one 48 (zeroAt a 48 16) <|> one 32 (h.programs a).isSome <|>
    codes 0 [(h.length == cmdLen, 0x0002), (h.mode ≤ 1 && h.width ≤ w, 0x0003)]

/-! ### Step 2: the stations (codes 0x0010 to 0x0014) -/

/-- Queues, 0-3 input and 4-7 output, that the engines of a station name: one entry per engine and queue. -/
def Image.namedQueues (im : Image) (st : Station) : List Nat :=
  st.streamProg.flatMap fun (p : Nat) => match im.programs[p]? with
    | some (.stream ws) => (List.range 8).filter fun q =>
        ws.any fun w => siOp w.toNat == 9 && siMode w.toNat < 2 && 4 * siMode w.toNat + siQueue w.toNat == q
    | some (.routing r) => [4 + r.rq]
    | _ => []

/-- Queue declarations of a station: the first failing queue. -/
def Image.queueFail (im : Image) (i : Nat) (st : Station) : Option Bad :=
  let named := im.namedQueues st
  (List.range 8).findSome? fun q =>
    let b := st.queues.getD q 0
    codes (8 * i + q) [(schemeOk (qFmt b) (qSch b) && qBind b != 3 && (qBind b != 2 || named.count q == 1), 0x0014)]

def isStepProg (p : Option Program) : Bool := match p with
  | some (.step _) => true
  | _ => false

def isEngineProg (p : Option Program) : Bool := match p with
  | some (.stream _) => true
  | some (.routing _) => true
  | _ => false

def isRoutingProg (p : Option Program) : Bool := match p with
  | some (.routing _) => true
  | _ => false

/-- Checks of station `i`; `a` and `o` are the image bytes and the entry's offset. -/
def Image.stationFail (im : Image) (a : Array Byte) (o i w : Nat) (part : List Rect) : Option Bad :=
  match im.station? i with
  | none => none
  | some st =>
    let r := st.rect
    let earlier := im.stations.take i
    codes i [
      (r.row0 ≤ 79 && 1 ≤ r.nrows && r.nrows ≤ 80 && 1 ≤ r.ncols && r.ncols ≤ 320 && r.row0 + r.nrows ≤ 80 &&
        r.col0 + r.ncols ≤ w && st.sramKib ≤ 256 && zeroAt a (o + 62) 2 && isStepProg im.programs[st.stepProg]? &&
        (st.streamProg.all fun p => p == 0xFFFF || isEngineProg im.programs[p]?) &&
        (st.streamProg.filter fun p => isRoutingProg im.programs[p]?).length ≤ 1 &&
        16 * (st.pool + 4 * r.nrows * r.ncols) ≤ im.pool.length, 0x0010),
      (r.cores.all fun c => part.any (·.has c), 0x0011),
      (r.cores.all fun c => !earlier.any fun e => e.rect.has c, 0x0012),
      (st.sramKib + im.dripKib ≤ 256 && im.dripKib ≤ 64 && im.dripKib % 4 == 0, 0x0013)] <|> im.queueFail i st

/-! ### Step programs (codes 0x0020 to 0x0022) -/

/-- Fields an opcode uses (Table 4.6). -/
structure OpRow where
  (inq pop out acc clr fmt passes rep : Bool)
  (subBits : Nat)
  tgt : Bool
  immBits : Nat
  /-- highest listed SUB -/
  subMax : Nat
  deriving DecidableEq, Repr

def opRow : Nat → Option OpRow
  | 0x01 | 0x02 => some ⟨true, true, true, true, true, false, true, true, 0, false, 0, 0⟩
  | 0x03 => some ⟨true, true, true, true, false, true, false, false, 8, false, 0, 6⟩
  | 0x04 => some ⟨true, true, true, true, false, true, false, false, 8, false, 0, 4⟩
  | 0x05 => some ⟨true, true, true, true, false, false, false, false, 8, false, 0, 4⟩
  | 0x06 => some ⟨true, true, true, true, false, false, false, false, 8, false, 0, 7⟩
  | 0x07 => some ⟨true, true, true, false, false, true, false, false, 0, false, 0, 0⟩
  | 0x08 => some ⟨false, false, true, true, false, true, false, false, 0, false, 0, 0⟩
  | 0x09 => some ⟨true, true, true, false, false, false, false, false, 0, false, 0, 0⟩
  | 0x0A => some ⟨true, true, false, false, false, false, false, false, 0, false, 0, 0⟩
  | 0x10 => some ⟨true, false, false, false, false, false, false, false, 0, true, 0, 0⟩
  | 0x11 => some ⟨false, false, false, false, false, false, false, false, 0, true, 0, 0⟩
  | 0x12 => some ⟨false, false, false, false, false, false, false, true, 8, false, 2, 255⟩
  | 0x13 => some ⟨false, false, false, false, false, false, false, false, 0, true, 2, 0⟩
  | 0x14 => some ⟨false, false, false, false, false, false, false, false, 4, true, 8, 15⟩
  | 0x15 => some ⟨false, false, false, false, false, false, false, false, 0, false, 4, 0⟩
  | 0x16 => some ⟨false, false, true, false, false, false, false, false, 0, false, 0, 0⟩
  | 0x17 => some ⟨false, false, false, false, false, false, false, false, 0, false, 0, 0⟩
  | _ => none

/-- Unused fields are zero; FTZ is judged under 0x0022 (R154). -/
def OpRow.unusedZero (r : OpRow) (w : SW) : Bool :=
  (r.inq || w.inq == 0) && (r.pop || w.pop == 0) && (r.out || w.out == 0) && (r.acc || w.acc == 0) && (r.clr || !w.clr) &&
    (r.fmt || (w.ofmt == 0 && w.osch == 0)) && (r.passes || w.passes == 0) && (r.rep || w.repeat_ == 0) &&
    w.sub < 2 ^ r.subBits && (r.tgt || w.tgt == 0) && w.imm < 2 ^ r.immBits && w.rsv == 0

/-- Input count of an opcode (Table 4.6). DROP and ONEOS take at least one input, since they act on the queues they name
(log 127, DESIGN CHOICE). -/
def insOk (op n : Nat) : Bool :=
  match op with
  | 0x01 | 0x02 | 0x04 => n == 2
  | 0x03 | 0x05 | 0x06 | 0x07 | 0x09 => n == 1
  | 0x0A | 0x10 => 1 ≤ n
  | _ => n == 0

/-- Operand pairs of MMA (Table 6.3). -/
def mmaPair (a b : Nat) : Bool :=
  let fp8 := fun f => 3 ≤ f && f ≤ 7
  (fp8 a && fp8 b) || (a == 8 && (b == 8 || b == 9)) || (a == 9 && (b == 9 || b == 8)) ||
    ((a == 1 || a == 2) && (b == 1 || b == 2)) || (a == 0 && b == 0)

/-- Formats of a step (code 0x0022). -/
def SW.formatsOk (w : SW) (r : OpRow) (st : Station) : Bool :=
  let inF := fun n => qFmt (st.iq n)
  let outs := w.outs.map fun n => (qFmt (st.oq n), qSch (st.oq n))
  let mma := w.op == 1 || w.op == 2
  (!w.ftz || w.op == 3 || w.op == 4 || w.op == 5) &&
    (!mma || (mmaPair (inF (w.ins.getD 0 0)) (inF (w.ins.getD 1 0)) && w.passes != 3 &&
      (w.passes == 0 || (inF (w.ins.getD 0 0) == 0 && inF (w.ins.getD 1 0) == 0)))) &&
    (!r.fmt || (schemeOk w.ofmt w.osch && outs.all (· == (w.ofmt, w.osch)))) &&
    (w.op != 9 || outs.all (· == (inF (w.ins.getD 0 0), qSch (st.iq (w.ins.getD 0 0)))))

/-- Checks of one step. -/
def Image.stepFail (im : Image) (st : Station) (item n : Nat) (w : SW) : Option Bad :=
  match opRow w.op with
  | none => some (0x0020, item)
  | some r =>
    codes item [
      (r.unusedZero w && (!r.tgt || w.tgt < n) && w.sub ≤ r.subMax, 0x0020),
      (insOk w.op w.ins.length && (w.pops.all w.ins.contains) && (w.ins.all fun q => qBind (st.iq q) != 0) &&
        (w.outs.all fun q => qBind (st.oq q) != 0) && !(w.out != 0 && [1, 2, 5, 6].contains w.op) &&
        (w.op != 0x14 || w.imm % 16 < im.rails.length), 0x0021),
      (w.formatsOk r st, 0x0022)]

def Image.stepProgFail (im : Image) (st : Station) : Option Bad :=
  match im.stepProg? st.stepProg with
  | none => none
  | some ws =>
    codes (256 * st.stepProg) [(1 ≤ ws.length && ws.length ≤ 256, 0x0020)] <|>
      (List.range ws.length).findSome? fun i =>
        im.stepFail st (256 * st.stepProg + i) ws.length (SW.of (ws.getD i 0).toNat)

/-! ### Stream programs (codes 0x0030 to 0x0035) -/

/-- A pool word as the loader knows it: value, and whether an argument is bound to it (R68). -/
abbrev PoolVal := Nat × Bool

/-- The engine state that settings build up (R97). -/
structure Sym where
  regs : List PoolVal
  counts : List Nat
  strides : List PoolVal
  (rowLvl colLvl : Nat)
  shape : PoolVal
  (shapePool shapeAt : Nat)
  (fmt scheme : Nat)
  (transposed rowMajor : Bool)
  /-- gathered levels with their bound -/
  gathers : List (Nat × PoolVal)
  deriving DecidableEq, Repr

def Sym.start : Sym :=
  { regs := List.replicate 5 (0, false), counts := List.replicate 6 1, strides := List.replicate 6 (0, false), rowLvl := 7,
    colLvl := 7, shape := (0, false), shapePool := 0, shapeAt := 64, fmt := 0, scheme := 0, transposed := false,
    rowMajor := false, gathers := [] }

/-- What one setting does. -/
def Sym.set (y : Sym) (pool : Nat → PoolVal) (at_ w : Nat) : Sym :=
  match siOp w with
  | 1 => { y with regs := y.regs.set (siLvl w) (pool (siPool w)) }
  | 2 => { y with counts := y.counts.set (siLvl w) (bits w 23 0 + 1) }
  | 3 => { y with strides := y.strides.set (siLvl w) (pool (siPool w)) }
  | 4 => { y with rowLvl := siLvl w, colLvl := bits w 24 22, shape := pool (siPool w), shapePool := siPool w, shapeAt := at_ }
  | 5 => { y with fmt := bits w 27 24, scheme := bits w 23 22, transposed := bit w 19, rowMajor := bit w 18 }
  | 6 => { y with gathers := (y.gathers.filter fun g => g.1 != siLvl w) ++ [(siLvl w, pool (siPool w))] }
  | _ => y

/-! What a RUN reaches: a nest of ranges (R83, R84, R88, R377). Dimensions 0 to 5 are the loop levels, dimension 6 the rows
of a tile that lie apart. -/

/-- Index range and stride of one dimension. -/
structure Dim where
  (lo hi : Nat)
  stride : Int
  deriving DecidableEq, Repr

/-- `fixed` is the length of one range; where it is 0, a range holds the units of at most 32 elements of a tensor row,
`num` units to `den` elements. -/
structure Nest where
  base : Nat
  dims : List Dim
  (rowLvl colLvl rows cols fixed num den : Nat)
  deriving DecidableEq, Repr

def Nest.dim (n : Nest) (l : Nat) : Dim := n.dims.getD l ⟨0, 0, 0⟩

/-- Highest row of dimension 6 at the lowest tile row of the nest (R84). -/
def Nest.lastRow (n : Nest) : Nat :=
  if n.fixed = 0 then min (n.dim 6).hi (min 32 (n.rows - 32 * (n.dim n.rowLvl).lo) - 1) else 0

/-- Length of one range at the lowest tile column. -/
def Nest.line (n : Nest) : Nat :=
  if n.fixed = 0 then ceilDiv (min 32 (n.cols - 32 * (n.dim n.colLvl).lo) * n.num) n.den else n.fixed

/-- A context address from a base and an offset. -/
def wrapAddr (base : Nat) (d : Int) : Nat := unsigned 64 (base + d)

/-- First address and length of an extent that covers all ranges of a nest: the range itself when there is but one. -/
def Nest.extent (n : Nest) : Nat × Nat :=
  let ds := n.dims.take 6 ++ [{ n.dim 6 with hi := n.lastRow }]
  let ends := ds.map fun d => (d.stride * (d.lo : Int), d.stride * (d.hi : Int))
  let lo := ends.foldl (fun a e => a + min e.1 e.2) 0
  let hi := ends.foldl (fun a e => a + max e.1 e.2) 0
  (wrapAddr n.base lo, (hi - lo).toNat + n.line)

/-- Bytes a dimension spans. -/
def Dim.span (d : Dim) : Nat := d.stride.natAbs * (d.hi - d.lo)

/-- The two halves of a nest along the level that spans most, or between the rows of one tile; none when there is one
range. -/
def Nest.split (n : Nest) : Option (Nest × Nest) :=
  let ds := n.dims.take 6 ++ [{ n.dim 6 with hi := n.lastRow }]
  let span := fun l : Nat => Dim.span (ds.getD l ⟨0, 0, 0⟩)
  let widest : Nat := (List.range 6).foldl (fun m l => if span m < span l then l else m) 0
  let l : Nat := if span widest = 0 then 6 else widest
  let d : Dim := ds.getD l ⟨0, 0, 0⟩
  if d.span = 0 then none
  else
    let mid := (d.lo + d.hi) / 2
    some ({ n with dims := ds.set l { d with hi := mid } }, { n with dims := ds.set l { d with lo := mid + 1 } })

/-- Every range of a nest passes a test that a part of a range passes with the whole. -/
def Nest.all (ok : Nat → Nat → Bool) : Nat → Nest → Bool
  | 0, n => ok n.extent.1 n.extent.2
  | fuel + 1, n => ok n.extent.1 n.extent.2 || match n.split with
    | some (x, y) => Nest.all ok fuel x && Nest.all ok fuel y
    | none => false

/-- What the ranges of a nest reach, region by region: the region's first address, and the key and length of an extent in
it. -/
def Nest.touched (reach : Nat → Nat → Option (Nat × Nat)) : Nat → Nest → List (Nat × Nat × Nat)
  | 0, _ => []
  | fuel + 1, n =>
    match reach n.extent.1 n.extent.2, n.split with
    | some (r, k), _ => [(r, k, n.extent.2)]
    | none, some (x, y) =>
      let xs := Nest.touched reach fuel x
      xs ++ (Nest.touched reach fuel y).filter fun t => !xs.any fun u => u.1 == t.1
    | none, none => []

/-- Halvings that leave one range of any nest. -/
def nestFuel : Nat := 512

/-- What one RUN asks of memory: the ranges when they depend on no argument-bound word, and what has to be aligned in the
memory it reaches: the base, strides, PITCH, each when no argument is bound to it; of a scale tensor, its base. -/
structure Reach where
  write : Bool
  scale : Bool
  nest : Option Nest
  base : Option Nat
  steps : List Nat
  pitch : Option Nat
  deriving DecidableEq, Repr

/-- Highest index of a level, counted from 0; none for a level that makes no iteration. A bound that an argument sets stands at
what the image gives, or at one iteration where that is 0: the ranges it moves are not judged. -/
def Sym.top (y : Sym) (l : Nat) : Option Nat :=
  match y.gathers.find? fun g => g.1 == l with
  | some g => if g.2.1 = 0 then (if g.2.2 then some 0 else none) else some (g.2.1 - 1)
  | none => some (y.counts.getD l 1 - 1)

/-- A gather bound that an argument is bound to, at one of some levels. -/
def Sym.gatherBound (y : Sym) (lvls : List Nat) : Bool := y.gathers.any fun g => g.2.2 && lvls.contains g.1

/-- The ranges of the nest depend on an argument-bound stride or gather bound. -/
def Sym.nestBound (y : Sym) : Bool :=
  ((List.range 6).any fun l => (y.strides.getD l (0, false)).2 && y.top l != some 0) || y.gatherBound (List.range 6)

def Sym.alignSteps (y : Sym) : List Nat := (y.strides.filter fun s => !s.2).map (·.1)

def knownWord (p : PoolVal) : Option Nat := if p.2 then none else some p.1

/-- The loop levels of a nest, the index of a shaped level held to the tiles that have rows and columns (R84); none when
there is no iteration. A level that moves nothing stands at its first index. -/
def Sym.levels (y : Sym) (rows cols : Nat) (stride : Nat → Int) : Option (List Dim) :=
  (List.range 6).foldr (fun l acc => match acc, y.top l with
    | some ds, some m =>
      let m1 := if l = y.rowLvl then min m (ceilDiv rows 32 - 1) else m
      let m2 := if l = y.colLvl then min m1 (ceilDiv cols 32 - 1) else m1
      some (⟨0, if stride l = 0 then 0 else m2, stride l⟩ :: ds)
    | _, _ => none) (some [])

/-- A mode-0 or mode-1 RUN: its elements, then its scales (R84, R85, R377). Where it makes no tile in bounds it forms no
range, and its bases and strides are still judged by their alignment. In tiled layout the range of a tile is its whole payload
and scale block, for a tile with fewer valid elements too (DESIGN CHOICE, log 137). -/
def Sym.tileRanges (y : Sym) (pool : Nat → PoolVal) (write : Bool) : List Reach :=
  let rows := y.shape.1 % 2 ^ 32
  let cols := y.shape.1 / 2 ^ 32 % 2 ^ 32
  let base := y.regs.getD 0 (0, false)
  let pitch := y.regs.getD 4 (0, false)
  let empty := !y.shape.2 && (rows = 0 || cols = 0)
  let elems := if empty then none else (y.levels rows cols fun l => signed 64 (y.strides.getD l (0, false)).1).map fun ds =>
    if y.rowMajor then
      (⟨base.1, ds ++ [⟨0, 31, (pitch.1 : Int)⟩], y.rowLvl, y.colLvl, rows, cols, 0, fmtWidth y.fmt, 8⟩ : Nest)
    else ⟨base.1, ds ++ [⟨0, 0, 0⟩], y.rowLvl, y.colLvl, rows, cols, tileBytes y.fmt y.scheme, 0, 1⟩
  let elemsBound := y.shape.2 || y.nestBound || base.2 || (y.rowMajor && pitch.2)
  let p1 := pool (y.shapePool + 1)
  let p2 := pool (y.shapePool + 2)
  let scalePitch : Nat := p1.1 / 2 ^ 32
  let perTile : Nat := 32 / max 1 (blockSize y.scheme)
  let scales := if empty then none else (y.levels rows cols fun l => (if l = y.rowLvl then 32 * (scalePitch : Int) else 0) +
      (if l = y.colLvl then (perTile : Int) else 0)).map fun ds =>
    (⟨p2.1, ds ++ [⟨0, 31, (scalePitch : Int)⟩], y.rowLvl, y.colLvl, rows, cols, 0, 1, blockSize y.scheme⟩ : Nest)
  let scalesBound := y.shape.2 || p1.2 || p2.2 || y.gatherBound [y.rowLvl, y.colLvl]
  (⟨write, false, if elemsBound then none else elems, knownWord base, y.alignSteps, if y.rowMajor then knownWord pitch else none⟩ : Reach) ::
    (if y.rowMajor && y.scheme != 0 && y.shapePool ≤ 13 then
      [(⟨write, true, if scalesBound then none else scales, knownWord p2, [], none⟩ : Reach)] else [])

/-- A mode-2 RUN: its sources, then its destinations (R88); SHAPE bounds neither. -/
def Sym.blockRanges (y : Sym) : List Reach :=
  let reg := fun i => y.regs.getD i (0, false)
  let (base, dbase, dlen, run) := (reg 0, reg 1, reg 2, reg 3)
  let levels := ({ y with rowLvl := 7, colLvl := 7 } : Sym).levels 0 0 fun l => signed 64 (y.strides.getD l (0, false)).1
  let total := y.counts.foldl (· * ·) 1
  let flat := fun (b : Nat) (ds : List Dim) => (⟨b, ds, 7, 7, 0, 0, run.1, 0, 1⟩ : Nest)
  let sized := !run.2 && run.1 != 0
  let blocks := if dlen.1 = 0 then total else min total (max 1 (dlen.1 / max 1 run.1))
  let void := y.gathers.any fun g => !g.2.2 && g.2.1 == 0
  [⟨false, false, if sized && !y.nestBound && !base.2 then levels.map fun ds => flat base.1 (ds ++ [⟨0, 0, 0⟩]) else none,
      knownWord base, y.alignSteps, none⟩,
   ⟨true, false, if sized && !dbase.2 && !dlen.2 && !void then
        some (flat dbase.1 (⟨0, blocks - 1, (run.1 : Int)⟩ :: List.replicate 6 ⟨0, 0, 0⟩))
      else none, knownWord dbase, [], none⟩]

/-- What a RUN's check works with. -/
structure RunEnv where
  im   : Image
  st   : Station
  c    : Ctx
  core : Nat

/-- A range in a region with the rights, and not in another core's SRAM: the region's first address, and the key (code
0x0033). -/
def RunEnv.reach (v : RunEnv) (write : Bool) (a len : Nat) : Option (Nat × Nat) :=
  match v.c.region? a, v.c.engineKey v.core a len (!write) write with
  | some r, some k =>
    let own := k / sramBytes == sramKey v.core / sramBytes && (k + len - 1) / sramBytes == sramKey v.core / sramBytes
    if spaceOf k = 2 && !own then none else some (r.cbase, k)
  | _, _ => none

/-- Space of the memory a context address lies in. -/
def RunEnv.spaceAt (v : RunEnv) (a : Nat) : Option Nat := (v.c.region? a).map fun r => spaceOf r.target

/-- What memory of a space asks of alignments (code 0x0032): 256 B of what lies in HBM or DDR, and 64 B of tile buffers in SRAM,
which a scale tensor is not. -/
def Reach.alignedIn (r : Reach) (space : Nat) : Bool :=
  let al := if space = 2 then (if r.scale then 1 else 64) else if space = 0 || space = 1 then 256 else 1
  (r.base.getD 0) % al == 0 && (r.steps.all fun t => t % al == 0) && (al != 256 || (r.pitch.getD 0) % al == 0)

/-- Codes that what a RUN reaches fails, and what it reaches, region by region. Its ranges are judged one by one. -/
def RunEnv.rangeCodes (v : RunEnv) (mode : Nat) (r : Reach) : List Nat × List (Nat × Nat) :=
  let judged := r.nest.map fun n => (n, n.all (fun a l => (v.reach r.write a l).isSome) nestFuel)
  let hits := match judged with
    | some (n, true) => (n.touched (v.reach r.write) nestFuel).map (·.2)
    | _ => []
  let spaces := (match r.base with
    | some b => (v.spaceAt b).toList
    | none => []) ++ (if r.base.isSome then hits.map fun h => spaceOf h.1 else [])
  let small := match judged with
    | some (n, true) => n.all (fun a l => match v.reach r.write a l with
        | some (_, k) => spaceOf k != 2 || k % sramBytes + l ≤ 1024 * v.st.sramKib
        | none => false) nestFuel
    | _ => true
  ((if spaces.all r.alignedIn then [] else [0x0032]) ++
   (match judged with
    | some (_, false) => [0x0033]
    | _ => []) ++
   (if v.im.flat && mode < 2 && hits.any fun h => spaceOf h.1 == 3 then [0x0034] else []) ++
   (if small then [] else [0x0035]), hits)

/-- An access beyond the engine's own SRAM: write, key, length, instruction. -/
abbrev Access := Bool × Nat × Nat × Nat

/-- Codes of a RUN in a state, against its own instruction and against its SHAPE; and its accesses. -/
def RunEnv.runCodes (v : RunEnv) (pool : Nat → PoolVal) (y : Sym) (at_ w : Nat) : List (Nat × Nat) × List Access :=
  let mode := siMode w
  let ranges := if mode < 2 then y.tileRanges pool (mode == 1) else y.blockRanges
  let judged := ranges.map fun r => (r, v.rangeCodes mode r)
  let own :=
    (if mode == 2 && v.im.flat then [0x0034] else []) ++
    (if mode < 2 && v.st.queues.getD (4 * mode + siQueue w) 0 % 64 != y.fmt + 16 * y.scheme then [0x0031] else []) ++
    (if mode == 2 then
      let run := y.regs.getD 3 (0, false)
      let dlen := y.regs.getD 2 (0, false)
      if !run.2 && (run.1 == 0 || run.1 % 64 != 0 || (!dlen.2 && dlen.1 % run.1 != 0)) then [0x0032] else []
     else []) ++
    judged.flatMap (·.2.1)
  let shape := if mode < 2 && y.shapeAt < 64 &&
      ((y.shapePool == 15 && 2 ≤ y.scheme) || (14 ≤ y.shapePool && y.rowMajor && y.scheme != 0)) then
    [(y.shapeAt, 0x0031)] else []
  (own.map (fun c => (at_, c)) ++ shape,
   judged.flatMap fun p => (p.2.2.filter fun h => spaceOf h.1 != 2).map fun h => (p.1.write, h.1, h.2, at_))

/-- What the loader's execution of a program finds: instructions reached, failed codes by instruction, accesses. -/
structure Trace where
  reached : List Nat
  fails : List (Nat × Nat)
  accs : List Access
  deriving DecidableEq, Repr

/-- The execution of R97, from index 0 to ENDP or to an instruction met again in the same state. -/
def RunEnv.follow (v : RunEnv) (ws : List U32) (pool : Nat → PoolVal) : Nat → Nat → Sym → List (Nat × Sym) → Trace → Trace
  | 0, _, _, _, t => t
  | fuel + 1, pc, y, seen, t =>
    if ws.length ≤ pc || seen.contains (pc, y) then t
    else
      let w := (ws.getD pc 0).toNat
      let seen' := (pc, y) :: seen
      let t1 := { t with reached := pc :: t.reached }
      match siOp w with
      | 9 =>
        let (f, acc) := v.runCodes pool y pc w
        RunEnv.follow v ws pool fuel (pc + 1) y seen' { t1 with fails := t.fails ++ f, accs := t.accs ++ acc }
      | 10 => RunEnv.follow v ws pool fuel (bits w 5 0) y seen' t1
      | 11 => t1
      | _ => RunEnv.follow v ws pool fuel (pc + 1) (y.set pool pc w) seen' t1

/-- Pool words of an engine of a core, as the loader knows them. -/
def Image.poolVals (im : Image) (st : Station) (core eng : Nat) (i : Nat) : PoolVal :=
  let w := 16 * (st.pool + 4 * st.rect.posOf core + eng) + i
  if 15 < i then (0, false) else ((im.pool.getD w 0).toNat, im.args.any fun a => a.1 == w)

def Image.traceOf (im : Image) (st : Station) (c : Ctx) (core eng : Nat) (ws : List U32) : Trace :=
  RunEnv.follow ⟨im, st, c, core⟩ ws (im.poolVals st core eng) 4096 0 Sym.start [] ⟨[], [], []⟩

/-- Bits a stream instruction names (Table 4.7). -/
def siMask : Nat → Option Nat
  | 1 => some 0x0E00000F | 2 => some 0x0EFFFFFF | 3 => some 0x0E00000F | 4 => some 0x0FC0000F | 5 => some 0x0FFC0000
  | 6 => some 0x0FC0000F | 7 => some 0x0E00FFFF | 8 => some 0x0E00FFFF | 9 => some 0x0FFFF000 | 10 => some 0x3F
  | 11 => some 0 | _ => none

/-- Code 0x0030 of one instruction. -/
def siDefined (n i w : Nat) : Bool :=
  match siMask (siOp w) with
  | none => false
  | some m =>
    w % 2 ^ 28 &&& m == w % 2 ^ 28 && !(siOp w == 1 && 5 ≤ siLvl w) && !(siOp w == 5 && 0xD ≤ bits w 27 24) &&
      !(siOp w == 9 && (siMode w == 3 || (siMode w == 2 && siQueue w != 0))) && (siOp w != 10 || bits w 5 0 < n) &&
      (i + 1 != n || siOp w == 11)

/-- Code 0x0031 of one reached instruction, apart from what depends on the state; `gathered` are the levels that earlier
reached GATHERs name. -/
def Station.siOk (st : Station) (w : Nat) (gathered : List Nat) : Bool :=
  match siOp w with
  | 2 | 3 => siLvl w ≤ 5
  | 4 => (siLvl w ≤ 5 || siLvl w == 7) && (bits w 24 22 ≤ 5 || bits w 24 22 == 7)
  | 5 => schemeOk (bits w 27 24) (bits w 23 22) && !(bit w 19 && bit w 18 && bits w 23 22 != 0)
  | 6 =>
    let q := st.iq (bits w 24 23)
    siLvl w ≤ 5 && !gathered.contains (siLvl w) && (bit w 22 || (qBind q != 0 && qFmt q == 0xA && qSch q == 0))
  | 9 => bits w 23 21 ≤ 5 && (siMode w == 2 || qBind (st.queues.getD (4 * siMode w + siQueue w) 0) == 2)
  | _ => true

/-- The lowest code an instruction fails in the executions of the station's cores. -/
def lowestFail (fs : List (Nat × Nat)) (i : Nat) : Option Nat :=
  (fs.filter fun f => f.1 == i).foldl (fun m f => match m with
    | some x => some (min x f.2)
    | none => some f.2) none

def Image.streamProgFail (im : Image) (st : Station) (c : Ctx) (eng : Nat) : Option Bad :=
  let p := st.streamProg.getD eng 0xFFFF
  match im.streamProg? p with
  | none => none
  | some ws =>
    let n := ws.length
    let traces := st.rect.cores.map fun core => im.traceOf st c core eng ws
    let reached := traces.flatMap (·.reached)
    let fails := traces.flatMap (·.fails)
    codes (256 * p) [(1 ≤ n && n ≤ 64, 0x0030)] <|> (List.range n).findSome? fun i =>
      let w := (ws.getD i 0).toNat
      let gathered := ((List.range i).filter reached.contains).filterMap fun j =>
        let x := (ws.getD j 0).toNat
        if siOp x = 6 then some (siLvl x) else none
      codes (256 * p + i) [(siDefined n i w, 0x0030), (!reached.contains i || st.siOk w gathered, 0x0031)] <|>
        (lowestFail fails i).map fun code => (code, 256 * p + i)

/-! ### Routing blocks (R244, Table 10.3) -/

/-- Areas of a routing block: address, size, READ, WRITE, in HBM. -/
def Routing.areas (r : Routing) : List (Nat × Nat × Bool × Bool × Bool) :=
  [(r.scores, ceilDiv r.tmax 32 * ceilDiv r.nexp 32 * 4096, true, true, true),
   (r.dispatch, 4 * r.nexp * r.capMax, false, true, false), (r.combine, 4 * r.tmax * r.topk, false, true, false),
   (r.gates, 4 * r.tmax * r.topk, false, true, false), (r.ybuf, (r.nexp * r.capMax + 2) * r.yrow, true, true, true),
   (r.counters, 32 + 4 * r.nexp, false, true, false)]

/-- Positive and finite FP32. -/
def posFinite (x : Nat) : Bool := 0 < x && x < 0x7F800000

/-- Stations named by expert entries before entry `e` of program `p`. -/
def Image.expertsBefore (im : Image) (p e : Nat) : List Nat :=
  ((im.programs.take p).flatMap fun q => match q with
    | .routing r => r.experts.map (·.station)
    | _ => []) ++
  (match im.routing? p with
    | some r => (r.experts.take e).map (·.station)
    | none => [])

def Image.expertOk (im : Image) (a : Array Byte) (o p e chip : Nat) (x : ExpertEnt) : Bool :=
  let isLocal := x.station != 0xFFFF
  fa a (o + 2) 1 < 4 && fa a (o + 3) 1 < 16 && fa a (o + 4) 2 < 4096 && zeroAt a (o + 6) 2 && (x.owner == chip) == isLocal &&
    (!isLocal || match im.station? x.station with
      | none => false
      | some st => !(st.streamProg.any fun q => isRoutingProg im.programs[q]?) &&
        (im.streamProg? (st.streamProg.getD x.engine 0xFFFF)).isSome && !(im.expertsBefore p e).contains x.station)

/-- Checks of the routing block of program `p` at image offset `o`, named by a station. -/
def Image.routingFail (im : Image) (a : Array Byte) (o p : Nat) (st : Station) (c : Ctx) (chip : Nat) : Option Bad :=
  match im.routing? p with
  | none => none
  | some r =>
    let b := o + 8
    let rq := st.oq r.rq
    codes (1024 * p) [
      (1 ≤ r.nexp && r.nexp ≤ 512 && r.nexp == r.experts.length && 1 ≤ r.topk && r.topk ≤ 8 && r.topk ≤ r.nexp &&
        r.gatefn ≤ 1 && r.spillDepth ≤ 32 && fa a (b + 5) 1 < 4 && r.rq ≤ 3 && zeroAt a (b + 7) 1 && 1 ≤ r.capMax &&
        r.capMax ≤ 65535 && (r.capFactor == 0 || posFinite r.capFactor) && 1 ≤ r.tmax && r.tmax ≤ 65536 &&
        1 ≤ r.routeWait && r.routeWait ≤ 2 ^ 31 && r.yrow % 256 == 0 && r.nrel ≤ 64 && zeroAt a (b + 82) 2 &&
        (if r.exch then 1000 ≤ r.period && r.period ≤ 2 ^ 31 && r.dispOff < r.retOff
         else r.group == 0 && r.period == 0 && r.dispOff == 0 && r.retOff == 0), 0x00A0),
      (qFmt rq == 0 && qSch rq == 0 && qBind rq == 2 && (im.namedQueues st).count (4 + r.rq) == 1, 0x00A1),
      (r.areas.all fun x => x.1 % 256 == 0 && match c.translate x.1 x.2.1 x.2.2.1 x.2.2.2.1 with
        | some k => !x.2.2.2.2 || spaceOf k == 0
        | none => false, 0x00A2),
      (r.rel0 + r.nrel ≤ im.stations.length, 0x00A4)] <|>
    (List.range r.experts.length).findSome? fun e =>
      codes (1024 * p + e + 1) [(im.expertOk a (b + 96 + 8 * e) p e chip (r.experts.getD e ⟨0, 0, 0, 0⟩), 0x00A3)]

/-- Step 3 of R97 for one station. -/
def Image.programsFail (im : Image) (a : Array Byte) (offs : List Nat) (st : Station) (c : Ctx) (chip : Nat) : Option Bad :=
  im.stepProgFail st <|> (List.range 4).findSome? fun e =>
    let p := st.streamProg.getD e 0xFFFF
    if isRoutingProg im.programs[p]? then im.routingFail a (offs.getD p 0) p st c chip else im.streamProgFail st c e

end Sys2Proof.Machine
end

