-- ==== Sys2Proof/Machine/Slots.lean ====
section
/-! DEFINITION. Slots of the mesh (05_fabric.md R106-R110, R114, R116): those that routes, trees and chains hold, those that
are free, and a tree rebuilt as a chain. -/

namespace Sys2Proof.Machine

/-! ### Elements out of service -/

/-- Node next to a core in a direction: 0 north, 1 south, 2 east, 3 west; at the outer edge the edge port's node. -/
def Grid.neighbour (g : Grid) (core dir : Nat) : Nat :=
  match dir with
  | 0 => if coreRow core = 0 then 25600 + coreCol core else core - 320
  | 1 => if coreRow core = 79 then 25920 + coreCol core else core + 320
  | 2 => if coreCol core + 1 = g.width then 26320 + coreRow core else core + 1
  | _ => if coreCol core = 0 then 26240 + coreRow core else core - 1

/-- The hop of a held slot, bridge channel and edge port included, is out of service (R109, R320). -/
def Grid.hopFailed (g : Grid) (a b : Nat) : Bool :=
  g.elements.any fun e => e.kind < 3 &&
    let n := g.neighbour e.index e.dir
    (e.index == a && n == b) || (e.index == b && n == a)

def State.holdFailed (s : State) (h : SlotHold) : Bool := s.grid.hopFailed h.src h.dst

/-! ### Slots a stream holds -/

def RouteRec.holds (r : RouteRec) (stream : Nat) (mem : Bool) (width : Nat) : List SlotHold :=
  let slots := slotBits r.slots
  (r.hops mem width).flatMap fun h => slots.flatMap fun x =>
    (⟨h.1, h.2, x, x == 14, stream⟩ : SlotHold) ::
      (if mem then [(⟨h.2, h.1, x, x == 14, stream⟩ : SlotHold)] else [])

/-- Slots of stream `i`, trees apart (R106). -/
def StreamEnt.holds (t : StreamEnt) (i width : Nat) : List SlotHold :=
  if t.kind = 2 then [] else t.routes.flatMap fun r => r.holds i (t.kind == 1) width

def SlotHold.clash (a b : SlotHold) : Bool := a.src == b.src && a.dst == b.dst && a.slot == b.slot

/-- Slots held by routes of the image, and by those before stream `i`. -/
def Image.routeHolds (im : Image) (width : Nat) : List SlotHold :=
  (im.streams.mapIdx fun i t => t.holds i width).flatten

/-! ### Stage 7: slots -/

/-- Slots other loaded configurations hold that count against a job: those of the job, and transit slots of any. -/
def State.heldSlots (s : State) (job : Nat) : List SlotHold :=
  s.ctxs.flatMap fun c => c.cfgs.flatMap fun g => g.holds.filter fun h => c.job == job || h.transit

/-- A slot is free on a hop. -/
def State.slotFree (s : State) (held : List SlotHold) (h : Nat × Nat) (slot : Nat) : Bool :=
  !s.grid.hopFailed h.1 h.2 && !(held.any fun x => x.src == h.1 && x.dst == h.2 && x.slot == slot)

/-- Candidate slots of a tree, 14 left out (R110). -/
def StreamEnt.candidates (t : StreamEnt) : List Nat := (slotBits t.treeSlots).filter (· < 14)

/-- The slots a tree or the links of a chain take (R114): the holds, and whether it became a chain; none for a link
without a free candidate. -/
def State.treeHolds (s : State) (t : StreamEnt) (i root : Nat) (d part : List Rect) (held : List SlotHold) (chainOnly : Bool) :
    Option (List SlotHold × Bool) :=
  match d with
  | [] => none
  | d :: _ =>
    let hops := treeHops root d
    let free := t.candidates.filter fun x => hops.all fun h => s.slotFree held h x
    if !chainOnly && t.treeK ≤ free.length then
      some (hops.flatMap fun h => (free.take t.treeK).map fun x => (⟨h.1, h.2, x, false, i⟩ : SlotHold), false)
    else
      (chainLinks root d).foldl (fun acc l => match acc with
        | none => none
        | some (hs, _) =>
          let lh := linkHops l
          let f := t.candidates.filter fun x => lh.all fun h => hopInside part h && s.slotFree (held ++ hs) h x
          if f.isEmpty then none
          else some (hs ++ lh.flatMap fun h => (f.take t.treeK).map fun x => (⟨h.1, h.2, x, false, i⟩ : SlotHold), true))
        (some ([], true))

/-- Slots of a whole image: its routes, then its trees in stream order; the streams that became chains. -/
def State.allotSlots (s : State) (job : Nat) (im : Image) (part : List Rect) : Option (List SlotHold × List Nat) :=
  let others := s.heldSlots job
  let routes := im.routeHolds s.grid.width
  if routes.any fun h => s.holdFailed h || others.any h.clash then none
  else
    (im.streams.mapIdx fun i t => (i, t)).foldl (fun acc p => match acc with
      | none => none
      | some (hs, chains) =>
        if p.2.kind != 2 then some (hs, chains)
        else match s.treeHolds p.2 p.1 (((p.2.routes.head?).map (·.src)).getD 0)
            (((im.station? p.2.dst).map (·.rect)).toList) part (others ++ hs) false with
          | none => none
          | some (new, chain) => some (hs ++ new, if chain then chains ++ [p.1] else chains))
      (some (routes, []))

/-! ### Service packets (R112) -/

/-- The hop at which a packet waits. -/
def SvcPkt.hop (p : SvcPkt) : Element := p.route.getD p.pos ⟨0, p.core, 0⟩

/-- Direction of the hop from a core to the next. -/
def hopDir (h : Nat × Nat) : Nat := if h.2 + 1 = h.1 then 3 else if h.1 + 1 = h.2 then 2 else if h.1 < h.2 then 1 else 0

/-- A hop as a fabric element: between two dies it is a bridge channel. -/
def Grid.hopOf (g : Grid) (h : Nat × Nat) : Element :=
  ⟨if g.dieOf (coreCol h.1) = g.dieOf (coreCol h.2) then 0 else 1, h.1, hopDir h⟩

/-- A service packet starts onto its way; one without a hop does not enter the mesh. -/
def State.addService (s : State) (cls : Nat) (route : List Element) (core : Nat) (load : SvcLoad) : State :=
  if route.isEmpty then s
  else s.modFab fun f =>
    { f with svc := f.svc ++ [⟨f.nextSvc, cls, route, core, 0, true, 0, 0, load⟩], nextSvc := f.nextSvc + 1 }

/-- A service packet goes from a core to another, horizontal hops first (log 98). -/
def State.sendService (s : State) (cls core dst : Nat) (load : SvcLoad) : State :=
  s.addService cls ((linkHops (core, dst)).map s.grid.hopOf) core load

/-- A packet of a die manager for a core, hop by hop. Where a die manager joins the mesh is not said, so the router of the die,
another than the core's own, at which the packet enters is a free value (log 98). -/
def State.managerPacket (s : State) (cls core : Nat) : State :=
  let g := s.grid
  let d := g.dieOf (coreCol core)
  let w := g.dieWidth d
  let own := coreRow core * w + (coreCol core - g.dieCol0 d)
  let (v, s1) := s.draw
  let k := v.toNat % (80 * w - 1)
  let e := if k < own then k else k + 1
  s1.addService cls ((linkHops (coreIx (e / w) (g.dieCol0 d + e % w), core)).map g.hopOf) core .other

/-- Packets with a load that have not reached its end. -/
def State.underWay (s : State) (l : SvcLoad) : Nat := (s.fab.svc.filter fun p => p.load == l).length

/-- The packet a hop takes next: one passed over at 64 boundaries, else the oldest of the lowest class. -/
def State.nextService (s : State) (hop : Element) : Option Nat :=
  let ps := s.fab.svc.filter fun p => p.waiting && p.hop == hop
  match ps.find? fun p => 64 ≤ p.passed with
  | some p => some p.id
  | none => (ps.find? fun p => ps.all fun x => p.cls ≤ x.cls).map (·.id)

/-- A hop has taken a packet: the others that wait there have been passed over once more. -/
def State.passOver (s : State) (id : Nat) (hop : Element) : State :=
  s.modFab fun f => { f with svc := f.svc.map fun x =>
    if x.id != id && x.waiting && x.hop == hop then { x with passed := x.passed + 1 } else x }

/-! ### A tree rebuilt as a chain (R116) -/

/-- The configuration with one degraded tree rebuilt; none when the chain finds no slots. -/
def State.rebuiltCfg (s : State) (c : Ctx) (g : Cfg) (stream : Nat) : Option Cfg :=
  match g.image.streams[stream]?, s.job? c.job with
  | some t, some j =>
    let kept := g.holds.filter fun h => h.stream != stream
    let others := (s.heldSlots c.job).filter fun h => !(g.holds.any fun x => x.stream == stream && x.clash h)
    (s.treeHolds t stream (((t.routes.head?).map (·.src)).getD 0) (((g.image.station? t.dst).map (·.rect)).toList) j.rects
      others true).map fun p =>
      { g with holds := kept ++ p.1, chains := g.chains ++ [stream], degraded := g.degraded.filter (· != stream),
               rebuilt := g.rebuilt ++ [stream] }
  | _, _ => none

/-- A degraded tree whose chain finds no slots now. -/
def State.stuckTree (s : State) (c : Ctx) (g : Cfg) : Bool := g.degraded.any fun x => (s.rebuiltCfg c g x).isNone

end Sys2Proof.Machine
end

