-- ==== Sys2Proof/Machine/Invs.lean ====
section
/-! DEFINITION. Invocations (04_stations_and_streams.md R68, R81, R94, R95; 09_serving.md R216, R217, R238-R240): checks,
launch, completion with the result block, invocation lists, and tear-down of a context. -/

namespace Sys2Proof.Machine

/-! ### Checks of an INVOKE or a list entry, stages 6 and 7 -/

/-- A CFG_ACTIVATE of the context has launched and displaces the configuration (R127). -/
def State.displacedNow (s : State) (ctx handle : Nat) : Bool :=
  s.fab.waves.any fun w => w.ctx == ctx && w.displaced.contains handle

/-- The configuration a launched CFG_ACTIVATE brings in. -/
def State.arriving (s : State) (ctx handle : Nat) : Bool := s.fab.waves.any fun w => w.ctx == ctx && w.handle == handle

/-- The configuration is active on all of its cores, or a launched CFG_ACTIVATE makes it so. -/
def State.cfgActive (s : State) (g : Cfg) (ctx : Nat) : Bool :=
  s.arriving ctx g.handle || (!s.displacedNow ctx g.handle && g.image.cores.all g.active.contains)

/-- Words of the argument block a configuration reads (R68). -/
def Image.argWords (im : Image) : Nat := im.args.foldl (fun m a => max m (a.2 + 1)) 0

/-- Bytes of a result block. -/
def Image.resultBytes (im : Image) : Nat := 64 + 64 * im.stations.length

def Image.hasRouting (im : Image) : Bool := im.programs.any fun p => match p with
  | .routing _ => true
  | _ => false

/-- First prefetch entry of the handle that names a station the configuration lacks (R175). -/
def Ctx.badPrefetch (c : Ctx) (g : Cfg) : Option Nat :=
  c.prefetch.findIdx? fun p =>
    (p.handle == 0xFFFF || p.handle == g.handle) && p.len != 0 &&
      ((p.trigger != 0xFFFF && g.image.stations.length ≤ p.trigger) ||
        (p.gate != 0xFFFF && g.image.stations.length ≤ p.gate))

/-- The layer table in force names the handle, while weights are replaced (R199). -/
def Ctx.layersName (c : Ctx) (handle : Nat) : Bool :=
  match c.wgt.find? fun w => w.kind == 3 with
  | some w => w.layers.any fun l => l.handle == handle
  | none => true

/-- Stages 6 and 7 of an INVOKE: the first refusal with its result bytes. The argument block's range depends on the
configuration, so it is judged with the handle as the result block's is, and not at all when no argument is read (log 89,
DESIGN CHOICE). -/
def State.invokeRefusal (s : State) (c : Ctx) (handle args result : Nat) : Option (Status × List Byte) :=
  let no := fun st => some (st, ([] : List Byte))
  if !(c.weight == .loaded || c.weight == .replacing) || !c.resident || s.moving c.id then no .wrongState
  else match c.cfgs.find? fun g => g.handle == handle with
    | none => no .wrongState
    | some g =>
      if !s.cfgActive g c.id then no .wrongState
      else if c.weight == .replacing && !c.layersName handle then no .wrongState
      else if c.hostRouted && g.image.hasRouting && (c.serving.map (·.st)) != some .serving then no .wrongState
      else if g.image.argWords != 0 && (s.translate c args (8 * g.image.argWords) true false).isNone then no .badParam
      else if result != 0 && (s.translate c result g.image.resultBytes false true).isNone then no .badParam
      else match c.badPrefetch g with
        | some i => some (.checkFailed, checkResult 0x0068 i)
        | none => if g.holds.any s.holdFailed || s.stuckTree c g then no .noSlots else none

/-! ### Cores free (R217, R241) -/

/-- A remap holds the core. -/
def State.coreHeld (s : State) (c : Nat) : Bool :=
  s.grid.remaps.any fun m => s.grid.dieOf (coreCol c) == m.die && m.rows.contains (coreRow c)

/-- Cores an invocation runs on: those of its stations that are not gated. -/
def Inv.coresOf (i : Inv) (im : Image) : List Nat :=
  (im.stations.mapIdx fun k st => if i.gated.contains k then [] else st.rect.cores).flatten

/-- The core does not still have to switch to a configuration that arrives (R122, R126); what an earlier invocation left in the
core says nothing of it. -/
def State.switchedTo (s : State) (ctx handle core : Nat) : Bool :=
  s.fab.waves.all fun w => !(w.ctx == ctx && w.handle == handle && w.region.contains core) || w.switched.contains core

/-- Cores an invocation starts on: of an arriving configuration those that have switched to it; the others start when they
switch. -/
def State.launchCores (s : State) (i : Inv) (im : Image) : List Nat := (i.coresOf im).filter (s.switchedTo i.ctx i.handle)

/-- No invocation runs on the cores and no remap holds them. -/
def State.coresFree (s : State) (i : Inv) (im : Image) : Bool :=
  ((s.launchCores i im).all fun c => !s.coreHeld c && !(s.fab.invs.any fun j =>
    j.phase == .running && j.id != i.id && j.cores.contains c && (s.core? c).bind (·.inv) == some j.id)) &&
  -- cores of an arriving configuration that have not switched belong to the invocation that has launched on it
  !(s.arriving i.ctx i.handle && s.fab.invs.any fun j =>
    j.phase == .running && j.id != i.id && j.ctx == i.ctx && j.handle == i.handle)

/-- A context has yielded to an invocation that waited when PREEMPT started (R239). -/
def State.yieldsTo (s : State) (ctx inv : Nat) : Bool :=
  match s.ctx? ctx with
  | some c => c.yield.any fun y => y.2.contains inv
  | none => false

/-- No invocation that can launch but for its cores began to wait for one of them earlier; ties go to the lower context. -/
def State.turnOf (s : State) (i : Inv) (im : Image) : Bool :=
  let mine := i.coresOf im
  s.fab.invs.all fun j =>
    j.phase != .waiting || j.id == i.id || s.yieldsTo j.ctx i.id || !((s.ctx? j.ctx).any (·.resident)) || s.moving j.ctx ||
      !(j.waitSince < i.waitSince || (j.waitSince == i.waitSince && j.ctx < i.ctx) ||
      (j.waitSince == i.waitSince && j.ctx == i.ctx && j.id < i.id)) ||
    match s.imageOf j.ctx j.handle with
    | some jm => !((j.coresOf jm).any mine.contains)
    | none => true

/-- The context has yielded to invocations that waited when PREEMPT started and have not launched (R239). -/
def State.yielding (s : State) (ctx : Nat) : Bool :=
  s.fab.invs.any fun i => i.phase == .waiting && s.yieldsTo ctx i.id

/-- Step period of a configuration with an exchanged routing point (R256). -/
def Image.period (im : Image) : Option Nat := im.programs.findSome? fun p => match p with
  | .routing r => if r.exch then some r.period else none
  | _ => none

/-- Some core of the invocation holds another context's configurations (R216). -/
def State.needsSwap (s : State) (i : Inv) (im : Image) (uid : Nat) : Bool :=
  (i.coresOf im).any fun c => match (s.core? c).bind (·.occupant) with
    | some u => u != uid
    | none => false

/-- A waiting invocation may launch now. -/
def State.launchable (s : State) (i : Inv) : Bool :=
  i.phase == .waiting && match s.ctx? i.ctx, s.cfg? i.ctx i.handle with
  | some c, some g =>
    c.resident && !s.moving i.ctx && !s.yielding i.ctx && g.degraded.isEmpty && s.coresFree i g.image && s.turnOf i g.image &&
      (match g.image.period with
        | some p => s.now % max 1 p == 0
        | none => true)
  | _, _ => false

/-- An invocation that a PREEMPT waits for still waits for its cores. -/
def State.yieldWaits (s : State) (y : Nat × List Nat) : Bool := s.fab.invs.any fun i => y.2.contains i.id && i.phase == .waiting

/-- PREEMPTs whose last waiter has launched or gone. -/
def State.doneYields (s : State) : List Nat := s.ctxs.flatMap fun c => (c.yield.filter fun y => !s.yieldWaits y).map (·.1)

/-- The contexts without those. -/
def State.keptYields (s : State) : List Ctx := s.ctxs.map fun (c : Ctx) => { c with yield := c.yield.filter s.yieldWaits }

/-- PREEMPTs whose last waiter has launched or gone complete. -/
def State.settleYields (s : State) : State :=
  ({ s with ctxs := s.keptYields } : State).finishAll (s.doneYields.map fun r => (r, .ok, []))

/-! ### Launch (R68, R90, R216) -/

/-- The pool of one engine of a core with the arguments added. -/
def Image.boundPool (im : Image) (st : Station) (core eng : Nat) (args : List Nat) : List U64 :=
  let w0 := 16 * (st.pool + 4 * st.rect.posOf core + eng)
  (List.range 16).map fun w =>
    let base := ((im.pool[w0 + w]?).getD 0).toNat
    BitVec.ofNat 64 ((im.args.filter fun a => a.1 == w0 + w).foldl (fun v a => v + args.getD a.2 0) base)

/-- A core's engines at launch. -/
def Image.engines (im : Image) (st : Station) (core : Nat) (args : List Nat) : List Engine :=
  (List.range 4).map fun e => Engine.fresh (st.streamProg.getD e 0xFFFF) (im.boundPool st core e args)

/-- Experts of a routing point whose lists stand at their stations, and whether the combine stations may go (R250, R256). -/
def RPoint.expertsOut (p : RPoint) (r : Routing) : Bool := if r.exch then 2 ≤ p.exch else p.released

def RPoint.restOut (p : RPoint) (r : Routing) : Bool := if r.exch then p.exch == 4 else p.released

/-- Additions a point has made to S6 at a station. -/
def RPoint.raised (p : RPoint) (r : Routing) (k : Nat) : Nat :=
  let a := p.expertsOut r && r.experts.any fun x => x.station == k
  let b := p.restOut r && r.rel0 ≤ k && k < r.rel0 + r.nrel
  if r.exch then (if a then 1 else 0) + (if b then 1 else 0) else if a || b then 1 else 0

/-- The engines of an expert station with the count words of a point in their pools (R250 item 4). -/
def RPoint.countWords (p : RPoint) (r : Routing) (k : Nat) (es : List Engine) : List Engine :=
  (List.range r.experts.length).foldl (fun es e => match r.experts[e]? with
    | some x => if x.station = k then
        es.modify x.engine fun g => { g with pool := g.pool.set x.word (BitVec.ofNat 64 (p.counts.getD e 0 + 2 ^ 32)) }
      else es
    | none => es) es

/-- Prefetch entries whose signal a station has had (R175). -/
def Inv.gateSignals (i : Inv) (k : Nat) : Nat :=
  ((i.plist.take i.signalled).filter fun p =>
    p.gate == k && p.len != 0 && (p.handle == 0xFFFF || p.handle == i.handle)).length

/-- What has already been signalled to a station when one of its cores enters its invocation. -/
def Inv.signalsAt (i : Inv) (im : Image) (k : Nat) (x : Core) : Core :=
  let pts : List (RPoint × Routing) := i.points.filterMap fun (p : RPoint) => match im.programs[p.program]? with
    | some (Program.routing r) => some (p, r)
    | _ => none
  let s6 := (pts.map fun p => p.1.raised p.2 k).foldl (· + ·) 0
  { x with
    syncs := (x.syncs.set 6 s6).set 7 (i.gateSignals k)
    engines := pts.foldl (fun es p => if p.1.expertsOut p.2 then p.1.countWords p.2 k es else es) x.engines }

/-- The core's occupant is another context than this one (R216). -/
def State.otherHolds (s : State) (c : Ctx) (core : Nat) : Bool :=
  match (s.core? core).bind (·.occupant) with
  | some u => u != c.uid
  | none => false

/-- One core enters an invocation: swapped if another context held it, its SRAM below the Drip tray zeroed then, and all
its state fresh. -/
def State.enterCore (s : State) (c : Ctx) (g : Cfg) (i : Inv) (core : Nat) : State :=
  match g.image.stationOf core with
  | none => s
  | some k =>
    match g.image.station? k with
    | none => s
    | some st =>
      let old := s.core? core
      let s1 := if s.otherHolds c core then s.zeroRange (sramKey core) (sramBytes - 1024 * g.image.dripKib) else s
      let fresh := Core.fresh core (some c.uid) g.handle g.epoch (some i.id) k (g.image.engines st core i.argv)
        ((old.map (·.ticketNos)).getD [])
      s1.modFab fun f => { f with cores := (f.cores.filter fun x => x.idx != core) ++ [i.signalsAt g.image k fresh] }

/-- The end-of-stream a gated station's output streams deliver (R225): SEQ 0 and AUX 0. -/
def eosTile (ctx epoch stream seq aux b : Nat) : Tile :=
  (⟨⟨1, qFmt b, qSch b, false, false, false, 0, 0, epoch, stream, seq, 0, 0, 0, aux, ctx, 0⟩, [], []⟩ : Tile).sealed

/-- Programs that are routing points, in ascending program index (R243). -/
def Image.routingPrograms (im : Image) : List Nat :=
  ((List.range im.programs.length).filter fun i => match im.programs[i]? with
    | some (.routing _) => true
    | _ => false)

/-- Station whose engine slot names a routing program. -/
def Image.routerOf (im : Image) (prog : Nat) : Option Nat := im.stations.findIdx? fun s => s.streamProg.contains prog

/-- A channel of an invocation whose consumer takes its tiles: that of a gated station delivers its end-of-stream (R225),
which the module and no core sends: TILES_OUT does not count it (DESIGN CHOICE, log 147). -/
def Cfg.gateEos (g : Cfg) (ctx : Nat) (gated : List Nat) (h : Chan) : Chan :=
  match g.image.stationOf h.src with
  | some k =>
    if gated.contains k && !h.link then
      let b := ((g.image.station? k).map fun st => st.oq h.srcQ).getD 0
      { h with flight := [eosTile ctx g.epoch h.id.stream 0 0 b], credits := h.credits - 1, nextSeq := 1 }
    else h
  | none => h

/-- Station counters at launch; the counts of R128, a station's CHAIN among them, are raised at launch (log 122). -/
def Inv.counters (i : Inv) (g : Cfg) : List StCnt :=
  g.image.stations.mapIdx fun k _ =>
    { StCnt.zero with
      gated := i.gated.contains k
      chain := if (g.image.streams.mapIdx fun si st => (si, st.dst)).any fun p => p.2 == k && g.chains.contains p.1 then 1
               else 0 }

/-- The argument block that an invocation of a configuration reads at its launch. -/
def State.argReads (s : State) (ctx handle args : Nat) : List (Nat × Nat) :=
  match s.ctx? ctx, s.imageOf ctx handle with
  | some c, some im => (c.translate args (8 * im.argWords) true false).toList.map fun k => (k, 8 * im.argWords)
  | _, _ => []

/-- What the launch of an invocation reads: its arguments and, for every core that it swaps, the context's store. -/
def State.launchReads (s : State) (i : Inv) : List (Nat × Nat) :=
  s.argReads i.ctx i.handle i.args ++ match s.ctx? i.ctx, s.imageOf i.ctx i.handle with
    | some c, some im => ((s.launchCores i im).filter (s.otherHolds c)).flatMap (s.storeReads c)
    | _, _ => []

/-- The arguments of an invocation. -/
def State.argsOf (s : State) (c : Ctx) (i : Inv) (im : Image) : List Nat :=
  match c.translate i.args (8 * im.argWords) true false with
  | some k => (List.range im.argWords).map fun n => s.readNat (k + 8 * n) 8
  | none => []

/-- The command of an invocation has launched, if it was to launch at a tick (R33). -/
def State.noteOwner (s : State) (i : Inv) : State :=
  match i.owner with
  | .command rec | .list rec _ => s.modRec rec fun r => { r with launched := r.env.atTick }
  | _ => s

/-- A service packet brings a tile of a channel of a configuration. -/
def SvcLoad.chanIs (l : SvcLoad) (ctx handle : Nat) : Bool :=
  match l with
  | .spillOut ch | .spillBack ch => ch.ctx == ctx && ch.handle == handle
  | _ => false

def State.launchInv (s : State) (i : Inv) : State :=
  match s.ctx? i.ctx, s.cfg? i.ctx i.handle with
  | some c, some g =>
    let im := g.image
    let cores := s.launchCores i im
    let points := (im.routingPrograms.filter fun p => match im.routerOf p with
        | some k => !i.gated.contains k
        | none => false).map fun p => (⟨p, [], [], false, 0, none, false, [], [], 0, false, [], 0⟩ : RPoint)
    let i' := { i with phase := .running, launch := s.now, cores := i.coresOf im, stations := i.counters g,
                       argv := s.argsOf c i im, plist := c.prefetch,
                       -- a launch that reads a poisoned word (13_safety_repair_wear.md Table 13.2; log 136)
                       poisonSeen := i.poisonSeen || (s.launchReads i).any fun r => s.poisonedIn r.1 r.2, degraded := !g.rebuilt.isEmpty, points := points }
    let ready := s.switchedTo i.ctx i.handle
    -- the end-of-streams for a core that has not switched follow at its switch (R126)
    let chans := (g.channels i.ctx ready).map fun h => if ready h.dst then g.gateEos i.ctx i.gated h else h
    let s1 := s.modInv i.id fun _ => i'
    let s2 := s1.modFab fun f => { f with
      chans := (f.chans.filter fun h => !(h.id.ctx == i.ctx && h.id.handle == i.handle)) ++ chans
      -- service packets of the channels' former tiles bring nothing any more
      svc := f.svc.map fun p => if p.load.chanIs i.ctx i.handle then { p with load := .other } else p
      rails := (f.rails.filter fun r => r.inv != i.id) ++ im.rails.mapIdx fun n r => ⟨i.id, n, r.start, []⟩ }
    let s2 := s2.modFab fun f => { f with totals := { f.totals with
      chain := i'.stations.foldl (fun n c => satAdd 16 n c.chain) f.totals.chain } }
    let s3 := (cores.foldl (fun s core => s.enterCore c g i' core) s2).noteOwner i
    (s3.trace 2 i.ctx (leBytes 2 i.handle ++ leBytes 1 0)).settleYields
  | _, _ => s

/-- A fresh invocation that waits for its cores. -/
def Inv.make (id ctx : Nat) (g : Cfg) (owner : InvOwner) (args result deadline now : Nat) (late : Bool)
    (gated : List Nat) : Inv :=
  { id, ctx, handle := g.handle, epoch := g.epoch, owner, phase := .waiting, args, result, deadline, waitSince := now,
    launch := 0, late, argv := [], cores := [], stations := [], gated, plist := [], started := [], nextEntry := 0, signalled := 0,
    phaseTok := 0, phaseAt := none, poisoned := 0, poisonSeen := false, degraded := false, points := [] }

/-- Add an invocation; the new one's identity. -/
def State.addInv (s : State) (mk : Nat → Inv) : State × Nat :=
  (s.modFab fun f => { f with invs := f.invs ++ [mk f.nextInv], nextInv := f.nextInv + 1 }, s.fab.nextInv)

/-! ### Lists (R95) -/

/-- Write an entry's status and results. -/
def State.writeEntry (s : State) (l : ListRun) (e : Nat) (st : Status) (ticks spill poisoned : Nat) : State :=
  s.writeBytes (l.base + 64 * e + 40)
    (leBytes 2 st.code ++ zeros 6 ++ leBytes 8 ticks ++ leBytes 4 spill ++ leBytes 4 poisoned)

def State.modList (s : State) (cmd : Nat) (f : ListRun → ListRun) : State :=
  s.modFab fun g => { g with lists := g.lists.map fun x => if x.cmd == cmd then f x else x }

/-- The command of a list completes. -/
def State.finishList (s : State) (l : ListRun) : State :=
  let bad := match l.firstBad with
    | some (i, _) => i
    | none => 0xFFFFFFFF
  (s.modFab fun g => { g with lists := g.lists.filter fun x => x.cmd != l.cmd }).finish l.cmd l.best
    (leBytes 4 l.good ++ leBytes 4 bad)

/-- An entry is done: its status is written and counted; with STOP outside the success group every later entry becomes
CANCELLED. -/
def State.entryDone (s : State) (l : ListRun) (st : Status) (ticks spill poisoned : Nat) : State × ListRun :=
  let e := l.next
  let stop := bit (s.readNat (l.base + 64 * e + 4) 1) 0 && !st.success
  let s1 := s.writeEntry l e st ticks spill poisoned
  let l1 := { l with
    next := if stop then l.n else e + 1
    good := if st.success then l.good + 1 else l.good
    firstBad := if st != .ok && l.firstBad.isNone then some (e, st) else l.firstBad
    best := if st.success then l.best.join st else l.best }
  let s2 := if stop then ((List.range l.n).filter fun i => e < i).foldl (fun s i => s.writeEntry l i .cancelled 0 0 0) s1
    else s1
  (s2.modList l.cmd fun _ => l1, l1)

/-- Reserved fields of an entry; bytes 42 to 47 are the module's to write (log 31). -/
def entryRsvOk (bs : List Byte) : Bool :=
  fieldAt bs 0 2 / 1024 == 0 && fieldAt bs 4 1 / 2 == 0 && allZero (slice bs 5 3) && allZero (slice bs 32 8)

/-- Run a list from its next entry: refused entries are written and passed over, the first accepted one becomes a waiting
invocation; `atTick` says that entry 0 must launch now, with LATE_RUN or without. -/
def State.listGo : Nat → Nat → Option Bool → State → State
  | 0, _, _, s => s
  | fuel + 1, cmd, tick, s =>
    match s.fab.lists.find? fun x => x.cmd == cmd with
    | none => s
    | some l =>
      if l.n ≤ l.next then s.finishList l
      else
        let bs := s.readBytes (l.base + 64 * l.next) 64
        let ctx := fieldAt bs 0 2 % 1024
        let refusal := if !entryRsvOk bs then some Status.badParam
          else match s.ctx? ctx with
            | none => some .badContext
            | some c => (s.invokeRefusal c (fieldAt bs 2 2) (fieldAt bs 8 8) (fieldAt bs 16 8)).map (·.1)
        match refusal, s.cfg? ctx (fieldAt bs 2 2) with
        | some st, _ => State.listGo fuel cmd none (s.entryDone l st 0 0 0).1
        | none, none => State.listGo fuel cmd none (s.entryDone l .wrongState 0 0 0).1
        | none, some g =>
          let mk := fun id late => Inv.make id ctx g (.list cmd l.next) (fieldAt bs 8 8) (fieldAt bs 16 8) (fieldAt bs 24 8)
            s.elapsed late []
          let late := l.next == 0 && (s.rec? cmd).any (·.late)
          let (s1, id) := s.addInv fun id => mk id late
          match tick with
          | none => s1
          | some lateRun =>
            let i := mk id false
            let uid := ((s.ctx? ctx).map (·.uid)).getD 0
            if s1.launchable i && !s1.needsSwap i g.image uid then s1.launchInv i
            else if lateRun then s1.modInv id fun i => { i with late := true }
            else State.listGo fuel cmd none (s.entryDone l .timePast 0 0 0).1

/-! ### Completion and stopping -/

/-- Only fences survive the end of an invocation (R125). -/
def fencesOf (ts : List Tile) : List Tile := ts.filter fun t => t.hdr.kind == 2

/-- A core leaves its invocation: leases returned (R238), tiles other than fences discarded. -/
def Core.leave (c : Core) : Core :=
  { c with inv := none, ended := true, iqs := c.iqs.map fencesOf, oqs := c.oqs.map fencesOf, syncs := List.replicate 8 0,
           ticket := none, rep := 0,
           engines := c.engines.map fun e => { e with ended := true, run := none } }

/-- A channel at the end of an invocation: fences stay, all other places are free again; a stream whose spill queue holds a
fence stays in spill until it has left (R118, R125). -/
def Chan.drain (h : Chan) (cap queued : Nat) : Chan :=
  { h with flight := fencesOf h.flight, drip := fencesOf h.drip, hbm := fencesOf h.hbm, fwd := fencesOf h.fwd, owed := 0,
           spilling := h.spilling && !(fencesOf (h.drip ++ h.hbm)).isEmpty, credits := cap - (fencesOf h.flight).length - queued }

/-- Spill count of an invocation (R120). -/
def Inv.spill (i : Inv) : Nat := i.stations.foldl (fun n c => satAdd 32 n c.spillTiles) 0

/-- Poisoned output tiles. -/
def Inv.poisonTotal (i : Inv) : Nat := i.stations.foldl (fun n c => satAdd 32 n c.poisonOut) 0

/-- Status of an invocation that ran to its end. -/
def Inv.endStatus (i : Inv) : Status :=
  let a : Status := if 0 < i.poisonTotal || i.poisonSeen then .okPoisoned else .ok
  let b : Status := if i.degraded then .okDegraded else .ok
  let c : Status := if i.late then .okLate else .ok
  (a.join b).join c

/-- The result block (Tables 4.12, 4.13). -/
def Inv.block (i : Inv) (st : Status) (done : Nat) : List Byte :=
  leBytes 4 0x31534552 ++ leBytes 2 1 ++ leBytes 2 i.stations.length ++ leBytes 2 st.code ++ leBytes 2 i.epoch ++
    leBytes 2 i.handle ++ zeros 2 ++ leBytes 8 i.launch ++ leBytes 8 done ++ leBytes 4 i.spill ++ leBytes 4 i.poisonTotal ++
    zeros 24 ++ (i.stations.mapIdx fun k c => c.record k).flatten

/-- Write the result block, when there is one. -/
def State.writeBlock (s : State) (i : Inv) (st : Status) : State :=
  if i.result = 0 || i.phase != .running then s
  else match (s.ctx? i.ctx).bind fun c => c.translate i.result (64 + 64 * i.stations.length) false true with
    | some k => s.writeBytes k (i.block st s.now)
    | none => s

/-- A core of an invocation has executed END for it, or has left it (R81, R126). -/
def State.coreEnded (s : State) (i : Inv) (core : Nat) : Bool :=
  let ahead := !s.switchedTo i.ctx i.handle core
  match s.core? core with
  | some x => if x.inv == some i.id then x.ended else !ahead
  | none => !ahead

/-- Stations with a core that has not executed END (log 30). -/
def State.tornStations (s : State) (i : Inv) : List Nat :=
  match s.imageOf i.ctx i.handle with
  | some im => (i.cores.filter fun c => !s.coreEnded i c).filterMap im.stationOf
  | none => (s.fab.cores.filter fun c => c.inv == some i.id && !c.ended).map (·.station)

/-- A torn-down invocation's record says which stations had not ended. -/
def State.markTorn (s : State) (i : Inv) : State :=
  let torn := s.tornStations i
  s.modInv i.id fun v => { v with stations := v.stations.mapIdx fun k c => if torn.contains k then { c with torn := true } else c }

/-- Take an invocation off its cores. -/
def State.clearInv (s : State) (i : Inv) : State :=
  let cap := fun (h : Chan) => match s.imageOf h.id.ctx h.id.handle with
    | some im => match im.streams[h.id.stream]? with
      | some st => streamCap im st
      | none => 0
    | none => 0
  let queued := fun (h : Chan) => match s.core? h.dst with
    | some c =>
      let fwd := ((s.onward h).map (·.fwd)).getD []
      ((fencesOf (c.iqs.getD h.dstQ [] ++ fwd)).map fun t => t.hdr.epoch).eraseDups.length
    | none => 0
  -- receive windows of its exchanges close (R238)
  let groups := if i.points.isEmpty then [] else (((s.imageOf i.ctx i.handle).map (·.programs)).getD []).filterMap fun p =>
    match p with
    | .routing r => if r.exch then some r.group else none
    | _ => none
  let s := if groups.isEmpty then s else s.modLink fun l => { l with colls := l.colls.filter fun c =>
    !(c.cmd.isNone && groups.contains c.group) }
  s.modFab fun f => { f with
    invs := f.invs.filter fun x => x.id != i.id
    cores := f.cores.map fun c => if c.inv == some i.id then c.leave else c
    rails := f.rails.filter fun r => r.inv != i.id
    chans := f.chans.map fun h =>
      if i.phase == .running && h.id.ctx == i.ctx && h.id.handle == i.handle then h.drain (cap h) (queued h) else h }

/-- An invocation ends with a status; its owner learns of it. -/
def State.endInv (s : State) (id : Nat) (st : Status) (torn : Bool) : State :=
  match s.inv? id with
  | none => s
  | some i0 =>
    let s := if torn then s.markTorn i0 else s
    let i := (s.inv? id).getD i0
    let ran := i.phase == .running
    let ticks := if ran then s.now - i.launch else 0
    let s1 := (s.writeBlock i st).clearInv i
    let s2 := (if ran then s1.trace 2 i.ctx (leBytes 2 i.handle ++ leBytes 1 1 ++ zeros 1 ++ leBytes 2 st.code)
      else s1).settleYields
    match i.owner with
    | .command rec => s2.finish rec st (if ran then leBytes 8 ticks ++ leBytes 4 i.spill ++ leBytes 4 i.poisonTotal else [])
    | .list cmd _ =>
      match s2.fab.lists.find? fun x => x.cmd == cmd with
      | some l =>
        -- as an INVOKE's result bytes, which no status outside the success group carries (R46)
        State.listGo (l.n + 1) cmd none (if st.success then s2.entryDone l st ticks i.spill i.poisonTotal
          else s2.entryDone l st 0 0 0).1
      | none => s2
    | .decode ctx => s2.modServing ctx fun v => { v with cur := v.cur.map fun c => { c with decDone := some (st, ticks) } }
    | .prefill ctx => s2.modServing ctx fun v => { v with cur := v.cur.map fun c => { c with preDone := some (st, ticks) } }

/-! ### Tear-down (R240, Table 9.10) -/

/-- Causes of Table 9.10. -/
inductive TearCause where
  | fault | deadlock | cancelled
  deriving DecidableEq, Repr

/-- Status of the running invocation and of requests in the step. -/
def TearCause.status : TearCause → Status
  | .fault => .ctxFault
  | .deadlock => .deadlockUnresolved
  | .cancelled => .cancelled

/-- Status of the other live requests. -/
def TearCause.other : TearCause → Status
  | .cancelled => .cancelled
  | _ => .ctxFault

/-- Requests that take part in the step in flight. -/
def Serving.inStep (v : Serving) : List Nat :=
  match v.cur with
  | some c => c.dec.map (·.1) ++ c.chunks.map (·.1)
  | none => []

/-- A context's tiles and queues go, and its wavefronts. -/
def Fabric.dropCtx (f : Fabric) (ctx uid : Nat) : Fabric :=
  { f with
    waves := f.waves.filter fun w => w.ctx != ctx
    chans := f.chans.filter fun h => h.id.ctx != ctx
    cores := f.cores.map fun x => if x.occupant == some uid then
      { x with iqs := four [], oqs := four [], fenceSent := false } else x }

def State.tearDown (s : State) (ctx : Nat) (cause : TearCause) : State :=
  match s.ctx? ctx with
  | none => s
  | some c =>
    let st := cause.status
    let live := ((c.serving.map (·.reqs)).getD []).map (·.id)
    let inStep := (c.serving.map (·.inStep)).getD []
    let mine := s.fab.invs.filter fun i => i.ctx == ctx
    let waves := s.fab.waves.filter fun w => w.ctx == ctx
    -- no configuration is active or arriving any more, so that no list goes on with this context; then the invocations end, and
    -- the wavefront's command
    let s0 := ((mine.foldl State.markTorn s).modCtx ctx fun c => { c with cfgs := c.cfgs.map fun g => { g with active := [] } }).modFab
      fun f => { f with waves := f.waves.filter fun w => w.ctx != ctx }
    let s1 := (mine.map (·.id)).foldl (fun s i => s.endInv i st false) s0
    let s2 := (s1.modFab fun f => f.dropCtx ctx c.uid).finishAll (waves.map fun w => (w.cmd, st, []))
    -- requests and serving state
    let s3 := s2.modServing ctx fun v => { v with cur := none }
    let s4 := live.foldl (fun s r => s.retire ctx r (if inStep.contains r then st else cause.other) false) s3
    let s5 := s4.stopIfDrained ctx
    let s6 := s5.modServing ctx fun v => { v with st := .stopped }
    (s6.event (srcJob c.job) 0x0013 (leBytes 2 ctx ++ leBytes 2 st.code)).rebalance c.job

/-- The context of an invocation faults. -/
def State.faultInv (s : State) (inv : Option Nat) (cause : TearCause) : State :=
  match inv.bind s.inv? with
  | some i => s.tearDown i.ctx cause
  | none => s

/-- The context a core works for faults. -/
def State.faultCore (s : State) (c : Core) (cause : TearCause) : State :=
  match c.occupant.bind s.ctxByUid with
  | some x => s.tearDown x.id cause
  | none => s

end Sys2Proof.Machine
end

