-- ==== Sys2Proof/Machine/Fail.lean ====
section
/-! DEFINITION. Reactions to faults of cores and fabric elements (13_safety_repair_wear.md R314, R320-R326; 09_serving.md
R212, R241): shift repair, column retirement, elements out of service. -/

namespace Sys2Proof.Machine

/-! ### The repair map (R323) -/

/-- The next good position at or after `p`; 82 when there is none. -/
def nextGood (bad : List Nat) : Nat → Nat → Nat
  | 0, p => p
  | fuel + 1, p => if 82 ≤ p then 82 else if bad.contains p then nextGood bad fuel (p + 1) else p

/-- Raise a row to its lower bounds: good positions, ascending, at most two west of the neighbouring rows' hosts. -/
def raiseRow (bad up down : List Nat) : Nat → List Nat → List Nat
  | _, [] => []
  | lo, h :: hs =>
    let p := nextGood bad 82 (max (max lo h) (max (up.headD 0 - 2) (down.headD 0 - 2)))
    p :: raiseRow bad (up.drop 1) (down.drop 1) (p + 1) hs

/-- One sweep over the rows, each raised against the row before (new) and the row after (old). -/
def sweep (bad : Nat → List Nat) : Nat → List Nat → List (List Nat) → List (List Nat)
  | _, _, [] => []
  | r, up, row :: rest =>
    let new := raiseRow (bad r) up (rest.headD []) 0 row
    new :: sweep bad (r + 1) new rest

def sweeps (bad : Nat → List Nat) : Nat → List (List Nat) → List (List Nat)
  | 0, m => m
  | fuel + 1, m =>
    let n := sweep bad 0 [] m
    if n == m then m else sweeps bad fuel n

/-- The least map of a die at width `w`: the least hosts that meet the conditions, row by row; none when there are none. -/
def shiftMap (bad : Nat → List Nat) (w : Nat) : Option (List (List Nat)) :=
  let m := sweeps bad 20000 (List.replicate 80 (List.range w))
  if m.all fun row => row.all (· < 82) then some m else none

/-- Failed positions of a die's row in a list. -/
def badIn (failed : List (Nat × Nat × Nat)) (die row : Nat) : List Nat :=
  (failed.filter fun f => f.1 == die && f.2.1 == row).map (·.2.2)

/-- The map in force of a die: during a remap the one before it. -/
def Grid.mapOf (g : Grid) (die : Nat) : List (List Nat) :=
  match g.remaps.find? fun m => m.die == die with
  | some m => m.hosts
  | none => (shiftMap (badIn g.failed die) (g.dieWidth die)).getD []

/-- Host position of a virtual core: die, row, position. -/
def Grid.hostOf (g : Grid) (core : Nat) : Nat × Nat × Nat :=
  let d := g.dieOf (coreCol core)
  (d, coreRow core, ((g.mapOf d).getD (coreRow core) []).getD (coreCol core - g.dieCol0 d) 0)

/-- Virtual core hosted at a position, if any. -/
def Grid.coreAt (g : Grid) (die row pos : Nat) : Option Nat :=
  (((g.mapOf die).getD row []).findIdx? (· == pos)).map fun i => coreIx row (g.dieCol0 die + i)

/-- Spares left in a row segment. -/
def Grid.sparesOf (g : Grid) (die row : Nat) : Nat := 82 - (badIn g.failed die row).length - g.dieWidth die

/-- SPARE_LEFT of a die: the smallest number of spares of its segments. -/
def Grid.spareLeft (g : Grid) (die : Nat) : Nat :=
  (List.range 80).foldl (fun m r => min m (g.sparesOf die r)) 82

/-- SPARE_LEFT is written (R357), for every die. -/
def State.writeSpares (s : State) : State :=
  s.modGrid fun g => { g with spareShown := (List.range 4).map fun die =>
    (g.spareLeft die, ((List.range 80).filter fun r => g.sparesOf die r == 0).length) }

/-! ### Elements (R314, R320) -/

/-- An element leaves service: event 0x0068 and journal action 0x63, or 0x65 for an I/O-die unit; BOOT_ERROR warns of it
(Table 14.3). -/
def State.elementOut (s : State) (e : Element) : State :=
  if s.grid.elements.contains e then s
  else
    let s1 := (s.modGrid fun g => { g with elements := g.elements ++ [e] }).modBoot fun b =>
      { b with warnFabric := b.warnFabric || decide (e.kind < 3), warnUnit := b.warnUnit || decide (3 ≤ e.kind) }
    (s1.event srcSafety 0x0068 (leBytes 1 e.kind ++ zeros 1 ++ leBytes 2 e.index)).journalAction
      (if e.kind < 3 then 0x63 else 0x65) (leBytes 1 e.kind ++ leBytes 2 e.index)

/-- A fabric fault: the element is out of service and the context whose invocation used it is torn down. -/
def State.fabricFault (s : State) (e : Element) (ctx : Option Nat) : State :=
  let s1 := match ctx with
    | some c => s.tearDown c .fault
    | none => s
  s1.elementOut e

/-! ### Failed cores (R322-R325) -/

/-- Jobs that hold a core of some row segments of a die. -/
def State.jobsOnRows (s : State) (die : Nat) (rows : List Nat) : List Nat :=
  let c0 := s.grid.dieCol0 die
  let w := s.grid.dieWidth die
  (s.jobs.filter fun j => j.rects.any fun r =>
    r.col0 < c0 + w && c0 < r.col0 + r.ncols && rows.any fun x => r.row0 ≤ x && x < r.row0 + r.nrows).map (·.num)

/-- Event 0x0017 for every row and job. -/
def State.remapEvents (s : State) (die : Nat) (rows : List Nat) (ended : Nat) : State :=
  (s.jobsOnRows die rows).foldl (fun s j =>
    (rows.filter fun r => (s.jobsOnRows die [r]).contains j).foldl (fun s r =>
      s.event (srcJob j) 0x0017 (leBytes 1 ended ++ leBytes 1 r ++ leBytes 1 die)) s) s

/-- Rows in which two maps differ, and the virtual cores whose host changes. -/
def changedRows (a b : List (List Nat)) : List Nat := (List.range 80).filter fun r => a.getD r [] != b.getD r []

def changedCores (col0 : Nat) (a b : List (List Nat)) : List Nat :=
  (List.range 80).flatMap fun r => ((List.range ((b.getD r []).length)).filter fun i =>
    (a.getD r []).getD i 82 != (b.getD r []).getD i 82).map fun i => coreIx r (col0 + i)

/-- Hold the segments whose hosts change; a remap already running in the die takes them in, and the cores that move are
those of its map and of the new one. -/
def State.holdRows (s : State) (die row pos : Nat) (hosts : List (List Nat)) (rows moved : List Nat) : State :=
  match s.grid.remaps.find? fun m => m.die == die with
  | some m =>
    let new := rows.filter fun r => !m.rows.contains r
    (s.modGrid fun g => { g with remaps := g.remaps.map fun x =>
      if x.die == die then { x with rows := x.rows ++ new, moved := moved } else x }).remapEvents die new 0
  | none =>
    (s.modGrid fun g => { g with remaps := g.remaps ++ [⟨die, row, pos, rows, hosts, moved⟩] }).remapEvents die rows 0

/-- A core index after the retirement of column `col`; none for a core of that column. -/
def shiftCol (col core : Nat) : Option Nat :=
  if coreCol core = col then none else if col < coreCol core then some (core - 1) else some core

/-- An SRAM key after the retirement of a column; other keys stay. -/
def shiftKey (col k : Nat) : Option Nat :=
  if spaceOf k = 2 then (shiftCol col (offOf k / sramBytes)).map fun c => mkKey 2 (c * sramBytes + k % sramBytes) else some k

/-- A node of the mesh after the retirement of a column: a core, or the edge port of a column or row. -/
def shiftNode (col n : Nat) : Option Nat :=
  if n < 25600 then shiftCol col n
  else if n < 26240 then
    (if (n - 25600) % 320 = col then none else if col < (n - 25600) % 320 then some (n - 1) else some n)
  else some n

/-- A held slot after the retirement of a column: the routers of the column are bypassed (05_fabric.md R108), so the two hops
beside it become one, and its vertical hops are gone. -/
def SlotHold.retire (col : Nat) (h : SlotHold) : Option SlotHold :=
  match shiftNode col h.src, shiftNode col h.dst with
  | some a, some b => some { h with src := a, dst := b }
  | some a, none => if a = h.dst - 1 then none else some { h with src := a, dst := h.dst - 1 }
  | none, some b => if b = h.src - 1 then none else some { h with src := h.src - 1, dst := b }
  | none, none => none

/-- A hop or edge port after the retirement of a column; the vertical hops and edge ports of the column are gone. -/
def retireElement (col : Nat) (e : Element) : Option Element :=
  if 3 ≤ e.kind || coreCol e.index < col then some e
  else if col < coreCol e.index then some { e with index := e.index - 1 }
  else if e.dir ≤ 1 || col = 0 then none
  else some { e with index := e.index - 1, dir := 2 }

/-- A service packet after the retirement of a column: the hops of its way that are left, at the same one; none for a packet
of a core of that column. -/
def SvcPkt.retire (col : Nat) (p : SvcPkt) : Option SvcPkt :=
  let left := fun (r : List Element) => (r.filterMap (retireElement col)).eraseDups
  let route := left p.route
  match shiftCol col p.core with
  | some c => if route.isEmpty then none
      else some { p with route := route, core := c, pos := (left (p.route.take (p.pos + 1))).length - 1 }
  | none => none

/-- The fabric's records after the retirement of a column. -/
def Fabric.retire (f : Fabric) (col : Nat) : Fabric :=
  { f with
    cores := f.cores.filterMap fun x => (shiftCol col x.idx).map fun c => { x with idx := c }
    svc := f.svc.filterMap (·.retire col)
    crcLog := f.crcLog.filterMap fun p => (retireElement col p.1).map fun e => (e, p.2) }

/-- A rectangle after the retirement of a column. -/
def Rect.retire (r : Rect) (col : Nat) : Option Rect :=
  if col < r.col0 then some { r with col0 := r.col0 - 1 }
  else if col < r.col0 + r.ncols then (if r.ncols ≤ 1 then none else some { r with ncols := r.ncols - 1 })
  else some r

/-- R212 and R325 for one retired column: contexts at or east of it are torn down, rectangles and cores renumber. -/
def State.retireColumn (s : State) (die : Nat) : State :=
  let col := s.grid.dieCol0 die + s.grid.dieWidth die - 1
  let hit := s.jobs.filter fun j => j.rects.any fun r => col < r.col0 + r.ncols
  let ctxs := (s.ctxs.filter fun c => hit.any fun j => j.num == c.job).map (·.id)
  let s1 := ctxs.foldl (fun s c => s.tearDown c .fault) s
  let s2 : State := { s1 with
    grid := { s1.grid with
      retired := s1.grid.retired.modify die (· + 1)
      elements := (s1.grid.elements.filterMap (retireElement col)).eraseDups
      remaps := s1.grid.remaps.map fun m => { m with
        hosts := if m.die = die then m.hosts.map fun r => r.take (s1.grid.dieWidth die - 1) else m.hosts
        moved := m.moved.filterMap (shiftCol col) } }
    jobs := s1.jobs.map fun (j : Job) => { j with rects := j.rects.filterMap fun r => r.retire col }
    ctxs := s1.ctxs.map fun (c : Ctx) => { c with cfgs := c.cfgs.map fun (g : Cfg) =>
      { g with holds := (g.holds.filterMap (·.retire col)).eraseDups, stale := g.stale || ctxs.contains c.id } }
    fab := s1.fab.retire col
    mem := { s1.mem with
      cells := s1.mem.cells.filterMap fun c => (shiftKey col c.1).map fun k => (k, c.2)
      poison := s1.mem.poison.filterMap fun k => shiftKey col k
      upsets := s1.mem.upsets.filterMap fun u => (shiftKey col u.1).map fun k => (k, u.2) } }
  let s3 := ((s2.writeSpares).event (srcDie die) 0x0063
    (leBytes 1 die ++ leBytes 1 (s2.grid.dieWidth die) ++ leBytes 2 s2.grid.width ++
      leBytes 1 (gradeOf s2.grid.retiredAll))).journalAction 0x61 (leBytes 1 die ++ leBytes 2 col)
  hit.foldl (fun s j =>
    let left := ((s.job? j.num).map (·.rects.length)).getD 0
    s.event (srcJob j.num) 0x0016 (leBytes 2 col ++ leBytes 1 left)) s3

/-- Retire columns of a die until a map exists. -/
def State.retireUntil : Nat → Nat → State → State
  | 0, _, s => s
  | fuel + 1, die, s =>
    let s1 := s.retireColumn die
    if (shiftMap (badIn s1.grid.failed die) (s1.grid.dieWidth die)).isSome || s1.grid.dieWidth die = 0 then s1
    else State.retireUntil fuel die s1

/-- A physical position fails (R315, R322, R324, R325). -/
def State.failPos (s : State) (die row pos : Nat) : State :=
  if s.grid.failed.contains (die, row, pos) then s
  else
    let before := s.grid.mapOf die
    let onIt := (s.grid.coreAt die row pos).bind s.core? |>.bind (·.inv) |>.bind s.inv?
    let s1 := match onIt with
      | some i => s.tearDown i.ctx .fault
      | none => s
    let s2 := s1.modGrid fun g => { g with failed := g.failed ++ [(die, row, pos)] }
    match shiftMap (badIn s2.grid.failed die) (s2.grid.dieWidth die) with
    | some after =>
      let rows := changedRows before after
      if rows.isEmpty then s2
      else s2.holdRows die row pos before rows (changedCores (s2.grid.dieCol0 die) before after)
    | none =>
      let s3 := (State.retireUntil 80 die s2).writeRepair
      -- until the remap ends, the hosts of the columns that are left stay as they were
      let kept := before.map fun r => r.take (s3.grid.dieWidth die)
      let after := (shiftMap (badIn s3.grid.failed die) (s3.grid.dieWidth die)).getD []
      s3.holdRows die row pos kept (List.range 80) (changedCores (s3.grid.dieCol0 die) kept after)

/-- A virtual core fails. -/
def State.failCore (s : State) (core : Nat) : State :=
  let (d, r, p) := s.grid.hostOf core
  s.failPos d r p

end Sys2Proof.Machine
end

