-- ==== Sys2Proof/Machine/Boot.lean ====
section
/-! DEFINITION. Power-up, reset, boot stages, Trivet (14_boot_and_identity.md R337-R341, R344, R346;
13_safety_repair_wear.md R326, R331; 16_pins_and_mechanics.md R371, R372; 07_memory_tiers.md R376). -/

namespace Sys2Proof.Machine

/-! ### Reset, power-off, Trivet -/

/-- Space 0x3 is the host's memory and 0x5 package flash: neither is lost with the module's state. -/
def Memory.lasting (m : Memory) : List Host.Cell := m.cells.filter fun c => spaceOf c.1 == 3 || spaceOf c.1 == 5

/-- Everything stops and goes back to stage 1; package flash stays, and so do the pins (R338). -/
def State.restart (s : State) : State :=
  { State.reset with
    pins := s.pins
    mem := { State.reset.mem with cells := s.mem.lasting }
    tmr := { State.reset.tmr with trefPresent := s.tmr.trefPresent }
    out := s.out
    free := s.free
    pending := s.pending }

/-- Every rail goes off: PWR_GOOD falls and the TAP loses power (R338, R371, R372). -/
def State.railsOff (s : State) : State :=
  s.restart.modPins fun p => { p with rails := false, pwrGood := false, tap := .idcode }

/-- The module enters Trivet for a cause of Table 13.4: every port goes to electrical idle, as a DISABLED one is (log 104),
and the fill is off (R300); what else stops follows from State.working (R331). -/
def State.enterTrivet (s : State) (cause : Nat) : State :=
  { s with
    boot := { s.boot with trivet := true, trivetCause := cause }
    pwr := { s.pwr with fill := false }
    link := { s.link with ports := s.link.ports.map fun x => { x with st := .disabled } } }

/-! ### Supply and reset pins (R337, R338, R371) -/

/-- The I/O-die rails may rise. -/
def Pins.mayRise (p : Pins) : Bool := p.pwrEn && p.vinPresent && 32000 ≤ p.vinMv && !p.hardOff

/-- Raise the rails where PWR_EN, VIN and the trip latch allow it. -/
def State.raiseRails (s : State) : State :=
  s.modPins fun p => { p with rails := p.rails || p.mayRise }

def execPwrEnRise (s : State) : Res :=
  s.when (!s.pins.pwrEn) (s.modPins fun p => { p with pwrEn := true }).raiseRails

def execPwrEnFall (s : State) : Res :=
  s.when s.pins.pwrEn (s.modPins fun p => { p with pwrEn := false }).railsOff

def execVinRise (mv : Int) (s : State) : Res :=
  s.when (32000 ≤ mv && !s.pins.rails) (s.modPins fun p => { p with vinMv := mv, vinPresent := true }).raiseRails

def execPwrGoodRise (s : State) : Res :=
  s.when (s.pins.rails && !s.pins.pwrGood) (s.modPins fun p => { p with pwrGood := true })

/-- VIN goes away while the module is off; with it the trip latch loses its supply (R371). -/
def execVinRemoval (s : State) : Res :=
  s.when (!s.pins.pwrGood) ((s.modPins fun p => { p with vinMv := 0, vinPresent := false, tripLatch := false }).railsOff)

/-- PWR_EN has been low for 1 s: THERM_TRIP_N is released, and a rise of PWR_EN starts the module again (R307). -/
def execTripLatchRelease (s : State) : Res :=
  s.when (s.pins.hardOff && !s.pins.pwrEn) (s.modPins fun p => { p with tripLatch := false, hardOff := false })

def execResetNAssert (s : State) : Res :=
  s.when s.pins.resetN (s.modPins fun p => { p with resetN := false }).restart

/-- TAP instructions that RESET_N high refuses (R372). -/
def TapIr.drives : TapIr → Bool
  | .bypass | .idcode | .samplePreload => false
  | _ => true

/-- The count starts at 0 in stage 1 (R20, R339); a TAP instruction that drives pins gives way to IDCODE (R372). -/
def execResetNRelease (s : State) : Res :=
  s.when (!s.pins.resetN) (s.modPins fun p =>
    { p with resetN := true, tap := if p.tap.drives then .idcode else p.tap }).restart

/-! ### Pins (Table 16.4) and TAP instructions (R372) -/

/-- The level of an output pin: its function's own, unless a powered TAP out of reset drives it from its cell or leaves it to the
tray's pull resistor. -/
def Pins.level (p : Pins) (pull own cell : Bool) : Bool :=
  if !(p.pwrGood && p.trstN) then own
  else match p.tap with
    | .highz => pull
    | .extest | .extestPulse | .extestTrain | .clamp => cell
    | .bypass | .idcode | .samplePreload => own

/-! Output pins; true is the high level. The tray pulls the open-drain ones up and PWR_GOOD down (R371, Table 16.4). -/

def State.tripPin (s : State) : Bool := s.pins.level true (!s.pins.tripLatch) s.pins.cells.thermTripN

def State.trivetPin (s : State) : Bool :=
  s.pins.level true (!(s.pins.pwrGood && (s.boot.trivet || s.boot.resetHold))) s.pins.cells.trivetN

def State.alertPin (s : State) : Bool :=
  s.pins.level true (!(s.pins.pwrGood && (s.therm.lowFlow || s.therm.inletOut || s.pwr.simmer))) s.pins.cells.alertN

def State.pwrGoodPin (s : State) : Bool := s.pins.level false s.pins.pwrGood s.pins.cells.pwrGood

/-- Free values that a boundary register takes: nine pins, three words for each DDR5 group, CXL, and each TongLink port. -/
def boundaryDraws : Nat := 62

/-- Cells of free values from the `n`-th on: what a scan shifts into them is no row's operand (log 116). -/
def Boundary.of (n : Nat) : Boundary :=
  let v := Config.freeValue
  let w := v n
  ⟨w.getLsbD 0, w.getLsbD 1, w.getLsbD 2, w.getLsbD 3, w.getLsbD 4, w.getLsbD 5, w.getLsbD 6, w.getLsbD 7, w.getLsbD 8,
    (List.range 16).map fun i => (v (n + 3 * i + 1) ++ v (n + 3 * i + 2) ++ v (n + 3 * i + 3)).setWidth 162,
    (v (n + 49)).setWidth 32, (List.range 12).map fun i => (v (n + 50 + i)).setWidth 18⟩

/-- The levels that the boundary register captures, those of the lands whose level the model does not hold free. -/
def State.captured (s : State) : Boundary :=
  { Boundary.of s.free with
    pwrEn := s.pins.pwrEn, resetN := s.pins.resetN, pwrGood := s.pwrGoodPin, alertN := s.alertPin, thermTripN := s.tripPin,
    trivetN := s.trivetPin }

/-- What the instruction register gives on TDO when its register is the IDCODE register (R372). -/
def tapIdcode : U32 := 0x15C4445B

/-- Instructions that select the boundary register. -/
def TapIr.scans : TapIr → Bool
  | .samplePreload | .extest | .extestPulse | .extestTrain => true
  | .bypass | .idcode | .clamp | .highz => false

/-- The instruction that a load puts into the register: with RESET_N high one that drives pins selects BYPASS. -/
def Pins.tapLoad (p : Pins) (i : TapIr) : TapIr := if p.resetN && i.drives then .bypass else i

/-- Load the instruction register, TRST_N high, with the scan of the data register that follows: IDCODE, one bit of BYPASS, or
the boundary cells. The scan of SAMPLE/PRELOAD leaves what it shifts in, a free value; an EXTEST instruction, as CLAMP, drives
what the cells were preloaded with, and its scan shifts that in again (log 116). -/
def State.loadTap (s : State) (i : TapIr) : Res :=
  let ir := s.pins.tapLoad i
  let load := fun (t : State) => t.modPins fun p => { p with trstN := true, tap := ir }
  s.when s.pins.pwrGood
    (if ir.scans then
      let n := s.free + boundaryDraws
      let s1 := load { s with free := n }
      let s2 := if ir = .samplePreload then
        ({ s1 with free := n + boundaryDraws }).modPins fun p => { p with cells := Boundary.of n } else s1
      s2.send (.tdoCells s.captured)
    else (load s).send (if ir = .idcode then .tdo 32 tapIdcode.toNat else .tdo 1 0))

def execBypass (s : State) : Res := s.loadTap .bypass
def execIdcode (s : State) : Res := s.loadTap .idcode
def execSamplePreload (s : State) : Res := s.loadTap .samplePreload
def execExtest (s : State) : Res := s.loadTap .extest
def execExtestPulse (s : State) : Res := s.loadTap .extestPulse
def execExtestTrain (s : State) : Res := s.loadTap .extestTrain
def execClamp (s : State) : Res := s.loadTap .clamp
def execHighz (s : State) : Res := s.loadTap .highz

/-! ### Boot stages (R339-R341) -/

/-- A stage ends in Trivet: BOOT_ERROR first (Table 14.5). -/
def State.bootFail (s : State) (code detail : Nat) : State :=
  (s.modBoot fun b => { b with code := code, detail := detail, errStage := b.stage }).enterTrivet 1

/-- The next stage. -/
def State.nextStage (s : State) (ms : Nat) : State :=
  s.modBoot fun b => { b with stage := b.stage + 1, entryMs := ms }

/-- The identity record passes its CRC and its signature (Table 14.5). -/
def State.identityGood (s : State) : Bool := s.flashValid 1 0 && vendorSigned s.identityRecord

/-- SHIP_GRADE of the identity record (Table 14.8). -/
def State.shipGradeRead (s : State) : Nat := s.readNat (mkKey 5 48) 1 % 4

/-- MIN_VERSION of the minimum-version record in force (R346). -/
def State.minVersionRead (s : State) : Nat := ((s.flashRecord 3).map fun bs => fieldAt bs 32 4).getD 0

/-- Stage 3: package flash is read, and the public key derived from the PUF compared with AKPUB (R346, R348). -/
def State.bootFlash (s : State) (r : BootResult) : State :=
  if !r.flashOk then s.bootFail 0x0101 0
  else if !s.identityGood then s.bootFail 0x0102 0
  else if r.pufKey != s.akpub then s.bootFail 0x0103 0
  else (s.modBoot fun b => { b with minVersion := s.minVersionRead, shipGrade := s.shipGradeRead }).nextStage r.ms

/-- The lowest stack whose ID differs from bytes 200 to 583 of the identity record (Tables 14.5, 14.8). -/
def State.wrongStack (s : State) (ids : List (List Byte)) : Option Nat :=
  let rec_ := s.identityRecord
  (List.range 24).find? fun h => ids.getD h [] != slice rec_ (200 + 16 * h) 16

/-- Stage 4: die power-up; the stack IDs are compared. -/
def State.bootPower (s : State) (r : BootResult) : State :=
  match r.railFail, s.wrongStack r.stackIds with
  | some d, _ => s.bootFail 0x0201 d
  | none, some h => s.bootFail 0x0104 h
  | none, none => s.nextStage r.ms

/-- Stage 5: self-test, rows 1 to 3 of Table 14.4. -/
def State.bootSelfTest (s : State) (r : BootResult) : State :=
  match r.failedPair with
  | some p => s.bootFail 0x0301 p
  | none =>
    ((s.modGrid fun g => { g with failed := r.failedCores.eraseDups, elements := r.elements.eraseDups,
                                  lanesFailed := r.laneFail.eraseDups }).modBoot fun b =>
      { b with warnFabric := r.elements.any fun e => e.kind < 3
               warnUnit := r.elements.any fun e => 3 ≤ e.kind
               warnLanes := !r.laneFail.isEmpty }).nextStage r.ms

/-- The widest width at or below `w` for which a die has a map; 0 when there is none (R323, R325). -/
def fitWidth (bad : Nat → List Nat) : Nat → Nat
  | 0 => 0
  | w + 1 => if (shiftMap bad (w + 1)).isSome then w + 1 else fitWidth bad w

/-- Stage 6: the repair record and the failures found are merged, columns retired as required, and the record rewritten
when the merge changed it (R326). -/
def State.bootRepair (s : State) (ms : Nat) : State :=
  let known := s.flashRecord 2
  let es := repairEntries s.repairBody
  let failed := (entriesFailed es ++ s.grid.failed).eraseDups
  let widths := (List.range 4).map fun d => fitWidth (badIn failed d) (80 - (entriesRetired es).getD d 0)
  let s1 := s.modGrid fun g =>
    { g with failed := failed, retired := widths.map (80 - ·), hbmRows := entriesRows es }
  match widths.findIdx? (· == 0) with
  | some d => s1.bootFail 0x0302 d
  | none =>
    let s2 := (s1.modGrid fun g => { g with valid := true }).writeSpares
    let s3 := s2.modBoot fun b => { b with warnRepair := known.isNone }
    (if known.isSome && s3.grid.repairBytes == s3.repairBody then s3 else s3.writeRepair).nextStage ms

/-- Data rates, in 100 MT/s, that the module runs a type of DIMM at (07_memory_tiers.md). -/
def dimmRates : DimmKind → List Nat
  | .rdimm | .rdimm3ds => [48, 56, 64]
  | .mrdimm => [80, 88]
  | .other => []

/-- Causes 1 and 2 of event 0x006B: the module does not support the DIMM. -/
def dimmUnsupported (d : Dimm) : Option Nat :=
  if d.kind = .other then some 1 else if d.gib < 16 ∨ 256 < d.gib then some 2 else none

/-- The highest data rate that every DIMM the module supports runs at; 0 when there is none (R16; log 86). -/
def commonRate (ds : List (Option Dimm)) : Nat :=
  let fit := (ds.filterMap id).filter fun d => (dimmUnsupported d).isNone
  ([48, 56, 64, 80, 88].filter fun r => fit.all fun d => (dimmRates d.kind).contains r && d.rates.contains r).foldl max 0

/-- Why a populated channel is disabled at a common rate: cause and rate reached (15_registers.md event 0x006B). -/
def dimmDisabledAt (rate : Nat) (d : Dimm) : Option (Nat × Nat) :=
  match dimmUnsupported d with
  | some c => some (c, 0)
  | none => if rate = 0 ∨ d.reach < rate then some (3, d.reach) else none

/-- GiB in use behind a channel. -/
def trainedGib (rate : Nat) : Option Dimm → Nat
  | some d => if (dimmDisabledAt rate d).isSome then 0 else d.gib
  | none => 0

/-- The channels that boot disables: channel, cause, rate reached. -/
def bootDdrDisabled (r : BootResult) : List (Nat × Nat × Nat) :=
  (r.dimms.mapIdx fun i d => (d.bind (dimmDisabledAt (commonRate r.dimms))).map fun (x : Nat × Nat) => (i, x.1, x.2)).filterMap id

/-- Stage 7: memory training; the rows HBM MBIST found are repaired, and the recorded ones again (Table 14.4, R16). -/
def State.bootTrain (s : State) (r : BootResult) : State :=
  match r.badStack with
  | some h => s.bootFail 0x0401 h
  | none =>
    let rate := commonRate r.dimms
    let s1 := s.modGrid fun g =>
      { g with hbmRows := (g.hbmRows ++ r.hbmRows).eraseDups, ddrGib := r.dimms.map (trainedGib rate), ddrRate := rate }
    let s2 := s1.modBoot fun b => { b with warnDdr := !(bootDdrDisabled r).isEmpty }
    ((bootDdrDisabled r).foldl (fun s d => s.event (srcDdr d.1) 0x006B (leBytes 1 d.2.1 ++ leBytes 1 d.2.2)) s2).nextStage r.ms

/-- One boot stage ends (Table 14.1). A failed ROM self-check holds the module in reset (R341). -/
def execBootStageComplete (r : BootResult) (s : State) : Res :=
  if !s.working then .next s else
  match s.boot.stage with
  | 1 => .next (s.nextStage r.ms)
  | 2 =>
    if r.romOk then .next ((s.modBoot fun b => { b with warnCxl := r.cxlDegraded }).nextStage r.ms)
    else .next (s.modBoot fun b => { b with resetHold := true })
  | 3 => .next (s.bootFlash r)
  | 4 => .next (s.bootPower r)
  | 5 => .next (s.bootSelfTest r)
  | 6 => .next (s.bootRepair r.ms)
  | 7 => .next (s.bootTrain r)
  | _ => .next s

/-- Control firmware starts on every pair: stage 9, the manager watch begins, FW_LOAD completes (R303, R343, R344). -/
def execFirmwareStart (ms : Nat) (s : State) : Res :=
  match s.boot.accepted with
  | some f =>
    if !(s.working && s.boot.stage == 8) then .next s
    else
      let s1 := (s.modBoot fun b => { b with cfwVersion := f.version, imageDigest := f.digest, accepted := none }).nextStage ms
      .next (((s1.modPwr fun p => { p with lastBeat := s1.elapsed }).modHealth fun h => { h with katAt := s1.elapsed, katCur := h.katInterval }).finish f.cmd .ok (leBytes 4 f.version))
  | none => .next s

/-- 4 KiB units of the largest DDR window. -/
def Grid.ddrUnits (g : Grid) : Nat := ((List.range 4).map g.ddrWindowGib).foldl max 0 * 2 ^ 18

/-- One more 4 KiB unit of every DDR window has been zeroed. A word not zeroed yet already reads as zero, and a word
written since start-up keeps what was written (R376), so memory does not change. -/
def execDdrZeroFill (s : State) : Res :=
  s.when (s.working && 8 ≤ s.boot.stage && s.boot.ddrZeroed < s.grid.ddrUnits)
    (s.modBoot fun b => { b with ddrZeroed := b.ddrZeroed + 1 })

/-- A DDR offset is zeroed, so patrol scrub reaches it (R376). -/
def State.ddrZeroedAt (s : State) (off : Nat) : Bool := off % 2 ^ 40 < s.boot.ddrZeroed * 4096

end Sys2Proof.Machine
end

