-- ==== Sys2Proof/Machine/Ecc.lean ====
section
/-! DEFINITION. ECC words whose stored bits have changed (13_safety_repair_wear.md R316-R318): what an access or a scrub does
when it meets them, and the start of MEM_CONVERT, which reads a stream header. -/

namespace Sys2Proof.Machine

/-- Corrected words count in FAULT_SUMMARY too. -/
def State.countCorrected (s : State) (n : Nat) : State :=
  s.modHealth fun h => { h with corrected := satAdd 16 h.corrected n }

/-! ### Core SRAM (R316) -/

/-- Bank of a byte of a core's SRAM (Table 1.1): eight of 32 KiB. -/
def sramBank (off : Nat) : Nat := off / 2 ^ 15

/-- A bank with more than 16 corrected words in one pass. -/
def bankWorn (corrected : List Nat) : Bool :=
  (List.range 8).any fun b => 16 < (corrected.filter fun o => sramBank o == b).length

/-- Words of a physical core's SRAM: corrected ones are counted; one that cannot be corrected is poisoned and fails the core.
The SRAM of a spare has no address, and no core index for an event (log 68). -/
def State.sramWords (s : State) (die row pos : Nat) (core : Option Nat) (good bad : List Nat) (worn : Bool) : State :=
  let s1 := (s.countCorrected good.length).modHealth fun h =>
    { h with sramCe := satAdd 64 h.sramCe good.length, sramUe := satAdd 64 h.sramUe bad.length }
  let s2 := match core with
    | some c => bad.foldl (fun s o => (s.markPoison [sramKey c + o]).event (srcDie die) 0x0064
        (leBytes 2 c ++ zeros 2 ++ leBytes 4 o)) s1
    | none => s1
  if !bad.isEmpty || worn then s2.failPos die row pos else s2

/-! ### HBM3E (R317) -/

/-- Ticks of 24 h. -/
def dayTicks : Nat := 8640000000000

/-- Rows of a stack that now need repair: with an uncorrectable word, or corrected errors in two distinct words. -/
def rowDue (day : List (Nat × Nat × Nat × Nat × Nat)) (stack pc row : Nat) (bad : Bool) : Bool :=
  bad || 2 ≤ ((day.filter fun d => d.1 == stack && d.2.1 == pc && d.2.2.1 == row).map (·.2.2.2.1)).eraseDups.length

def addCnt (l : List MemCnt) (i ce ue rep : Nat) : List MemCnt :=
  l.modify i fun c => ⟨satAdd 32 c.corrected ce, satAdd 16 c.uncorrectable ue, satAdd 8 c.repaired rep⟩

/-- Words of one HBM row, by offset: corrected ones are counted against the stack, others poisoned with event 0x0065; the row
may then need repair. -/
def State.hbmWords (s : State) (stack pc row : Nat) (good bad : List Nat) : State :=
  let s1 := (s.countCorrected good.length).modHealth fun h =>
    let day := (h.hbmDay.filter fun d => s.elapsed < d.2.2.2.2 + dayTicks) ++
      good.map fun o => (stack, pc, row, o - o % 32, s.elapsed)
    { h with hbm := addCnt h.hbm stack good.length bad.length 0, hbmDay := day,
             hbmDue := if rowDue day stack pc row (!bad.isEmpty) && !h.hbmDue.contains (stack, pc, row) then
               h.hbmDue ++ [(stack, pc, row)] else h.hbmDue }
  bad.foldl (fun s o => (s.markPoison [mkKey 0 o]).event (srcStack stack) 0x0065
    (leBytes 1 pc ++ zeros 3 ++ leBytes 4 row)) s1

/-- A pseudo-channel fails; with all 32 the stack is failed. -/
def Grid.losePc (g : Grid) (stack pc : Nat) : Grid :=
  let pcs := if g.pcFailed.contains (stack, pc) then g.pcFailed else g.pcFailed ++ [(stack, pc)]
  let all := (List.range 32).all fun p => pcs.contains (stack, p)
  { g with pcFailed := pcs
           stackFailed := if all && !g.stackFailed.contains stack then g.stackFailed ++ [stack] else g.stackFailed }

/-! ### DDR5 (R318) -/

/-- Words of a DDR channel, by offset: corrected ones are counted, others poisoned with event 0x0067; at the 64th of 24 h the
event's flag is 1. -/
def State.ddrWords (s : State) (channel : Nat) (good bad : List Nat) : State :=
  let s1 := (s.countCorrected good.length).modHealth fun h =>
    { h with ddr := addCnt h.ddr channel good.length bad.length 0
             ddrDay := h.ddrDay.filter fun d => s.elapsed < d.2 + dayTicks }
  bad.foldl (fun s o =>
    let s2 := (s.markPoison [mkKey 1 o]).event (srcDdr channel) 0x0067 (zeros 8 ++ leBytes 8 o)
    let s3 := s2.modHealth fun h => { h with ddrDay := h.ddrDay ++ [(channel, s.elapsed)] }
    if (s3.health.ddrDay.filter fun d => d.1 == channel).length = 64 then
      s3.event (srcDdr channel) 0x0067 (leBytes 1 1 ++ zeros 7 ++ leBytes 8 o)
    else s3) s1

/-! ### Access -/

/-- Changed words that a check meets are corrected and written back, or poisoned: they are changed no more. -/
def State.settleUpsets (s : State) (ws : List (Nat × Bool)) : State :=
  s.modMem fun m => { m with upsets := m.upsets.filter fun u => !ws.contains u }

/-- Offsets of changed words of two kinds: corrected, and not correctable; a poisoned word is no error (R171). -/
def State.upsetOffs (s : State) (ws : List (Nat × Bool)) (bad : Bool) : List Nat :=
  (ws.filter fun u => u.2 == bad && !s.mem.poison.contains u.1).map fun u => offOf u.1

/-- An access meets one changed word. -/
def State.meetUpset (s : State) (u : Nat × Bool) : State :=
  let off := offOf u.1
  let good := s.upsetOffs [u] false
  let bad := s.upsetOffs [u] true
  let s1 := s.settleUpsets [u]
  match spaceOf u.1 with
  | 0 => s1.hbmWords (hbmStack off) (hbmPc off) (Config.hbmRow off) good bad
  | 1 => match s.grid.ddrChannel off with
    | some ch => s1.ddrWords ch good bad
    | none => s1
  | 2 =>
    let core := off / sramBytes
    let (d, r, p) := s.grid.hostOf core
    s1.sramWords d r p (some core) (good.map (· % sramBytes)) (bad.map (· % sramBytes)) false
  | _ => s1

/-- An access reads a range: changed words in it are corrected, counted and written back, or poisoned (SECDED on access); a
read of a failed stack is counted. -/
def State.touch (s : State) (k len : Nat) : State :=
  let s1 := (s.mem.upsets.filter fun u => overlaps u.1 (eccSize u.1) k len).foldl State.meetUpset s
  if s1.deadIn k len then s1.modMem fun m => { m with deadReads := m.deadReads + 1 } else s1

/-- Several ranges are read. -/
def State.touchAll (s : State) (rs : List (Nat × Nat)) : State := rs.foldl (fun s r => s.touch r.1 r.2) s

/-! ### The start of MEM_CONVERT -/

/-- What a conversion reads before it starts: of a decode, the header of its stream (13_safety_repair_wear.md R316-R318). -/
def State.touchHeader (s : State) (d : Desc) (src : Nat) : State := if d.mode = 2 then s.touch src 16 else s

def startMemConvert (e : Env) (src dst len desc : U64) (id : Nat) (s : State) : State :=
  let n := len.toNat
  match s.heldAddr e src.toNat n true false, s.heldAddr e dst.toNat 1 false true with
  | some a, some b =>
    let s := s.touchHeader (Desc.of desc.toNat) a
    if s.sramBusy a n || s.sramBusy b (s.convertLen (Desc.of desc.toNat) a n) then s.finish id .wrongState
    else if s.unitFailed 3 (mandolineOf a b) then s.finish id .hwFault
    else s.modRec id fun r => { r with xfer := some (.convert a b n desc) }
  | _, _ => s.finish id .badParam

def execMemConvert (e : Env) (src dst len desc : U64) (s : State) : Res :=
  command (.memConvert e src dst len desc) e (checkMemConvert e src dst len desc) (fun _ => len == 0)
    (startMemConvert e src dst len desc) s

end Sys2Proof.Machine
end

