-- ==== Sys2Proof/Machine/Mirror.lean ====
section
/-! DEFINITION. The mirror image of a serving context (11_links_and_systems.md R283-R285): what a step's commit sends and
what a takeover reads back. The layout of the serving records inside the image is the model's (log 33). -/

namespace Sys2Proof.Machine

/-! ### Serving records as words -/

def optWord : Option Nat → List Nat
  | some n => [1, n]
  | none => [0, 0]

def condCode : ReqCond → Nat
  | .waiting => 0 | .prefill => 1 | .decoding => 2 | .awaiting => 3

def condOf : Nat → ReqCond
  | 0 => .waiting | 1 => .prefill | 2 => .decoding | _ => .awaiting

def boolWord (b : Bool) : Nat := if b then 1 else 0

/-- A request as words: 26 fixed ones, then its pages. -/
def Req.words (r : Req) : List Nat :=
  [r.id, r.prompt, r.plen, r.maxNew, r.out] ++ (r.stops ++ List.replicate 4 0).take 4 ++
    [r.deadline, (r.adapter.map (·.1)).getD 0, (r.adapter.map (·.2)).getD 0, boolWord r.adapter.isSome,
      boolWord r.hostStep, condCode r.cond] ++ optWord r.slot ++
    [r.kvlen, r.prefilled, r.emitted, r.last, r.steps, boolWord r.maskValid, boolWord r.replaced, r.drafts.length] ++
    (r.drafts ++ List.replicate 7 0).take 7 ++ [r.pages.length] ++ r.pages

def Req.ofWords (ws : List Nat) : Req × List Nat :=
  let g := fun i => ws.getD i 0
  let n := g 32
  ({ id := g 0, prompt := g 1, plen := g 2, maxNew := g 3, out := g 4, stops := (ws.drop 5).take 4, deadline := g 9,
     adapter := if g 12 = 1 then some (g 10, g 11) else none, hostStep := g 13 == 1, cond := condOf (g 14),
     slot := if g 15 = 1 then some (g 16) else none, kvlen := g 17, prefilled := g 18, emitted := g 19, last := g 20,
     steps := g 21, maskValid := g 22 == 1, replaced := g 23 == 1, drafts := (ws.drop 25).take (g 24),
     pages := (ws.drop 33).take n, cancel := none },
   ws.drop (33 + n))

def SrvDesc.words (d : SrvDesc) : List Nat :=
  [d.dec, d.pre, d.maxseq, d.spec, boolWord d.threshold, d.nmax, d.smax, d.tpp, d.maxreq, d.chunkMax, d.thresh, d.vocab,
    d.slots, d.chunks, d.verify, d.prob, d.masks, d.kvpool, d.kvpages, d.maxpages, d.pages, d.ring, d.ringN, d.vector,
    boolWord d.vecEn, d.darg, d.parg, d.dres, d.pres]

def SrvDesc.ofWords (ws : List Nat) : SrvDesc :=
  let g := fun i => ws.getD i 0
  { dec := g 0, pre := g 1, maxseq := g 2, spec := g 3, threshold := g 4 == 1, nmax := g 5, smax := g 6, tpp := g 7,
    maxreq := g 8, chunkMax := g 9, thresh := g 10, vocab := g 11, slots := g 12, chunks := g 13, verify := g 14,
    prob := g 15, masks := g 16, kvpool := g 17, kvpages := g 18, maxpages := g 19, pages := g 20, ring := g 21,
    ringN := g 22, vector := g 23, vecEn := g 24 == 1, darg := g 25, parg := g 26, dres := g 27, pres := g 28 }

def Serving.words (v : Serving) : List Nat :=
  v.desc.words ++ [v.nextReq, v.step, v.eN, v.eS, v.chunk, v.nMin, v.nMax, v.sMin, v.sMax, v.interval, v.sinceInterval,
    v.seq, v.reqs.length] ++ v.reqs.flatMap Req.words ++ v.hist.length :: v.hist.flatMap fun h => optWord h.1 ++ optWord h.2

/-- `n` requests from words, and the words behind them. -/
def reqsOfWords : Nat → List Nat → List Req × List Nat
  | 0, ws => ([], ws)
  | n + 1, ws =>
    let r := Req.ofWords ws
    let rest := reqsOfWords n r.2
    (r.1 :: rest.1, rest.2)

def wordOpt (flag v : Nat) : Option Nat := if flag = 1 then some v else none

/-- Step times from words, four each (R226). -/
def histOfWords (n : Nat) (ws : List Nat) : List (Option Nat × Option Nat) :=
  (List.range n).map fun i =>
    (wordOpt (ws.getD (4 * i) 0) (ws.getD (4 * i + 1) 0), wordOpt (ws.getD (4 * i + 2) 0) (ws.getD (4 * i + 3) 0))

def Serving.ofWords (ws : List Nat) : Serving :=
  let g := fun i => ws.getD (29 + i) 0
  let (reqs, rest) := reqsOfWords (g 12) (ws.drop 42)
  { desc := SrvDesc.ofWords ws, st := .serving, reqs, nextReq := g 0, step := g 1,
    cur := none, eN := g 2, eS := g 3, chunk := g 4, nMin := g 5, nMax := g 6, sMin := g 7, sMax := g 8, interval := g 9,
    sinceInterval := g 10, hist := histOfWords (rest.headD 0) (rest.drop 1), seq := g 11, blockedSince := none, blockedTick := 0,
    runnableSince := none, stopCmd := none, stopNow := false, waitFrom := none, retired := 0, told := [], dirty := [] }

def wordBytes (ws : List Nat) : List Byte := ws.flatMap (leBytes 8)

def bytesWords (bs : List Byte) : List Nat := (List.range (bs.length / 8)).map fun i => fieldAt bs (8 * i) 8

/-! ### The image -/

/-- Marks a commit record (the model's own). -/
def commitMagic : Nat := 0x54494D4D4F435252

/-- State save area of a context: its configuration stores. -/
def State.storeRanges (s : State) (c : Ctx) : List (Nat × Nat) :=
  (s.mem.reserves.filter fun r => r.ctx == c.id && r.kind == 0).map fun r => (r.base, r.len)

def State.storeLen (s : State) (c : Ctx) : Nat := ((s.storeRanges c).map (·.2)).foldl (· + ·) 0

/-- Offset of the packed slot of a page in the image: slots by page index behind the state save area (R284). -/
def State.mirrorSlot (s : State) (c : Ctx) (page : Nat) : Nat := s.storeLen c + packedSlot * page

/-- Offset of the serving records. -/
def State.mirrorRecords (s : State) (c : Ctx) (v : Serving) : Nat := s.mirrorSlot c v.desc.kvpages

/-- The 64-byte commit record that names a step. -/
def commitRecord (step records len : Nat) : List Byte :=
  leBytes 8 commitMagic ++ leBytes 8 step ++ leBytes 8 records ++ leBytes 8 len ++ zeros 32

/-- What a step's commit sends: pieces of (offset in the area, bytes, offsets of poisoned words among them), the commit record
last (R284). -/
def State.mirrorPieces (s : State) (c : Ctx) (v : Serving) (areaLen step : Nat) : List (Nat × List Byte × List Nat) :=
  let store := (s.storeRanges c).flatMap fun r => s.readBytes r.1 r.2
  let bad := ((s.storeRanges c).foldl (fun (acc : List Nat × Nat) r =>
    (acc.1 ++ (s.poisonOffsets r.1 r.2).map (acc.2 + ·), acc.2 + r.2)) ([], 0)).1
  let recs := wordBytes v.words
  let pages := (v.dirty.filter v.pagesHeld.contains).map fun i =>
    (s.mirrorSlot c i, s.packedPage c v i, s.packedMarks c v i)
  [(0, store, bad), (s.mirrorRecords c v, recs, [])] ++ pages ++
    [(areaLen - 64, commitRecord step (s.mirrorRecords c v) recs.length, [])]

/-- What a step's commit reads: the state save area and the pages written. -/
def State.mirrorStepReads (s : State) (c : Ctx) (v : Serving) : List (Nat × Nat) :=
  s.storeRanges c ++ (v.dirty.filter v.pagesHeld.contains).map fun i => (c.pageKey v i, 65536)

/-- The serving state of a committed image in the context's lowest EVICT region in DDR, with the step it names. -/
def State.mirrorImage? (s : State) (c : Ctx) : Option (Serving × Nat) :=
  match c.evictRegion 1 with
  | some r =>
    let k := r.target + r.length - 64
    if s.readNat k 8 = commitMagic && !s.poisonedIn k 64 then
      some (Serving.ofWords (bytesWords (s.readBytes (r.target + s.readNat (k + 16) 8) (s.readNat (k + 24) 8))),
        s.readNat (k + 8) 8)
    else none
  | none => none

/-- The packed pages of a committed image and where they go back to. -/
def State.mirrorPages (s : State) (c : Ctx) (v : Serving) : List Saved :=
  match c.evictRegion 1 with
  | some r => v.pagesHeld.map fun i =>
      let k := r.target + s.mirrorSlot c i
      ⟨c.pageKey v i, 65536, k, s.readNat (k + 12) 4, some i⟩
  | none => []

/-- What the search for a committed image, and its restore, read. -/
def Ctx.mirrorReads (c : Ctx) : List (Nat × Nat) :=
  match c.evictRegion 1 with
  | some r => [(r.target + r.length - 64, 64)]
  | none => []

def State.mirrorRestoreReads (s : State) (c : Ctx) (v : Serving) : List (Nat × Nat) :=
  match c.evictRegion 1 with
  | some r => [(r.target, s.storeLen c), (r.target + s.mirrorRecords c v, (wordBytes v.words).length)] ++
      (s.mirrorPages c v).map fun p => (p.at_, p.stored)
  | none => []

/-- Restore a committed image: state save area, serving records and KV pages; the bytes read (R285). A SRV_STOP that waits goes
on waiting for the image's requests. -/
def State.restoreMirror (s : State) (c : Ctx) (v : Serving) (step : Nat) : State × Nat :=
  match c.evictRegion 1 with
  | some r =>
    let (s1, n) := (s.storeRanges c).foldl (fun (acc : State × Nat) x =>
      (acc.1.copyRange (r.target + acc.2) x.1 x.2, acc.2 + x.2)) (s, 0)
    let s2 := (s.mirrorPages c v).foldl State.saveIn s1
    let read := n + ((s.mirrorPages c v).map (·.stored)).foldl (· + ·) 0 + (wordBytes v.words).length + 64
    (s2.modCtx c.id fun d => { d with serving := some { v with step := step + 1, stopCmd := d.serving.bind (·.stopCmd) } }, read)
  | none => (s, 0)

end Sys2Proof.Machine
end

