-- ==== Sys2Proof/Machine/Jobs.lean ====
section
/-! DEFINITION. Jobs and contexts (09_serving.md R208-R218; 07_memory_tiers.md R164, R165, R184): JOB_OPEN, JOB_CLOSE,
CTX_CREATE, CTX_DESTROY, CTX_EVICT, CTX_RESTORE, CTX_PIN. -/

namespace Sys2Proof.Machine

/-! ### JOB_OPEN (R208, R209) -/

def checkJobOpen (e : Env) (desc : U64) (nrect dlen : U16) (s : State) : Option Status :=
  firstFail (s.ptrChecks e desc.toNat dlen.toNat ++ [(nrect != 0, .badSize), (nrect.toNat ≤ 64, .badParam)])

/-- A rectangle entry (Table 9.2). -/
def Rect.of (bs : List Byte) : Rect := ⟨fieldAt bs 0 1, fieldAt bs 1 1, fieldAt bs 2 2, fieldAt bs 4 2⟩

def Rect.meets (a b : Rect) : Bool :=
  a.row0 < b.row0 + b.nrows && b.row0 < a.row0 + a.nrows && a.col0 < b.col0 + b.ncols && b.col0 < a.col0 + a.ncols

/-- What a job descriptor asks for. -/
structure JobDesc where
  nctx : Nat
  nqp : Nat
  rects : List Rect
  /-- MiB per edge group, then per DDR window -/
  hbm : List Nat
  ddr : List Nat
  hosts : List (Nat × Nat)
  deriving DecidableEq, Repr

def JobDesc.of (bs : List Byte) (nrect : Nat) : JobDesc :=
  { nctx := fieldAt bs 4 2, nqp := fieldAt bs 6 2
    rects := (List.range nrect).map fun i => Rect.of (slice bs (64 + 8 * i) 8)
    hbm := (List.range 8).map fun g => fieldAt bs (16 + 4 * g) 4
    ddr := (List.range 4).map fun x => fieldAt bs (48 + 4 * x) 4
    hosts := (List.range (fieldAt bs 8 1)).map fun i =>
      (fieldAt bs (64 + 8 * nrect + 16 * i) 8, fieldAt bs (64 + 8 * nrect + 16 * i + 8) 8) }

def rectFieldsOk (bs : List Byte) (w : Nat) : Bool :=
  let r := Rect.of bs
  r.row0 ≤ 79 && 1 ≤ r.nrows && r.nrows ≤ 80 && 1 ≤ r.ncols && r.ncols ≤ 320 && r.row0 + r.nrows ≤ 80 &&
    r.col0 + r.ncols ≤ w && allZero (slice bs 6 2)

/-- The first failing item of a list, by index. -/
def firstBad (n : Nat) (ok : Nat → Bool) : Option Nat := (List.range n).find? fun i => !ok i

/-- Checks of Table 9.3: code and item of the first failure. -/
def State.jobDescFail (s : State) (bs : List Byte) (nrect dlen : Nat) : Option (Nat × Nat) :=
  let d := JobDesc.of bs nrect
  let open_ := s.jobs.flatMap (·.rects)
  let hostRanges := s.jobs.flatMap (·.hosts)
  if !(64 ≤ dlen && fieldAt bs 0 4 == 0x31424F4A && 1 ≤ d.nctx && d.nctx ≤ 1023 && d.nqp ≤ 2047 && fieldAt bs 8 1 ≤ 16 &&
      allZero (slice bs 9 7) && d.hbm.all (· ≤ 147456) && d.ddr.all (· ≤ 1048576) &&
      dlen == 64 + 8 * nrect + 16 * fieldAt bs 8 1) then some (0x0080, 0)
  else match firstBad nrect fun i => rectFieldsOk (slice bs (64 + 8 * i) 8) s.grid.width with
    | some i => some (0x0081, i)
    | none => match firstBad nrect fun i =>
        !((d.rects.take i ++ open_).any fun r => r.meets (d.rects.getD i ⟨0, 0, 0, 0⟩)) with
      | some i => some (0x0082, i)
      | none => match firstBad d.hosts.length fun i =>
          let h := d.hosts.getD i (0, 0)
          h.1 % 4096 == 0 && h.2 % 4096 == 0 && h.2 != 0 && h.1 + h.2 ≤ 2 ^ 48 &&
            !((d.hosts.take i ++ d.hosts.drop (i + 1)).any fun x => overlaps h.1 h.2 x.1 x.2) &&
            !(hostRanges.any fun x => overlaps (mkKey 3 h.1) h.2 x.1 x.2) with
        | some i => some (0x0083, i)
        | none => none

/-- The lowest free 1 MiB-aligned range of `mib` MiB in a window. -/
def State.lowestRange (s : State) (base room mib : Nat) : Option (Nat × Nat) :=
  let taken := s.jobs.flatMap (·.grants)
  (fitFrom taken (mib * 2 ^ 20) (2 ^ 20) (base + room) (taken.length + 1) base).map fun k => (k, mib * 2 ^ 20)

/-- Reservations for the non-zero grants: window bases and their lengths; none when one does not fit. -/
def State.reserveGrants (s : State) (d : JobDesc) : Option (List (Nat × Nat)) :=
  let hb := (d.hbm.mapIdx fun g m => (mkKey 0 (g * 2 ^ 38), hbmWindow, m)).filter fun x => x.2.2 != 0
  let dd := (d.ddr.mapIdx fun x m => (mkKey 1 (x * 2 ^ 40), s.grid.ddrWindowGib x * 2 ^ 30, m)).filter fun x => x.2.2 != 0
  let got := (hb ++ dd).map fun x => s.lowestRange x.1 x.2.1 x.2.2
  if got.all (·.isSome) then some (got.filterMap id) else none

def startJobOpen (e : Env) (desc : U64) (nrect dlen : U16) (id : Nat) (s0 : State) : State :=
  let k := s0.keyAt e desc.toNat dlen.toNat true false
  let s := s0.touch k dlen.toNat
  let bs := s.readBytes k dlen.toNat
  match s.jobDescFail bs nrect.toNat dlen.toNat with
  | some (code, item) => s.finish id .checkFailed (checkResult code item)
  | none =>
    let d := JobDesc.of bs nrect.toNat
    let nctx := (s.jobs.map (·.nctx)).foldl (· + ·) 0
    let nqp := (s.jobs.map (·.nqp)).foldl (· + ·) 0
    match firstFree (s.jobs.map (·.num)) 16 0, s.reserveGrants d with
    | some n, some gs =>
      if 1023 < nctx + d.nctx || 2047 < nqp + d.nqp then s.finish id .noRoom
      else
        let j : Job := ⟨n, d.nctx, d.nqp, d.rects, gs, d.hosts.map fun h => (mkKey 3 h.1, h.2)⟩
        ({ s with jobs := s.jobs ++ [j] } : State).finish id .ok (leBytes 1 n)
    | _, _ => s.finish id .noRoom

def execJobOpen (e : Env) (desc : U64) (nrect dlen : U16) (s : State) : Res :=
  command (.jobOpen e desc nrect dlen) e (checkJobOpen e desc nrect dlen) (fun _ => false)
    (startJobOpen e desc nrect dlen) s

/-! ### Destroying contexts (R218), JOB_CLOSE (R211) -/

/-- A commanded eviction or restore of the context is in progress. -/
def State.moveCommanded (s : State) (ctx : Nat) : Bool :=
  s.q.recs.any fun r => r.phase == .running && match r.xfer with
    | some (.evict x _) => x == ctx
    | some (.restore x) => x == ctx
    | _ => false

/-- Commands in progress that end with their context: weight commands, evictions, restores, verifications, a waiting
PREEMPT. -/
def State.ctxCommands (s : State) (c : Ctx) : List Nat :=
  c.wgt.map (·.cmd) ++ c.yield.map (·.1) ++ (c.mirror.bind (·.cmd)).toList ++
    (s.q.recs.filter fun r => r.phase == .running && match r.xfer with
      | some (.evict x _) => x == c.id
      | some (.restore x) => x == c.id
      | some (.verify x _) => x == c.id
      | _ => false).map (·.id)

/-- A context goes away: commands of it complete CANCELLED, a launched CFG_ACTIVATE among them (log 121); its configurations,
stores and spill shares, recorded ranges, staged state and adapters go with it, and its tiles. An eviction or restore of it,
commanded or begun by the firmware, has ended (R220). -/
def State.destroyCtx (s : State) (ctx : Nat) : State :=
  match s.ctx? ctx with
  | none => s
  | some c =>
    let waves := s.fab.waves.filter fun w => w.ctx == ctx
    let cmds := s.ctxCommands c ++ waves.map (·.cmd)
    let dropped := s.moves.filter fun m => m.ctx == ctx
    let s := s.cancelShards c
    let s1 : State := { s with
      ctxs := s.ctxs.filter fun x => x.id != ctx
      moves := s.moves.filter fun m => m.ctx != ctx
      fab := s.fab.dropCtx ctx c.uid
      mem := { s.mem with reserves := s.mem.reserves.filter fun r => r.ctx != ctx } }
    let s2 := s1.modLink fun l => { l with transfers := l.transfers.filter fun t => match t.kind with
      | .shard x _ => x != ctx
      | .mirror x => x != ctx
      | _ => true }
    let s3 := dropped.foldl State.moveOn (s2.finishAll (cmds.map fun i => (i, .cancelled, [])))
    if s.moveCommanded ctx then s3.rebalance c.job else s3

/-- Tear a context down and destroy it. -/
def State.destroyForced (s : State) (ctx : Nat) : State := (s.tearDown ctx .cancelled).destroyCtx ctx

def checkJobClose (job : Byte) : Option Status := firstFail [(job.toNat ≤ 15, .badParam)]

def startJobClose (job : Byte) (force : Bool) (id : Nat) (s : State) : State :=
  let n := job.toNat
  let mine := (s.ctxs.filter fun c => c.job == n).map (·.id)
  if (s.job? n).isNone then s.finish id .wrongState
  else if !force && !mine.isEmpty then s.finish id .wrongState
  else
    let s1 := mine.foldl State.destroyForced s
    let s2 : State := { s1 with
      jobs := s1.jobs.filter fun j => j.num != n
      mem := { s1.mem with allocs := s1.mem.allocs.filter fun a => a.job != n
                           reserves := s1.mem.reserves.filter fun r => r.job != n }
      q := { s1.q with pairs := s1.q.pairs.map fun p => if p.job == n then { p with job := 0xFF } else p } }
    s2.finish id .ok (leBytes 2 mine.length)

def execJobClose (e : Env) (job : Byte) (force : Bool) (s : State) : Res :=
  command (.jobClose e job force) e (fun _ => checkJobClose job) (fun _ => false) (startJobClose job force) s

/-! ### CTX_CREATE (R164, R165, R213, R214) -/

def Region.of (bs : List Byte) : Region :=
  let f := fieldAt bs 24 1
  ⟨fieldAt bs 0 8, keyOf (fieldAt bs 8 8), fieldAt bs 16 8, bit f 0, bit f 1, bit f 2⟩

def checkCtxCreate (e : Env) (job : Byte) (table : U64) (nregion : U16) (s : State) : Option Status :=
  let tableChecks := if nregion = 0 then [] else s.ptrChecks e table.toNat (32 * nregion.toNat)
  firstFail ((decide (job.toNat ≤ 15), Status.badParam) :: tableChecks ++ [(decide (nregion.toNat ≤ 64), Status.badParam)])

/-- Cores of an SRAM range. -/
def sramCores (k len : Nat) : List Nat :=
  let c0 := offOf k / sramBytes
  (List.range ((offOf k + len - 1) / sramBytes - c0 + 1)).map (c0 + ·)

/-- Checks of one region entry; `prev` are the entries before it. A region whose end passes 2^64 holds addresses that do not
exist: BAD_PARAM (DESIGN CHOICE, log 148). -/
def State.regionFail (s : State) (j : Job) (prev : List Region) (bs : List Byte) : Option Status :=
  let r := Region.of bs
  let sp := spaceOf r.target
  firstFail [(r.cbase % 256 == 0 && fieldAt bs 8 8 % 256 == 0 && r.length % 256 == 0, .badAlign),
    (fieldAt bs 24 1 / 8 == 0 && allZero (slice bs 25 7), .badParam),
    (256 ≤ r.length && r.length ≤ 2 ^ 48 && r.cbase + r.length ≤ 2 ^ 64, .badParam),
    (!(prev.any fun p => overlaps p.cbase p.length r.cbase r.length), .badParam),
    (s.ownGa (fieldAt bs 8 8) && [0, 1, 2, 3, 5].contains sp, .badParam),
    (sp != 5 || !(r.write || r.evict), .badParam),
    (if r.ownCore then offOf r.target % sramBytes + r.length ≤ sramBytes else s.rangeOk r.target r.length, .badParam),
    (!([0, 1, 3].contains sp) || s.mem.allocs.any fun a =>
      a.job == j.num && a.base ≤ r.target && r.target + r.length ≤ a.base + a.len, .badParam),
    (sp != 2 || r.ownCore || (sramCores r.target r.length).all fun c => j.rects.any (·.has c), .badParam)]

/-- The first failure of a table, in entry order. -/
def State.tableFail (s : State) (j : Job) : List Region → List (List Byte) → Option Status
  | _, [] => none
  | prev, b :: bs => match s.regionFail j prev b with
    | some st => some st
    | none => s.tableFail j (prev ++ [Region.of b]) bs

def Ctx.make (id uid job : Nat) (regions : List Region) (hostRouted pin resident : Bool) : Ctx :=
  { id, uid, job, regions, hostRouted, pinned := pin, resident, weight := .empty, shards := [], loadDigest := none,
    staged := [], stageDigest := none, adapters := [], maxVersions := [], wgt := [], verifying := false, epoch := 0,
    cfgs := [], prefetch := [], serving := none, mirror := none, yield := [], saved := [] }

def startCtxCreate (e : Env) (job : Byte) (table : U64) (nregion : U16) (hostRouted pin : Bool) (id : Nat) (s : State) :
    State :=
  match s.job? job.toNat with
  | none => s.finish id .wrongState
  | some j =>
    let n := nregion.toNat
    let k := s.keyAt e table.toNat (32 * n) true false
    let s := s.touch k (32 * n)
    let raw := (List.range n).map fun i => s.readBytes (k + 32 * i) 32
    match s.tableFail j [] raw with
    | some st => s.finish id st
    | none =>
      let mine := (s.ctxs.filter fun c => c.job == j.num).length
      if j.nctx ≤ mine then s.finish id .noRoom
      else match s.choose ((List.range 1023).filter fun i => (s.ctx? i).isNone) with
        | (some c, s1) =>
          let new := Ctx.make c s1.mem.nextUid j.num (raw.map Region.of) hostRouted pin true
          let new := { new with resident := (s1.rivals new).isEmpty }
          ({ s1 with ctxs := s1.ctxs ++ [new], mem := { s1.mem with nextUid := s1.mem.nextUid + 1 } } : State).finish id .ok
            (leBytes 2 c)
        | (none, s1) => s1.finish id .noRoom

def execCtxCreate (e : Env) (job : Byte) (table : U64) (nregion : U16) (hostRouted pin : Bool) (s : State) : Res :=
  command (.ctxCreate e job table nregion hostRouted pin) e (checkCtxCreate e job table nregion) (fun _ => false)
    (startCtxCreate e job table nregion hostRouted pin) s

/-! ### CTX_DESTROY, CTX_PIN -/

/-- Why CTX_DESTROY without FORCE is refused (R218); an invocation that waits for its cores counts (log 34). -/
def State.ctxBusy (s : State) (c : Ctx) : Bool :=
  c.isServing || (s.fab.invs.any fun i => i.ctx == c.id) || !c.wgt.isEmpty || c.verifying

def startCtxDestroy (e : Env) (force : Bool) (id : Nat) (s : State) : State :=
  match s.ctx? e.ctx.toNat with
  | none => s.finish id .badContext
  | some c =>
    if !force && s.ctxBusy c then s.finish id .wrongState
    else if force then (s.destroyForced c.id).finish id .ok
    else (s.destroyCtx c.id).finish id .ok

def execCtxDestroy (e : Env) (force : Bool) (s : State) : Res :=
  command (.ctxDestroy e force) e (fun _ => none) (fun _ => false) (startCtxDestroy e force) s

def startCtxPin (e : Env) (op : Byte) (id : Nat) (s : State) : State :=
  match s.ctx? e.ctx.toNat with
  | none => s.finish id .badContext
  | some c => (s.modCtx c.id fun d => { d with pinned := op == 1 }).finish id .ok [if c.pinned then 1 else 0]

def checkCtxPin (op : Byte) (_s : State) : Option Status :=
  firstFail [(op.toNat ≤ 1, .badParam)]

def execCtxPin (e : Env) (op : Byte) (s : State) : Res :=
  command (.ctxPin e op) e (checkCtxPin op) (fun _ => false) (startCtxPin e op) s

/-! ### CTX_EVICT, CTX_RESTORE (R184, R214, R285) -/

def startCtxEvict (e : Env) (space : Byte) (id : Nat) (s : State) : State :=
  match s.ctx? e.ctx.toNat with
  | none => s.finish id .badContext
  | some c => match s.evictRefusal c space.toNat true with
    | some st => s.finish id st
    | none =>
      if s.evictFails c space.toNat then s.finish id .hwFault
      else s.modRec id fun r => { r with xfer := some (.evict c.id space.toNat) }

def checkCtxEvict (space : Byte) (_s : State) : Option Status :=
  firstFail [(space == 1 || space == 3, .badParam)]

def execCtxEvict (e : Env) (space : Byte) (s : State) : Res :=
  command (.ctxEvict e space) e (checkCtxEvict space) (fun _ => false)
    (startCtxEvict e space) s

/-- Pieces of which a part may have been written, by destination and length: their contents are free (log 109). -/
def State.halfMoved (s : State) (ps : List (Nat × Nat)) : State := ps.foldl (fun s p => s.scribble p.1 p.2) s

/-- The eviction ends; where a Mandoline instance it needs has failed meanwhile the context stays resident. -/
def State.endEvict (s : State) (id ctx space : Nat) : State :=
  match s.ctx? ctx with
  | some c =>
    if s.evictFails c space then
      let out := ((c.evictRegion space).map fun r => (s.evictPieces c space r.target).1).getD []
      ((s.halfMoved (out.map fun p => (p.at_, p.stored))).finish id .hwFault).rebalance c.job
    else
      let (s1, n) := s.evict c space
      (s1.finish id .ok (leBytes 8 n)).rebalance c.job
  | none => s.finish id .cancelled

/-- A configuration of the descriptor no longer fits the grid (R10, R212; log 97). -/
def Ctx.srvStale (c : Ctx) (d : SrvDesc) : Bool := c.cfgs.any fun g => (g.handle == d.dec || g.handle == d.pre) && g.stale

/-- A takeover of R285: LOADED, no live request, a committed image. -/
def State.takeover? (s : State) (c : Ctx) : Option (Serving × Nat) :=
  if c.weight == .loaded && ((c.serving.map (·.reqs)).getD []).isEmpty then s.mirrorImage? c else none

/-- Why a restore cannot take place: a Mandoline instance it needs has failed, or the image's configurations no longer fit the
grid, which ends it as CFG_ACTIVATE would end (log 97). -/
def State.restoreFails (s : State) (c : Ctx) (v? : Option Serving) : Option (Status × List Byte) :=
  if !c.resident && s.packFails false c.toRestore then some (.hwFault, [])
  else match v? with
    | some v =>
      if c.srvStale v.desc then some (.checkFailed, checkResult 0x0003 0)
      else if s.packFails false (s.mirrorPages c v) then some (.hwFault, [])
      else none
    | none => none

def startCtxRestore (e : Env) (id : Nat) (s0 : State) : State :=
  match s0.ctx? e.ctx.toNat with
  | none => s0.finish id .badContext
  | some c =>
    let s := s0.touchAll c.mirrorReads
    let v? := s.takeover? c
    if s.moving c.id || (c.resident && v?.isNone) then s.finish id .wrongState
    else if !c.resident && !(s.rivals c).isEmpty then s.finish id .noRoom
    else match s.restoreFails c (v?.map (·.1)) with
      | some (st, res) => s.finish id st res
      | none => s.modRec id fun r => { r with xfer := some (.restore c.id) }

def execCtxRestore (e : Env) (s : State) : Res :=
  command (.ctxRestore e) e (fun _ => none) (fun _ => false) (startCtxRestore e) s

/-- DEC and PRE become active on their cores without a wavefront; band cores run DEC where rows are lent (R223, R225). -/
def Ctx.activateServing (c : Ctx) (v : Serving) : Ctx :=
  let lent := fun (x : Nat) => coreRow x < 8 + v.eN || 72 - v.eS ≤ coreRow x
  let both := (c.cfgs.filter fun g => g.handle == v.desc.dec || g.handle == v.desc.pre).flatMap fun g => g.image.cores
  { c with cfgs := c.cfgs.map fun g =>
      if g.handle == v.desc.dec then { g with active := g.image.cores.filter lent }
      else if g.handle == v.desc.pre then { g with active := g.image.cores.filter fun x => !lent x }
      else if g.active.any both.contains then { g with active := [] } else g }

/-- The writes of an eviction reversed, and behind them a committed image taken over. -/
def State.takeBack (s : State) (c : Ctx) (v? : Option (Serving × Nat)) : State × Nat :=
  let (s1, n) := if c.resident then (s, 0) else s.restore c
  match v? with
  | some (v, step) =>
    let (s2, m) := s1.restoreMirror c v step
    (s2.modCtx c.id fun d => d.activateServing v, n + m)
  | none => (s1, n)

/-- The restore ends; where it can no longer take place, what it may have written is free. -/
def State.endRestore (s0 : State) (id ctx : Nat) : State :=
  match s0.ctx? ctx with
  | some c =>
    let s1 := s0.touchAll c.mirrorReads
    let v? := s1.takeover? c
    let s := match v? with
      | some (v, _) => s1.touchAll (s1.mirrorRestoreReads c v)
      | none => s1
    match s.restoreFails c (v?.map (·.1)) with
    | some (st, res) =>
      let home := (if c.resident then [] else c.toRestore) ++ ((v?.map fun v => s.mirrorPages c v.1).getD [])
      ((s.halfMoved (home.map fun p => (p.home, p.len))).finish id st res).rebalance c.job
    | none =>
      if c.resident && v?.isNone then (s.finish id .wrongState)
      else
        let (s2, n) := s.takeBack c v?
        (s2.finish id .ok (leBytes 8 n)).rebalance c.job
  | none => s0.finish id .cancelled

/-! ### Firmware evictions and restores (R220, R221) -/

/-- What a firmware move reads. -/
def State.moveReads (s : State) (m : Move) (c : Ctx) : List (Nat × Nat) :=
  if m.evict then ((c.evictRegion 1).map fun r => (s.evictPieces c 1 r.target).1.map fun p => (p.home, p.len)).getD []
  else c.toRestore.map fun p => (p.at_, p.stored)

/-- A firmware move whose Mandoline instance has failed moves nothing whole: an eviction is refused (event 0x0012), and what
either may have written is free (log 109). -/
def State.moveFails (s : State) (m : Move) (c : Ctx) : State :=
  if m.evict then
    let out := ((c.evictRegion 1).map fun r => (s.evictPieces c 1 r.target).1).getD []
    let s1 := s.halfMoved (out.map fun p => (p.at_, p.stored))
    match s1.ctx? m.forCtx with
    | some r => s1.blockedEvent r c 4
    | none => s1
  else s.halfMoved (c.toRestore.map fun p => (p.home, p.len))

/-- A firmware eviction or restore ends with its job event (R220, R221); what it read has been checked. -/
def execEvictionOrRestoreEnd (job : Nat) (s : State) : Res :=
  match s.moves.find? fun m => m.job == job with
  | none => .next s
  | some m =>
    let s1 := { s with moves := s.moves.filter fun x => x.job != job }
    match s1.ctx? m.ctx with
    | none => s.when s.running (s1.moveOn m)
    | some c0 =>
      let s1 := s1.touchAll (s1.moveReads m c0)
      let c := (s1.ctx? m.ctx).getD c0
      if (if m.evict then s1.evictFails c 1 else s1.packFails false c.toRestore) then
        s.when s.running ((s1.moveFails m c).rebalance job)
      else
        let (s2, n) := if m.evict then s1.evict c 1 else s1.restore c
        let s3 := s2.event (srcJob job) (if m.evict then 0x0010 else 0x0011) (leBytes 2 c.id ++ zeros 6 ++ leBytes 8 n)
        s.when s.running ((s3.trace 9 c.id (leBytes 1 (if m.evict then 0 else 1) ++ zeros 7 ++ leBytes 8 n)).moveOn m)

end Sys2Proof.Machine
end

