-- ==== Sys2Proof/Machine/LoadStreams.lean ====
section
/-! DEFINITION. Steps 4 to 6 of the loader's checks: streams, rails, arguments (05_fabric.md R103-R111; R90; R68), and
the reservations of stage 7 of CFG_LOAD (R119, R209, R215). -/

namespace Sys2Proof.Machine

/-! ### Step 4: streams (code 0x0040) -/

/-- Destination cores and queue a stream feeds. -/
def Image.feeds (im : Image) (t : StreamEnt) : List (Nat × Nat) :=
  match t.kind with
  | 0 => t.routes.map fun r => (r.dstEp, t.dstQ)
  | 2 => match im.station? t.dst with
    | some d => d.rect.cores.map fun c => (c, t.dstQ)
    | none => []
  | _ => []

/-- Source cores and queue a stream draws from. -/
def StreamEnt.draws (t : StreamEnt) : List (Nat × Nat) := if t.kind = 1 then [] else t.routes.map fun r => (r.src, t.srcQ)

def nodupPairs (l : List (Nat × Nat)) : Bool := l.eraseDups.length == l.length

/-- The fields of an entry (Table 5.2). -/
def StreamEnt.fieldsOk (t : StreamEnt) (a : Array Byte) (o base length : Nat) : Bool :=
  let w := fa a (o + 1) 1
  let n := fa a (o + 12) 4
  t.kind ≤ 2 && w < 32 && (w == 0 || (10 ≤ w && w ≤ 20)) && fa a (o + 4) 1 < 4 && fa a (o + 5) 1 < 4 &&
    fa a (o + 8) 4 % 16 == 0 && 1 ≤ n && n ≤ 25600 && (t.kind != 2 || n == 1) && base + fa a (o + 8) 4 + 16 * n ≤ length &&
    zeroAt a (o + 19) 13 && fa a (o + 16) 2 < 2 ^ 15 && fa a (o + 18) 1 < 16 &&
    (if t.kind = 2 then 1 ≤ t.treeK && t.treeK ≤ 14 else t.treeSlots == 0 && t.treeK == 0) &&
    (t.kind != 1 || (fa a (o + 6) 2 == 0xFFFF && t.dstQ ≤ 1))

/-- Queues and engines agree with the stations (R73, R103, R105); `earlier` are the streams before. A memory
route names an engine that runs a stream program: one of an engine with a routing program or with none is refused, and the
SCORES rows of a routing engine are held against no endpoint (DESIGN CHOICE, log 144). -/
def Image.bindingsOk (im : Image) (t : StreamEnt) (earlier : List StreamEnt) : Bool :=
  match im.station? t.src with
  | none => false
  | some so =>
    if t.kind = 1 then
      match im.streamProg? (so.streamProg.getD t.srcQ 0xFFFF) with
      | none => false
      | some ws => (t.dstQ == 0 || hasMode2 ws) &&
          !(earlier.any fun u => u.kind == 1 && u.src == t.src && u.srcQ == t.srcQ && u.dst == t.dst)
    else match im.station? t.dst with
      | none => false
      | some d => qBind (so.oq t.srcQ) == 1 && qBind (d.iq t.dstQ) == 1 && so.oq t.srcQ % 64 == d.iq t.dstQ % 64

/-- The fields of a record (Table 5.3); `o` its image offset. -/
def Image.recordOk (im : Image) (t : StreamEnt) (r : RouteRec) (a : Array Byte) (o : Nat) (g : Grid) : Bool :=
  let wpOk := fun (w : Option (Nat × Nat)) => match w with
    | some (row, col) => row < 80 && col < im.width
    | none => true
  match im.station? t.src with
  | none => false
  | some so =>
    so.rect.has r.src && match t.kind with
    | 2 => zeroAt a (o + 4) 12
    | k =>
      fa a (o + 8) 2 < 2 ^ 15 && fa a (o + 10) 1 < 2 && zeroAt a (o + 11) 1 && wpOk r.wp1 && wpOk r.wp2 &&
        if k = 0 then (match im.station? t.dst with
          | some d => d.rect.has r.dstEp
          | none => false)
        else
          let e := Endp.of r.dstEp
          bits r.dstEp 31 30 == 1 && bits r.dstEp 27 10 == 0 && match e.port with
          | 0 => e.pos < g.width
          | 1 => e.pos < 80
          | 2 => e.edge == 0 && e.pos == 0 && isRim r.src && r.slots == 0 && !r.vert && r.wp1.isNone && r.wp2.isNone
          | _ => false

/-- R110 for one route. -/
def RouteRec.slotsOk (r : RouteRec) (mem : Bool) (g : Grid) (part : List Rect) : Bool :=
  let e := Endp.of r.dstEp
  let hops := r.hops mem g.width
  if mem && e.port == 2 then true
  else if hops.all (hopInside part) && (!mem || part.any (·.has (coreIx (e.router g.width).1 (e.router g.width).2))) then
    0 < r.slots && r.slots < 2 ^ 14
  else r.slots == 2 ^ 14

/-- Accesses of an engine of a core through a role (R105): an engine without a mode-2 RUN has one role. -/
def Image.roleAccs (im : Image) (c : Ctx) (station core eng role : Nat) : List Access :=
  match im.station? station with
  | none => []
  | some st => match im.streamProg? (st.streamProg.getD eng 0xFFFF) with
    | none => []
    | some ws =>
      let accs := (im.traceOf st c core eng ws).accs
      if hasMode2 ws then accs.filter fun x => x.1 == (role == 1) else if role = 0 then accs else []

/-- A stream's check (R111). Two holds of one slot, direction and hop refuse it within one route too (DEDUCED, log 145). -/
def Image.streamOk (im : Image) (a : Array Byte) (base length i : Nat) (c : Ctx) (g : Grid) (part : List Rect) : Bool :=
  match im.streams[i]? with
  | none => true
  | some t =>
    let o := base + 32 * i
    let earlier := im.streams.take i
    let mine := t.holds i g.width
    let before := (earlier.mapIdx fun k u => u.holds k g.width).flatten
    t.fieldsOk a o base length && im.bindingsOk t earlier &&
      ((List.range t.routes.length).all fun k =>
        let r := t.routes.getD k ⟨0, 0, 0, false, none, none⟩
        im.recordOk t r a (base + fa a (o + 8) 4 + 16 * k) g && (t.kind == 2 || r.slotsOk (t.kind == 1) g part) &&
          (t.kind != 1 || (im.roleAccs c t.src r.src t.srcQ t.dst).all fun x =>
            g.behind (Endp.of r.dstEp) r.src x.2.1 x.2.2.1)) &&
      nodupPairs (t.routes.map fun r => (r.src, 0)) && nodupPairs (im.feeds t) &&
      !((im.feeds t).any fun f => earlier.any fun u => (im.feeds u).contains f) &&
      !(t.draws.any fun d => earlier.any fun u => u.draws.contains d) &&
      (mine.map fun h => (h.src, h.dst, h.slot)).eraseDups.length == mine.length &&
      !(mine.any fun h => before.any h.clash) &&
      (t.kind != 2 || match im.station? t.dst, t.routes.head? with
        | some d, some r => (treeHops r.src d.rect).all (hopInside part)
        | _, _ => false)

/-- Accesses beyond the own SRAM of engines that no memory route names, through the bay lane: the first that does not lie
behind it. -/
def Image.bayFail (im : Image) (c : Ctx) (g : Grid) : Option Bad :=
  (List.range im.stations.length).findSome? fun k => match im.station? k with
    | none => none
    | some st => (List.range 4).findSome? fun e => [0, 1].findSome? fun role =>
        let routed := ((im.streams.filter fun t => t.kind == 1 && t.src == k && t.srcQ == e && t.dst == role).flatMap
          (·.routes)).map (·.src)
        (st.rect.cores.filter fun x => !routed.contains x).findSome? fun core =>
          ((im.roleAccs c k core e role).find? fun x => !g.behind bayLane core x.2.1 x.2.2.1).map fun x =>
            (0x0040, im.streams.length + 256 * st.streamProg.getD e 0 + x.2.2.2)

/-! ### Steps 5 and 6 -/

/-- An entry of the rail table (R90). Bytes 5 to 7, which R90 does not list, must be zero (log 95, DESIGN CHOICE). -/
def Image.railOk (im : Image) (a : Array Byte) (o i : Nat) : Bool :=
  match im.rails[i]? with
  | none => true
  | some r =>
    im.cores.contains r.core && r.slot ≤ 3 && zeroAt a (o + 5) 3 && 1 ≤ r.inc && zeroAt a (o + 14) 2 &&
      !((im.rails.take i).any fun x => x.core == r.core && x.slot == r.slot)

/-- An entry of the argument table (R68). Its reserved bytes 6 and 7 are judged under code 0x0051, the only one of its table
(log 94, DESIGN CHOICE). -/
def Image.argOk (im : Image) (a : Array Byte) (o i : Nat) : Bool :=
  match im.args[i]? with
  | none => true
  | some x => x.1 < im.pool.length && zeroAt a (o + 6) 2

/-! ### All checks (R97) -/

/-- The image of a byte string, or the first failed check. -/
def State.loadImage (s : State) (c : Ctx) (bytes : List Byte) (cmdLen : Nat) : Except Bad Image :=
  let a := bytes.toArray
  let h := Hdr.of a
  let part := ((s.job? c.job).map (·.rects)).getD []
  match h.fail a cmdLen s.grid.width, h.programs a with
  | some b, _ => .error b
  | none, none => .error (0x0001, 32)
  | none, some ps =>
    let im := h.image a ps
    let offs := ps.map (·.2)
    let g := s.grid
    match
      ((List.range h.nstation).findSome? fun i => im.stationFail a (h.offStation + 64 * i) i g.width part) <|>
      (im.stations.findSome? fun st => im.programsFail a offs st c s.ownChip) <|>
      ((List.range h.nstream).findSome? fun i =>
        codes i [(im.streamOk a h.offStream h.length i c g part, 0x0040)]) <|>
      im.bayFail c g <|>
      ((List.range h.nrail).findSome? fun i => codes i [(im.railOk a (h.offRail + 16 * i) i, 0x0050)]) <|>
      ((List.range h.narg).findSome? fun i => codes i [(im.argOk a (h.offArg + 8 * i) i, 0x0051)]) with
    | some b => .error b
    | none => .ok im

/-! ### Stage 7: reservations (R119, R209, R215) -/

/-- The highest free extent below `stop`. -/
def fitDown (taken : List (Nat × Nat)) (size base : Nat) : Nat → Nat → Option Nat
  | 0, _ => none
  | fuel + 1, stop =>
    if stop < base + size then none
    else
      let p := (stop - size) / 4096 * 4096
      if p < base then none
      else match taken.find? fun t => overlaps p size t.1 t.2 with
        | some t => fitDown taken size base fuel (min t.1 (stop - 1))
        | none => some p

/-- One reservation of `size` bytes in an edge group of a job. -/
def State.reserve (s : State) (j : Job) (ctx handle kind group size : Nat) : Option State :=
  let taken := s.mem.taken j.num
  let grants := j.grants.filter fun g => spaceOf g.1 == 0 && hbmGroup (offOf g.1) == group
  (grants.findSome? fun g => fitDown taken size g.1 (taken.length + 1) (g.1 + g.2)).map fun k =>
    s.modMem fun m => { m with reserves := m.reserves ++ [⟨j.num, ctx, handle, kind, k, size⟩] }

/-- Spill shares (64 KiB a core, kind 1) and configuration stores (4 KiB a core, kind 0). The shares of the cores of one edge
group lie in one extent, as do their stores (log 114). -/
def State.reserveCfg (s : State) (j : Job) (ctx handle : Nat) (im : Image) : Option State :=
  (List.range 8).foldl (fun acc g =>
    let n := (im.cores.filter fun c => s.grid.groupOf c == g).length
    if n = 0 then acc
    else (acc.bind fun t => t.reserve j ctx handle 1 g (65536 * n)).bind fun t => t.reserve j ctx handle 0 g (4096 * n))
    (some s)

end Sys2Proof.Machine
end

