-- ==== Sys2Proof/Machine/CfgCmds.lean ====
section
/-! DEFINITION. Configurations and their invocation: CFG_LOAD, CFG_CHECK, CFG_UNLOAD (04_stations_and_streams.md R66, R97,
R98), CFG_ACTIVATE and the wavefront (05_fabric.md R122-R127), trees rebuilt as chains (R116), INVOKE, INVOKE_LIST and
PREEMPT (R94, R95; 09_serving.md R217, R239). -/

namespace Sys2Proof.Machine

/-! ### CFG_LOAD, CFG_CHECK -/

def checkImage (e : Env) (image : U64) (len : U32) (s : State) : Option Status :=
  firstFail (s.ptrChecks e image.toNat len.toNat)

/-- What stage 7 gives: slots, chains; or why not. Of several failures, a third configuration on a core comes first, then
slots, then the reservation (log 93, DESIGN CHOICE). -/
def State.stage7 (s : State) (c : Ctx) (im : Image) : Except Status (List SlotHold × List Nat) :=
  let third := im.cores.any fun x => 2 ≤ (c.cfgs.filter fun g => g.image.cores.contains x).length
  if third then .error .noRoom
  else match s.job? c.job with
    | none => .error .wrongState
    | some j => match s.allotSlots c.job im j.rects with
      | none => .error .noSlots
      | some hs => if (s.reserveCfg j c.id 0 im).isSome then .ok hs else .error .noRoom

/-- The epoch CFG_LOAD assigns (R122). -/
def nextEpoch (e : Nat) : Nat := let n := (e + 1) % 65536; if n = 0 then 1 else n

/-- Handles no loaded configuration of the context has; 0xFFFF names every configuration in a prefetch entry. -/
def Ctx.freeHandles (c : Ctx) : List Nat := (List.range 65535).filter fun h => !(c.cfgs.any fun g => g.handle == h)

/-- Load an image: slots, store and spill share are held, the store's bytes are written, the configuration is standby on
its cores. -/
def State.loadCfg (s : State) (c : Ctx) (im : Image) (holds : List SlotHold) (chains : List Nat) (id : Nat) : State :=
  let epoch := nextEpoch c.epoch
  match s.choose c.freeHandles, s.job? c.job with
  | (some h, s1), some j =>
    match s1.reserveCfg j c.id h im with
    | some s2 =>
      let stores := s2.mem.reserves.filter fun r => r.ctx == c.id && r.handle == h && r.kind == 0
      let s3 := im.cores.foldl (fun s x => s.managerPacket 4 x) (stores.foldl (fun s r => s.scribble r.base r.len) s2)
      (s3.modCtx c.id fun c => { c with
          epoch := epoch
          cfgs := c.cfgs ++ [⟨h, epoch, im, [], holds, chains, [], [], false⟩] }).finish id (if chains.isEmpty then .ok else .okDegraded)
        (leBytes 2 h ++ leBytes 2 epoch)
    | none => s1.finish id .noRoom
  | (_, s1), _ => s1.finish id .noRoom

/-- Image checks and stage 7, then `done`. -/
def State.withImage (s0 : State) (e : Env) (image len id : Nat)
    (done : Ctx → Image → List SlotHold → List Nat → State → State) : State :=
  let k := s0.keyAt e image len true false
  let s := s0.touch k len
  match s.ctx? e.ctx.toNat with
  | none => s.finish id .badContext
  | some c =>
    match s.loadImage c (s.readBytes k len) len with
    | .error (code, item) => s.finish id .checkFailed (checkResult code item)
    | .ok im => match s.stage7 c im with
      | .error st => s.finish id st
      | .ok (holds, chains) => done c im holds chains s

def startCfgLoad (e : Env) (image : U64) (len : U32) (id : Nat) (s : State) : State :=
  if !((s.ctx? e.ctx.toNat).any (·.resident)) || s.moving e.ctx.toNat then s.finish id .wrongState
  else s.withImage e image.toNat len.toNat id fun c im holds chains s => s.loadCfg c im holds chains id

def execCfgLoad (e : Env) (image : U64) (len : U32) (s : State) : Res :=
  command (.cfgLoad e image len) e (checkImage e image len) (fun _ => len == 0) (startCfgLoad e image len) s

def startCfgCheck (e : Env) (image : U64) (len : U32) (id : Nat) (s : State) : State :=
  if !((s.ctx? e.ctx.toNat).any (·.resident)) || s.moving e.ctx.toNat then s.finish id .wrongState
  else s.withImage e image.toNat len.toNat id fun _ _ _ chains s => s.finish id (if chains.isEmpty then .ok else .okDegraded)

def execCfgCheck (e : Env) (image : U64) (len : U32) (s : State) : Res :=
  command (.cfgCheck e image len) e (checkImage e image len) (fun _ => len == 0) (startCfgCheck e image len) s

/-! ### CFG_UNLOAD -/

/-- A handle that something uses: an invocation, a wavefront, a serving context's step. -/
def State.cfgInUse (s : State) (c : Ctx) (handle : Nat) : Bool :=
  (s.fab.invs.any fun i => i.ctx == c.id && i.handle == handle) ||
    (s.fab.waves.any fun w => w.ctx == c.id && (w.handle == handle || w.displaced.contains handle)) ||
    (c.isServing && c.serving.any fun v => v.desc.dec == handle || v.desc.pre == handle)

def State.unloadCfg (s : State) (ctx handle : Nat) : State :=
  ((s.modCtx ctx fun c => { c with cfgs := c.cfgs.filter fun g => g.handle != handle }).modMem fun m =>
    { m with reserves := m.reserves.filter fun r => !(r.ctx == ctx && r.handle == handle) }).modFab fun f =>
    { f with chans := f.chans.filter fun h => !(h.id.ctx == ctx && h.id.handle == handle) }

def startCfgUnload (e : Env) (handle : U16) (id : Nat) (s : State) : State :=
  match s.ctx? e.ctx.toNat with
  | none => s.finish id .badContext
  | some c =>
    if !c.resident || s.moving c.id || (s.cfg? c.id handle.toNat).isNone || s.cfgInUse c handle.toNat then
      s.finish id .wrongState
    else (s.unloadCfg c.id handle.toNat).finish id .ok

def execCfgUnload (e : Env) (handle : U16) (s : State) : Res :=
  command (.cfgUnload e handle) e (fun _ => none) (fun _ => false) (startCfgUnload e handle) s

/-! ### A core that holds a configuration without running an invocation -/

/-- A core whose occupant changes reads the context's store; a poisoned word there is seen by the context's invocations that run
(R216; log 136). -/
def State.loadStore (s : State) (c : Ctx) (core : Nat) : State :=
  if s.otherHolds c core then
    let rs := s.storeReads c core
    let s1 := s.touchAll rs
    if rs.any fun r => s1.poisonedIn r.1 r.2 then s1.modFab fun f => { f with invs := f.invs.map fun i =>
      if i.ctx == c.id && i.phase == .running then { i with poisonSeen := true } else i } else s1
  else s

/-- The swap of a core that enters no invocation: the store is read, and its SRAM below the Drip tray zeroed (R216). -/
def State.swapCore (s : State) (c : Ctx) (g : Cfg) (core : Nat) : State :=
  if s.otherHolds c core then (s.loadStore c core).zeroRange (sramKey core) (sramBytes - 1024 * g.image.dripKib) else s

/-- Put a core state in place of the core's present one. -/
def State.setCore (s : State) (x : Core) : State :=
  s.modFab fun f => { f with cores := (f.cores.filter fun y => y.idx != x.idx) ++ [x] }

/-- The core as it stands in a configuration outside any invocation. -/
def State.idleCore (s : State) (c : Ctx) (g : Cfg) (core : Nat) : Core :=
  Core.fresh core (some c.uid) g.handle g.epoch none ((g.image.stationOf core).getD 0) []
    (((s.core? core).map (·.ticketNos)).getD [])

def Core.holds (x : Core) (c : Ctx) (g : Cfg) : Bool := x.occupant == some c.uid && x.handle == g.handle && x.epoch == g.epoch

/-- Make a core hold a configuration, if no invocation of another context runs on it. -/
def State.hold (s : State) (c : Ctx) (g : Cfg) (core : Nat) : Option State :=
  match s.core? core with
  | some x =>
    if x.holds c g then some s
    else if x.inv.isSome then none
    else some ((s.swapCore c g core).setCore (s.idleCore c g core))
  | none => some (s.setCore (s.idleCore c g core))

/-! ### CFG_ACTIVATE (R123, R127) -/

/-- Configurations of the context active on a core of another. -/
def Ctx.displacedBy (c : Ctx) (g : Cfg) : List Cfg :=
  c.cfgs.filter fun d => d.handle != g.handle && d.active.any g.image.cores.contains

/-- Cores of a region: the configuration's, then those of the displaced ones. -/
def regionOf (g : Cfg) (ds : List Cfg) : List Nat := (g.image.cores ++ ds.flatMap (·.image.cores)).eraseDups

/-- A core outside the new configuration would end with two standby configurations. -/
def Ctx.twoStandby (c : Ctx) (g : Cfg) (ds : List Cfg) : Bool :=
  ((regionOf g ds).filter fun x => !g.image.cores.contains x).any fun x =>
    2 ≤ (c.cfgs.filter fun d => d.image.cores.contains x).length

/-- Why CFG_ACTIVATE is refused, with its result bytes. A configuration loaded before a retirement that changed its job
fails R1 as an image does: CHECK_FAILED with code 0x0003 (00_scope.md R1, 09_serving.md R212; log 97, DESIGN CHOICE). -/
def State.activateRefusal (s : State) (c : Ctx) (handle : Nat) : Option (Status × List Byte) :=
  match s.cfg? c.id handle with
  | none => some (.wrongState, [])
  | some g =>
    let jobOf := fun (w : Wave) => (s.ctx? w.ctx).map (·.job)
    if !c.resident || s.moving c.id || !g.active.isEmpty || (s.fab.waves.any fun w => jobOf w == some c.job) then some (.wrongState, [])
    else if g.stale then some (.checkFailed, checkResult 0x0003 0)
    else if c.twoStandby g (c.displacedBy g) then some (.noRoom, [])
    else none

/-- Channels of a configuration that has none yet. -/
def State.ensureChans (s : State) (ctx : Nat) (g : Cfg) : State :=
  if s.fab.chans.any fun h => h.id.ctx == ctx && h.id.handle == g.handle then s
  else s.modFab fun f => { f with chans := f.chans ++ g.channels ctx fun _ => true }

def startCfgActivate (e : Env) (handle : U16) (id : Nat) (s : State) : State :=
  match s.ctx? e.ctx.toNat with
  | none => s.finish id .badContext
  | some c => match s.activateRefusal c handle.toNat, s.cfg? c.id handle.toNat with
    | some (st, bytes), _ => s.finish id st bytes
    | none, none => s.finish id .wrongState
    | none, some g =>
      let ds := c.displacedBy g
      let s1 := s.modFab fun f => { f with
        waves := f.waves ++ [⟨id, c.id, g.handle, ds.map (·.handle), regionOf g ds, []⟩] }
      ds.foldl (fun s d => d.active.foldl (fun s x => (s.hold c d x).getD s) (s.ensureChans c.id d)) s1

def execCfgActivate (e : Env) (handle : U16) (s : State) : Res :=
  command (.cfgActivate e handle) e (fun _ => none) (fun _ => false) (startCfgActivate e handle) s

/-! ### Switching (R124-R126) -/

/-- The wavefront whose region holds a core that has not switched. -/
def State.waveOf (s : State) (core : Nat) : Option Wave :=
  s.fab.waves.find? fun w => w.region.contains core && !w.switched.contains core

/-- The displaced configuration that is active on a core. -/
def State.oldCfg (s : State) (w : Wave) (core : Nat) : Option Cfg :=
  (s.ctx? w.ctx).bind fun c => c.cfgs.find? fun d => w.displaced.contains d.handle && d.active.contains core

/-- Queues of a station that are bound to a stream: input and output. -/
def Station.streamIqs (st : Station) : List Nat := (List.range 4).filter fun q => qBind (st.iq q) == 1
def Station.streamOqs (st : Station) : List Nat := (List.range 4).filter fun q => qBind (st.oq q) == 1

/-- A region core is a source (R124). -/
def sourceIn (d : Option Cfg) (core : Nat) : Bool :=
  match d with
  | none => true
  | some g => match (g.image.stationOf core).bind g.image.station? with
    | some st => st.streamIqs.isEmpty
    | none => true

/-- A fence on an output queue (R122): SEQ 0, the new epoch in EPOCH, the old one in AUX. -/
def fenceTile (ctx newEpoch oldEpoch stream b : Nat) : Tile :=
  (⟨⟨2, qFmt b, qSch b, false, false, false, 0, 0, newEpoch, stream, 0, 0, 0, 0, oldEpoch, ctx, 0⟩, [], []⟩ : Tile).sealed

/-- The core with a fence behind the last tile of each output queue from which a stream leaves it; none while such a queue is
full. -/
def Core.sendFences (x : Core) (st : Station) (im : Image) (ctx newEpoch : Nat) : Option Core :=
  let qs := st.streamOqs.filter fun q => (im.streamFrom? x.idx q).isSome
  if qs.all fun q => (x.oqs.getD q []).length < qCap (st.oq q) then
    some { x with
      fenceSent := true
      oqs := x.oqs.mapIdx fun q ts => if qs.contains q then
        ts ++ [fenceTile ctx newEpoch x.epoch (im.streamFrom x.idx q) (st.oq q)] else ts }
  else none

/-- A program holds a RUN that writes memory (R81). -/
def writeMode (im : Image) (p : Nat) : Bool := match im.streamProg? p with
  | some ws => ws.any fun w => siOp w.toNat == 9 && (siMode w.toNat == 1 || siMode w.toNat == 2)
  | none => false

/-- Output queues and their spill queues are empty, every tile of a chain has gone on to the next link (R115), and the
write-mode engines have finished. -/
def State.coreDrained (s : State) (x : Core) (st : Station) (im : Image) : Bool :=
  (st.streamIqs.all fun q => (s.inChan x q).all fun h => (s.onward h).all fun l => l.fwd.isEmpty) &&
  (st.streamOqs.all fun q => (x.oqs.getD q []).isEmpty && (s.outChans x q).all fun h => h.drip.isEmpty && h.hbm.isEmpty) &&
    x.engines.all fun e => e.ended || !writeMode im e.prog

/-- Every core of a region has switched: the configuration is active, the displaced ones standby, and the command
completes with the new epoch. -/
def State.endWave (s : State) (w : Wave) : State :=
  let epoch := ((s.cfg? w.ctx w.handle).map (·.epoch)).getD 0
  let upd := fun (g : Cfg) =>
    if g.handle == w.handle then { g with active := g.image.cores }
    else if w.displaced.any (· == g.handle) then { g with active := [] } else g
  let s1 := s.modCtx w.ctx fun c => { c with cfgs := c.cfgs.map upd }
  (s1.modFab fun f => { f with waves := f.waves.filter fun x => x.cmd != w.cmd }).finish w.cmd .ok (leBytes 2 epoch)

/-- The core switches: to the new configuration, inside its running invocation if there is one, or to idle. -/
def State.switchCore (s : State) (w : Wave) (c : Ctx) (g : Cfg) (core : Nat) : State :=
  let running := s.fab.invs.find? fun i => i.phase == .running && i.ctx == c.id && i.handle == g.handle
  let s0 := if g.image.cores.contains core then
      match running with
      | some i => (s.loadStore c core).enterCore c g i core
      | none => (s.swapCore c g core).setCore (s.idleCore c g core)
    else match s.core? core with
      | some x => s.setCore { Core.fresh core x.occupant 0xFFFF 0 none 0 [] x.ticketNos with occupant := x.occupant }
      | none => s
  -- producers of the new configuration hold credits from now on (R126)
  let s1 := s0.modFab fun f => { f with chans := f.chans.map fun h =>
    if h.id.ctx == c.id && h.id.handle == g.handle && h.dst == core then
      let k := { h with credits := match g.image.streams[h.id.stream]? with
        | some t => streamCap g.image t
        | none => 0 }
      match running with
      | some i => g.gateEos c.id i.gated k
      | none => k
    else h }
  -- a link with stored tiles uses them at once (R115)
  let s1 := (s1.fab.chans.filter fun h => h.link && h.dst == core && h.id.ctx == c.id && h.id.handle == g.handle).foldl
    State.forwardAll s1
  let w' := { w with switched := w.switched ++ [core] }
  let s2 := (s1.modFab fun f => { f with waves := f.waves.map fun x => if x.cmd == w.cmd then w' else x }).trace 3 core
    (leBytes 2 g.epoch ++ leBytes 2 c.id)
  if w'.region.all w'.switched.contains then s2.endWave w' else s2

/-- One switch row: a core that is to go sends its fences; when they have left and it has drained, it switches. `source`
says which of the two rows acts. -/
def State.switchRow (s : State) (source : Bool) (core : Nat) : State :=
  match s.waveOf core with
  | none => s
  | some w => match s.ctx? w.ctx, s.cfg? w.ctx w.handle with
    | some c, some g =>
      let old := s.oldCfg w core
      if sourceIn old core != source then s
      else match old with
        | none =>
          -- no active configuration: it starts at once if it is in no invocation
          if ((s.core? core).bind (·.inv)).isSome then s else s.switchCore w c g core
        | some d => match s.hold c d core, (d.image.stationOf core).bind d.image.station? with
          | some s1, some st => match s1.core? core with
            | some x =>
              let headsOk := source || st.streamIqs.all fun q => ((x.iqs.getD q []).head?.map fun t => t.hdr.kind) == some 2
              if !((x.inv.isNone || x.ended) && headsOk) then s
              else
                match (if x.fenceSent then some x else x.sendFences st d.image c.id g.epoch) with
                | none => s
                | some y =>
                  let s2 := s1.setCore y
                  if s2.coreDrained y st d.image then (s2.popIqs core st.streamIqs).switchCore w c g core else s2
            | none => s
          | _, _ => s
    | _, _ => s

def execWavefrontSourceSwitch (core : Nat) (s : State) : Res := s.when s.running (s.switchRow true core)

def execCoreSwitch (core : Nat) (s : State) : Res := s.when s.running (s.switchRow false core)

/-! ### Trees rebuilt as chains (R116) -/

/-- A degraded tree is rebuilt before the next launch; without slots, waiting invocations of it complete NO_SLOTS. -/
def execTreeRebuildAsChain (ctx handle stream : Nat) (s : State) : Res :=
  match s.ctx? ctx, s.cfg? ctx handle with
  | some c, some g =>
    let busy := s.fab.invs.any fun i => i.phase == .running && i.ctx == ctx && i.handle == handle
    if !s.running || busy || !g.degraded.contains stream then .next s
    else match s.rebuiltCfg c g stream with
      | some g' => .next (s.modCfg ctx handle fun _ => g')
      | none =>
        let waiting := s.fab.invs.filter fun i => i.phase == .waiting && i.ctx == ctx && i.handle == handle
        .next (waiting.foldl (fun s i => s.endInv i.id .noSlots false) s)
  | _, _ => .next s

/-! ### INVOKE (R68, R94, R217) -/

/-- An invocation launches; what it reads is checked first, which may end it. -/
def State.launchRead (s : State) (i : Inv) : State :=
  let s1 := s.touchAll (s.launchReads i)
  match s1.inv? i.id with
  | some i => s1.launchInv i
  | none => s1

/-- An accepted INVOKE becomes an invocation that waits for its cores; with AT_TICK it launches at its tick, or is late. -/
def startInvoke (e : Env) (handle : U16) (args result deadline : U64) (id : Nat) (s : State) : State :=
  match s.ctx? e.ctx.toNat, s.cfg? e.ctx.toNat handle.toNat with
  | some c, g? => match s.invokeRefusal c handle.toNat args.toNat result.toNat, g? with
    | some (st, bytes), _ => s.finish id st bytes
    | none, none => s.finish id .wrongState
    | none, some g =>
      let late := (s.rec? id).any (·.late)
      let (s1, n) := s.addInv fun n =>
        Inv.make n c.id g (.command id) args.toNat result.toNat deadline.toNat s.elapsed late []
      match s1.inv? n with
      | some i =>
        if !e.atTick || late then s1
        else if s1.launchable i && !s1.needsSwap i g.image c.uid then s1.launchRead i
        else if e.lateRun then s1.modInv n fun i => { i with late := true }
        else s1.endInv n .timePast false
      | none => s1
  | none, _ => s.finish id .badContext

def execInvoke (e : Env) (handle : U16) (args result deadline : U64) (s : State) : Res :=
  command (.invoke e handle args result deadline) e (fun _ => none) (fun _ => false)
    (startInvoke e handle args result deadline) s

/-! ### INVOKE_LIST (R95) -/

def checkInvokeList (e : Env) (list : U64) (n : U32) (s : State) : Option Status :=
  firstFail ([(list.toNat % 64 == 0, Status.badAlign),
    (decide (spaceOf (keyOf list.toNat) ∈ [0, 1, 3]) && (s.addr e list.toNat (64 * n.toNat) true true).isSome, Status.badParam),
    (decide (n.toNat ≤ 4096), Status.badParam)])

/-- A list and the arguments of the entry that may launch at once. -/
def State.touchList (s : State) (k n : Nat) : State :=
  let s1 := s.touch k (64 * n)
  let bs := s1.readBytes k 64
  s1.touchAll (s1.argReads (fieldAt bs 0 2 % 1024) (fieldAt bs 2 2) (fieldAt bs 8 8))

def startInvokeList (e : Env) (list : U64) (n : U32) (id : Nat) (s0 : State) : State :=
  let s := s0.touchList (keyOf list.toNat) n.toNat
  let l : ListRun := ⟨id, keyOf list.toNat, n.toNat, 0, 0, none, .ok⟩
  let onTick := e.atTick && !((s.rec? id).any (·.late))
  State.listGo (n.toNat + 1) id (if onTick then some e.lateRun else none) (s.modFab fun f => { f with lists := f.lists ++ [l] })

def execInvokeList (e : Env) (list : U64) (n : U32) (s : State) : Res :=
  command (.invokeList e list n) e (checkInvokeList e list n) (fun _ => n == 0) (startInvokeList e list n) s

/-! ### PREEMPT (R239) -/

/-- Inside an invocation, or a serving context inside a step. -/
def State.insideStep (s : State) (c : Ctx) : Bool :=
  s.insideInv c.id || c.serving.any fun v => match v.cur with
    | some r => r.launch.isSome
    | none => false

/-- Invocations of other contexts that wait for the context's cores. -/
def State.waitersOn (s : State) (c : Ctx) : List Nat :=
  let mine := c.cfgs.flatMap (·.image.cores)
  (s.fab.invs.filter fun i => i.phase == .waiting && i.ctx != c.id && match s.imageOf i.ctx i.handle with
    | some im => (i.coresOf im).any mine.contains
    | none => false).map (·.id)

def startPreempt (e : Env) (force : Bool) (id : Nat) (s : State) : State :=
  match s.ctx? e.ctx.toNat with
  | none => s.finish id .badContext
  | some c =>
    if force then (s.tearDown c.id .cancelled).finish id .ok
    else if s.insideStep c then s.finish id .busyHeld
    else
      let ids := s.waitersOn c
      if ids.isEmpty then s.finish id .ok
      else s.modCtx c.id fun d => { d with yield := d.yield ++ [(id, ids)] }

def execPreempt (e : Env) (force : Bool) (s : State) : Res :=
  command (.preempt e force) e (fun _ => none) (fun _ => false) (startPreempt e force) s

end Sys2Proof.Machine
end

