-- ==== Sys2Proof/Machine/Firing.lean ====
section
/-! DEFINITION. What every step of a core shares (04_stations_and_streams.md R73-R78, R92, R93, R378): the firing rule,
removing and writing tiles, the program counter, counters. -/

namespace Sys2Proof.Machine

/-! ### Held stations (08_weights.md R201) -/

/-- Layers of a weight command in ascending order. -/
def WgtOp.layerOrder (w : WgtOp) : List Nat := ((w.layers.map (·.layer)).eraseDups).mergeSort fun a b => a ≤ b

/-- An invocation launched before the barrier of the context's WGT_REPLACE; for a serving context the step counts (R199). -/
def Ctx.oldInv (c : Ctx) (i : Inv) (b : Nat) : Bool :=
  match i.owner with
  | .decode _ | .prefill _ => ((c.serving.bind (·.cur)).map (·.old)).getD false
  | _ => i.launch < b

/-- A station of an invocation is held: its layer has not been overwritten and the invocation is new. -/
def State.stationHeld (s : State) (i : Inv) (station : Nat) : Bool :=
  match s.ctx? i.ctx with
  | some c => c.wgt.any fun w => w.kind == 3 && match w.barrier with
    | some b => b ≤ s.now && !c.oldInv i b && w.layers.any fun l =>
        l.handle == i.handle && l.first ≤ station && station < l.first + l.count &&
          w.layersDone ≤ (w.layerOrder.findIdx? (· == l.layer)).getD 0
    | none => false
  | none => false

/-! ### The current step -/

/-- A core with what its step works in. -/
structure Site where
  x  : Core
  c  : Ctx
  im : Image
  st : Station
  i  : Inv
  deriving DecidableEq, Repr

/-- A core inside a running invocation, not held. -/
def State.site (s : State) (core : Nat) : Option Site :=
  match s.core? core with
  | some x => match x.inv.bind s.inv?, s.coreStation x with
    | some i, some (c, im, st) =>
      if s.running && i.phase == .running && !s.stationHeld i x.station then some ⟨x, c, im, st, i⟩ else none
    | _, _ => none
  | none => none

/-- The core's current step when it has one of an opcode and may fire now as far as the core itself goes (R75, R311). -/
def State.stepOf (s : State) (core op : Nat) : Option (Site × SW) :=
  (s.site core).bind fun t =>
    if t.x.ended || t.x.katDue || t.x.ticket.isSome then none
    else match t.im.stepProg? t.st.stepProg with
      | some ws => match ws[t.x.pc]? with
        | some w => if (SW.of w.toNat).op = op then some (t, SW.of w.toNat) else none
        | none => none
      | none => none

/-- Head of an input queue; a fence counts as none (R125). -/
def Site.head (t : Site) (q : Nat) : Option Tile :=
  match (t.x.iqs.getD q []).head? with
  | some h => if h.hdr.kind = 2 then none else some h
  | none => none

/-- A queue bound to the station's routing engine (R245). -/
def Site.router (t : Site) (q : Nat) : Option (Nat × Routing) :=
  t.st.streamProg.findSome? fun p => match t.im.routing? p with
    | some r => if r.rq = q then some (p, r) else none
    | none => none

/-- An output queue has a free entry. -/
def Site.roomIn (t : Site) (q : Nat) : Bool := (t.router q).isSome || (t.x.oqs.getD q []).length < qCap (t.st.oq q)

/-- What the firing rule says (R75, R76). -/
inductive Fire where
  | wait
  | mismatch
  | go (tiles : List Tile)
  deriving DecidableEq, Repr

def Site.fire (t : Site) (w : SW) : Fire :=
  let heads := w.ins.map t.head
  if heads.any fun h => (h.map fun x => x.hdr.kind) == some 1 then .mismatch
  else if heads.all (·.isSome) && w.outs.all t.roomIn then .go (heads.filterMap id)
  else .wait

/-! ### Effects -/

/-- The context faults with a stream-length mismatch (R76, R80). -/
def State.lenMismatch (s : State) (t : Site) : State :=
  (s.countCore t.x { StCnt.zero with lenMismatch := 1 }).faultCore t.x .fault

/-- The header a step writes: STREAM, SEQ, EPOCH, CTX and CRC (R378). -/
def Site.stamp (t : Site) (q seq : Nat) (tile : Tile) : Tile :=
  let stream := if qBind (t.st.oq q) = 1 then t.im.streamFrom t.x.idx q else 0
  ({ tile with hdr := { tile.hdr with
      spilled := false, epoch := t.x.epoch, ctx := t.c.id, stream := stream, seq := seq } } : Tile).sealed

/-- A routing point of an invocation. -/
def State.modPoint (s : State) (inv prog : Nat) (f : RPoint → RPoint) : State :=
  s.modInv inv fun v => { v with points := v.points.map fun p => if p.program == prog then f p else p }

/-- A score tile leaves RQ into SCORES (R245); one outside the tensor is only noted. -/
def State.score (s : State) (t : Site) (prog : Nat) (r : Routing) (tile : Tile) : State :=
  let cols := ceilDiv r.nexp 32
  let h := tile.hdr
  let s1 := s.modPoint t.i.id prog fun p =>
    { p with tiles := p.tiles ++ [(h.trow, h.tcol, h.vrows, h.vcols, h.poison)] }
  match t.c.translate r.scores (ceilDiv r.tmax 32 * cols * 4096) true true with
  | some k =>
    if h.trow < ceilDiv r.tmax 32 && h.tcol < cols then
      let bs := packElems 32 ((List.range 1024).map fun ix => tile.enc (ix / 32) (ix % 32))
      s1.writeMarked (k + 4096 * (h.trow * cols + h.tcol)) bs (if h.poison then List.range 4096 else [])
    else s1
  | none => s1

/-- Write a tile to an output queue (R378, R93): stamped, counted, or through the routing engine. -/
def State.pushOq (s : State) (core q : Nat) (tile : Tile) : State :=
  match s.core? core with
  | none => s
  | some x => match x.inv.bind s.inv?, s.coreStation x with
    | some i, some (c, im, st) =>
      let t : Site := ⟨x, c, im, st, i⟩
      let y := t.stamp q (x.sent.getD q 0) tile
      let s1 := (s.modCore core fun x => { x with sent := bump x.sent q }).countCore x
        { StCnt.zero with poisonOut := if y.hdr.poison then 1 else 0 }
      match t.router q with
      | some (p, r) => s1.score t p r y
      | none => s1.modCore core fun x => { x with oqs := x.oqs.modify q (· ++ [y]) }
    | _, _ => s

def State.pushOqs (s : State) (core : Nat) (qs : List Nat) (tile : Tile) : State :=
  qs.foldl (fun s q => s.pushOq core q tile) s

/-- Arithmetic counts of a step (R156). An element counts once for a step, whatever number of output queues it is written to
(log 129, DESIGN CHOICE). -/
def State.countArith (s : State) (x : Core) (a : ACnt) : State :=
  s.countCore x { StCnt.zero with sat := sat 32 a.sat, flush := sat 32 a.flush, nanOut := sat 32 a.nan, infOut := sat 32 a.inf }

/-- Continue at a step; past the last one the context faults (R81). -/
def State.goto (s : State) (t : Site) (pc : Nat) : State :=
  let n := ((t.im.stepProg? t.st.stepProg).map (·.length)).getD 0
  let s1 := s.modCore t.x.idx fun x => { x with pc := pc, rep := 0 }
  if n ≤ pc then s1.faultCore t.x .fault else s1

/-- The next firing of a step with REPEAT, or the next step. -/
def State.again (s : State) (t : Site) (w : SW) : State :=
  if t.x.rep < w.repeat_ then s.modCore t.x.idx fun x => { x with rep := x.rep + 1 } else s.goto t (t.x.pc + 1)

/-- A step that reads tiles: waits, finds a mismatch, or acts on the tiles and pops its queues. -/
def State.fireStep (s : State) (core op : Nat) (act : Site → SW → List Tile → State → State) : Res :=
  match s.stepOf core op with
  | none => .next s
  | some (t, w) => match t.fire w with
    | .wait => .next s
    | .mismatch => .next (s.lenMismatch t)
    | .go tiles => .next ((act t w tiles (s.popIqs core w.pops)).again t w)

/-! ### Operands and results -/

/-- A tile counts as poisoned: marked, or of an invalid CSCALE (R132). -/
def badTile (t : Tile) : Bool := t.hdr.poison || t.hdr.badScale

/-- A vector operand as FP32 (R151): encoding, SAT, FLUSH. -/
def vecOperand (t : Tile) (i j : Nat) : Nat × Nat × Nat :=
  let c := convElem 0 (t.val i j)
  (c.enc, if c.sat then 1 else 0, if c.flush then 1 else 0)

def dataHdr (f scheme vr vc tr tc cscale : Nat) (poison : Bool) : TileHdr :=
  ⟨0, f, scheme, poison, false, false, vr, vc, 0, 0, 0, tr, tc, cscale, 0, 0, 0⟩

/-- The tile made of values, and its counts. -/
def makeTile (f scheme vr vc tr tc cscale : Nat) (poison : Bool) (g : Nat → Nat → Val) : Tile × ACnt :=
  let cs := if scheme = 2 || scheme = 3 then cscale else 0
  let (es, scs, cnt, bad) := convValues f scheme (fp32 cscale) (regionVals vr vc g)
  (⟨dataHdr f scheme vr vc tr tc cs (poison || bad), es, scs⟩, cnt)

def Acc.at (a : Acc) (i j : Nat) : Nat := a.data.getD (32 * i + j) 0

/-- Replace an accumulator; its poison flag stays set unless the step clears it (R93). -/
def State.setAcc (s : State) (core n : Nat) (clr : Bool) (f : Acc → Acc) : State :=
  s.modCore core fun x => { x with accs := x.accs.modify n fun a =>
    let b := f a
    { b with poison := b.poison || (a.poison && !clr) } }

/-! ### Prefetch entries (07_memory_tiers.md R175) -/

/-- The entry serves the invocation. -/
def Inv.serves (i : Inv) (p : Prefetch) : Bool := p.len != 0 && (p.handle == 0xFFFF || p.handle == i.handle)

/-- The next entry in list order. -/
def Inv.nextPrefetch (i : Inv) : Option (Nat × Prefetch) :=
  ((List.range i.plist.length).filter fun n => i.nextEntry ≤ n).findSome? fun n => match i.plist[n]? with
    | some p => if i.serves p then some (n, p) else none
    | none => none

/-- Entries of a context in flight. -/
def State.prefetching (s : State) (ctx : Nat) : Nat :=
  ((s.fab.invs.filter fun i => i.ctx == ctx).map fun i => (i.started.filter fun x => !x.2).length).foldl (· + ·) 0

/-- Every core of a station has executed END in the invocation; a gated station counts as ended. -/
def State.stationEnded (s : State) (i : Inv) (im : Image) (k : Nat) : Bool :=
  match im.station? k with
  | some st => (st.rect.cores.filter i.cores.contains).all (s.coreEnded i)
  | none => true

/-- An entry may start: trigger ended, fewer than 16 in flight, its gate not held (08_weights.md R201). -/
def State.prefetchReady (s : State) (i : Inv) (im : Image) (p : Prefetch) : Bool :=
  (p.trigger == 0xFFFF || s.stationEnded i im p.trigger) && s.prefetching i.ctx < 16 &&
    (p.gate == 0xFFFF || !s.stationHeld i p.gate)

/-- Keys of an entry's source and destination. -/
def Ctx.prefetchKeys (c : Ctx) (p : Prefetch) : Option (Nat × Nat) :=
  match c.translate p.src p.len true false, c.translate p.dst 1 false true with
  | some a, some b => some (a, b)
  | _, _ => none

/-- A prefetch entry that is ready waits for a Mandoline instance, so weights do (R193, log 108). -/
def State.prefetchWaits (s : State) (unit : Nat) : Bool :=
  s.fab.invs.any fun i => i.phase == .running && match i.nextPrefetch, s.imageOf i.ctx i.handle, s.ctx? i.ctx with
    | some (_, p), some im, some c => s.prefetchReady i im p && match c.prefetchKeys p with
      | some (a, b) => mandolineOf a b == unit
      | none => false
    | _, _, _ => false

end Sys2Proof.Machine
end

