-- ==== Sys2Proof/Machine/Colander.lean ====
section
/-! DEFINITION. The Colander (10_experts.md R245-R255): token count, ranking, gates, assignment, what a routing point writes
and releases, host-routed points, and the ends of its exchanges (R256, R257). -/

namespace Sys2Proof.Machine

/-! ### FP32 operations, each rounded once (R247) -/

def addF (a b : Nat) : Nat := (roundArith ((fp32 a).add (fp32 b))).1
def mulF (a b : Nat) : Nat := (roundArith ((fp32 a).mul (fp32 b))).1
def negF (a : Nat) : Nat := (roundArith (fp32 a).neg).1

/-- Quotient. -/
def divF (a b : Nat) : Nat :=
  match fp32 a, fp32 b with
  | .fin s m e, .fin t n f =>
    let sg := if s != t then 0x80000000 else 0
    if n = 0 then (if m = 0 then 0x7FC00000 else 0x7F800000 + sg)
    else if m = 0 then sg
    else
      let (num, den) := scaled m n (e - f)
      sg + min 0x7F800000 (roundFp ⟨8, 23, 127⟩ num den)
  | .fin s _ _, .inf t => if s != t then 0x80000000 else 0
  | .inf s, .fin t _ _ => 0x7F800000 + (if s != t then 0x80000000 else 0)
  | _, _ => 0x7FC00000

/-- L of R247. -/
def log2e : Nat := 0x3FB8AA3B

/-- Gates of a token's scores, by expert. These operations count nothing in the arithmetic counters (log 123). -/
def gatesOf (fn : Nat) (scores : List Nat) : List Nat :=
  if fn = 0 then
    let m := scores.foldl (fun m x => if (fp32 m).lt (fp32 x) then x else m) (scores.headD 0)
    let ws := scores.map fun x => (vecUnary 4 (mulF (addF x (negF m)) log2e)).1
    let z := ws.foldl addF 0
    ws.map fun w => divF w z
  else scores.map fun x => (vecUnary 5 (addF 0x3F800000 (vecUnary 4 (mulF (negF x) log2e)).1)).1

/-- Experts by score, highest first; equal scores by index (R246). -/
def rankOf (scores : List Nat) : List Nat :=
  (List.range scores.length).mergeSort fun a b => !((fp32 (scores.getD a 0)).lt (fp32 (scores.getD b 0)))

/-! ### Assignment (R248, R249, R254) -/

/-- What a token asks for: its choices in order, the experts a search looks at, the gate of each choice's expert. -/
structure Ask where
  choices : List (Option Nat)
  search  : List Nat
  gate    : Nat → Nat → Nat

structure Placed where
  counts : List Nat
  /-- tokens of each expert, in order -/
  disp   : List (List Nat)
  combine : List (List Nat)
  gates  : List (List Nat)
  (moved dropped invalid : Nat)
  deriving DecidableEq, Repr

def Placed.none (e : Nat) : Placed := ⟨List.replicate e 0, List.replicate e [], [], [], 0, 0, 0⟩

/-- The expert choice `j` takes: its own when it has room, else the first of the search with room that the token does not
hold; and whether the search found it. -/
def Placed.expertFor (p : Placed) (cap : Nat) (search taken : List Nat) (choice : Option Nat) : Option Nat × Bool :=
  match choice with
  | .some e =>
    if p.counts.getD e 0 < cap then (some e, false)
    else match search.find? fun f => p.counts.getD f 0 < cap && !taken.contains f with
      | .some f => (some f, true)
      | .none => (Option.none, false)
  | .none => (Option.none, false)

/-- Place the choices of token `t`; the row of placed experts, in choice order. -/
def Placed.choices (cap : Nat) (a : Ask) (t : Nat) : List (Option Nat) → Placed → List (Option (Nat × Nat)) →
    Placed × List (Option (Nat × Nat))
  | [], p, row => (p, row)
  | c :: cs, p, row =>
    let taken := row.filterMap fun x => x.map (·.1)
    match p.expertFor cap a.search taken c with
    | (.some e, moved) =>
      let p' := { p with counts := bump p.counts e, disp := p.disp.modify e (· ++ [t]), moved := p.moved + if moved then 1 else 0 }
      Placed.choices cap a t cs p' (row ++ [some (e, p.counts.getD e 0)])
    | (.none, _) => Placed.choices cap a t cs { p with dropped := p.dropped + 1 } (row ++ [Option.none])

/-- A token: an invalid one takes the poison row (R251). -/
def Placed.token (r : Routing) (cap : Nat) (p : Placed) (t : Nat) (ask : Option Ask) : Placed :=
  match ask with
  | .none => { p with
      combine := p.combine ++ [List.replicate r.topk (r.nexp * r.capMax + 1)], gates := p.gates ++ [List.replicate r.topk 0],
      invalid := p.invalid + 1 }
  | .some a =>
    let (q, row) := Placed.choices cap a t a.choices p []
    let raw := row.mapIdx fun j x => match x with
      | .some (e, _) => a.gate j e
      | .none => 0
    let held := (row.zip raw).filter (·.1.isSome)
    let sum := ((held.map (·.2)).drop 1).foldl addF ((held.head?.map (·.2)).getD 0)
    let gs := if r.renorm && !held.isEmpty then (row.zip raw).map fun x => if x.1.isSome then divF x.2 sum else x.2 else raw
    { q with
      combine := q.combine ++ [row.map fun x => match x with
        | .some (e, n) => e * r.capMax + n
        | .none => r.nexp * r.capMax]
      gates := q.gates ++ [gs] }

/-- Capacity c, on the exact value. -/
def Routing.capacity (r : Routing) (t : Nat) : Nat :=
  match fp32 r.capFactor with
  | .fin _ m e =>
    if m = 0 then r.capMax
    else min r.capMax (ceilDiv (m * 2 ^ e.toNat * t * r.topk) (r.nexp * 2 ^ (-e).toNat))
  | _ => r.capMax

def Routing.assign (r : Routing) (asks : List (Option Ask)) : Placed :=
  let cap := r.capacity asks.length
  (asks.mapIdx fun t a => (t, a)).foldl (fun p x => p.token r cap x.1 x.2) (Placed.none r.nexp)

/-- A token is invalid: a poisoned score tile, or a score that is NaN or infinite (R246). -/
def invalidToken (scores : List Nat) (poisoned : Bool) : Bool :=
  poisoned || scores.any fun x => match fp32 x with
    | .fin .. => false
    | _ => true

/-- The module's own ranking of a token. -/
def Routing.ownAsk (r : Routing) (scores : List Nat) (poisoned : Bool) : Option Ask :=
  if invalidToken scores poisoned then Option.none
  else
    let rank := rankOf scores
    let gs := gatesOf r.gatefn scores
    some ⟨(rank.take r.topk).map some, (rank.drop r.topk).take (min (r.topk + r.spillDepth) r.nexp - r.topk),
      fun _ e => gs.getD e 0⟩

/-! ### Tokens of a point (R245) -/

/-- T, when the score tiles cover the rows and columns exactly once and T is at most TMAX. -/
def RPoint.count (p : RPoint) (r : Routing) : Option Nat :=
  let top := p.tiles.foldl (fun m x => max m x.1) 0
  let cols := ceilDiv r.nexp 32
  match p.tiles.find? fun x => x.1 == top with
  | none => some 0
  | some (_, _, vr, _, _) =>
    let t := 32 * top + vr
    let fits := fun (x : Nat × Nat × Nat × Nat × Bool) =>
      x.2.1 < cols && x.2.2.1 == (if x.1 = top then vr else 32) &&
        x.2.2.2.1 == (if x.2.1 + 1 = cols then r.nexp - 32 * (cols - 1) else 32)
    let places := p.tiles.map fun x => (x.1, x.2.1)
    if t ≤ r.tmax && p.tiles.all fits && places.eraseDups.length == places.length &&
        places.length == (top + 1) * cols then some t
    else none

/-- Token rows a poisoned score tile holds. -/
def RPoint.poisonRow (p : RPoint) (t : Nat) : Bool := p.tiles.any fun x => x.1 == t / 32 && x.2.2.2.2

/-- A token's scores from SCORES. -/
def State.scoreRow (s : State) (k : Nat) (r : Routing) (t : Nat) : List Nat :=
  (List.range r.nexp).map fun e =>
    s.readNat (k + 4096 * (t / 32 * ceilDiv r.nexp 32 + e / 32) + 4 * (t % 32 * 32 + e % 32)) 4

/-- A token's score tiles are poisoned: one came so, or a word of one in SCORES, key `k`, is poisoned by now
(04_stations_and_streams.md R93, 07_memory_tiers.md R171; log 138). -/
def State.tokenBad (s : State) (p : RPoint) (k : Nat) (r : Routing) (t : Nat) : Bool :=
  p.poisonRow t || s.poisonedIn (k + 4096 * (t / 32 * ceilDiv r.nexp 32)) (4096 * ceilDiv r.nexp 32)

/-- SCORES as far as a point's tokens fill it. -/
def Ctx.scoreReads (c : Ctx) (r : Routing) (t : Nat) : List (Nat × Nat) :=
  let n := 4096 * (ceilDiv t 32 * ceilDiv r.nexp 32)
  (c.translate r.scores n true true).toList.map fun k => (k, n)

/-! ### What is written and released (R250-R252) -/

/-- Little-endian 32-bit words at a context address. -/
def State.writeWords (s : State) (c : Ctx) (a : Nat) (ws : List Nat) : State :=
  match c.translate a (4 * ws.length) false true with
  | some k => s.writeBytes k (ws.flatMap (leBytes 4))
  | none => s

/-- YBUF rows of an expert and position, of the zero row and the poison row. -/
def Routing.yrowAt (r : Routing) (n : Nat) : Nat := r.ybuf + n * r.yrow

def State.writePoint (s : State) (c : Ctx) (i : Inv) (r : Routing) (t : Nat) (p : Placed) : State :=
  let s1 := (List.range r.nexp).foldl (fun s e => s.writeWords c (r.dispatch + 4 * (e * r.capMax)) (p.disp.getD e [])) s
  let s2 := (s1.writeWords c r.combine p.combine.flatten).writeWords c r.gates p.gates.flatten
  let z := r.nexp * r.capMax
  let s3 := match c.translate (r.yrowAt z) r.yrow false true with
    | some k => s2.writeBytes k (zeros r.yrow)
    | none => s2
  let s4 := match c.translate (r.yrowAt (z + 1)) r.yrow false true with
    | some k => s3.markPoison ((List.range r.yrow).map (k + ·))
    | none => s3
  let s5 := s4.writeWords c r.counters
    [t, r.capacity t, sat 32 p.moved, sat 32 p.dropped, sat 32 p.invalid]
  let s6 := s5.writeWords c (r.counters + 24) ([i.launch % 2 ^ 32, i.launch / 2 ^ 32] ++ p.counts)
  if r.exch then s6 else s6.writeWords c (r.counters + 20) [0]

/-- The number of a routing point; bit 15 marks the PRE configuration of a serving context (R253). -/
def Ctx.pointNumber (c : Ctx) (im : Image) (handle prog : Nat) : Nat :=
  ((im.routingPrograms.findIdx? (· == prog)).getD 0) +
    if c.serving.any fun v => v.desc.pre == handle then 0x8000 else 0

/-- Trace of a point's start or release (13_safety_repair_wear.md Table 13.12 bit 10). -/
def State.tracePoint (s : State) (i : Inv) (p : RPoint) (released : Bool) : State :=
  match s.ctx? i.ctx, s.imageOf i.ctx i.handle with
  | some c, some im => s.trace 10 c.id (leBytes 2 (c.pointNumber im i.handle p.program) ++
      leBytes 1 (if released then 1 else 0) ++ zeros 1 ++ leBytes 4 p.tokens)
  | _, _ => s

/-- Cores of an invocation at stations get one on S6 and the count words of a point. -/
def State.release (s : State) (i : Inv) (p : RPoint) (r : Routing) (stations : List Nat) : State :=
  let upd := fun (x : Core) =>
    if x.inv == some i.id && stations.contains x.station then
      { x.signal 6 1 with engines := p.countWords r x.station x.engines }
    else x
  (s.modFab fun f => { f with cores := f.cores.map upd }).tracePoint i p true

/-- Local expert stations and the combine stations. -/
def Routing.expertStations (r : Routing) : List Nat := (r.experts.map (·.station)).filter fun k => k != 0xFFFF

def Routing.restStations (r : Routing) : List Nat := (List.range r.nrel).map (r.rel0 + ·)

/-- The point has its assignment: everything is written, then stations go; with EXCH they wait for the exchanges. -/
def State.settlePoint (s : State) (c : Ctx) (i : Inv) (p : RPoint) (r : Routing) (asks : List (Option Ask)) : State :=
  let a := r.assign asks
  let p' := { p with started := true, tokens := asks.length, query := none, released := true, own := a.counts,
                     counts := if r.exch then p.counts else a.counts }
  let s1 := (s.writePoint c i r asks.length a).modPoint i.id p.program fun _ => p'
  if r.exch then s1 else s1.release i p' r (r.expertStations ++ r.restStations)

/-! ### ROUTING_POINT_START -/

/-- Every core of the router station has sent end-of-stream on RQ. -/
def Image.routerDone (im : Image) (p : RPoint) : Bool :=
  match (im.routerOf p.program).bind im.station? with
  | some st => st.rect.cores.all p.eos.contains
  | none => false

def State.startPoint (s : State) (c : Ctx) (i : Inv) (im : Image) (p : RPoint) (r : Routing) : State :=
  let k := (c.translate r.scores 4 true true).getD 0
  match p.count r with
  | none => s.tearDown c.id .fault
  | some t =>
    let s := s.tracePoint i { p with tokens := t } false
    if s.unitFailed 4 (mandolineOf k k) then s.tearDown c.id .fault
    else if c.hostRouted && t != 0 then
      let s1 := s.modPoint i.id p.program fun p => { p with started := true, tokens := t, query := some s.elapsed }
      s1.ring c.id 0 2 0 (c.pointNumber im i.handle p.program) t ((c.serving.map (·.step)).getD 0)
    else
      s.settlePoint c i p r ((List.range t).map fun x => r.ownAsk (s.scoreRow k r x) (s.tokenBad p k r x))

/-- Context, image, routing block of a point of a running invocation. -/
def State.pointAt (s : State) (inv program : Nat) : Option (Ctx × Inv × Image × RPoint × Routing) :=
  (s.inv? inv).bind fun i =>
    if i.phase != .running then none else
    (s.ctx? i.ctx).bind fun c => (s.imageOf i.ctx i.handle).bind fun im =>
      (i.points.find? fun p => p.program == program).bind fun p =>
        (im.routing? program).map fun r => (c, i, im, p, r)

def execRoutingPointStart (inv program : Nat) (s : State) : Res :=
  match s.pointAt inv program with
  | some (c, _, im, p, r) =>
    let s1 := s.touchAll (c.scoreReads r ((p.count r).getD 0))
    s.when (s.running && !p.started && im.routerDone p) (match s1.pointAt inv program with
      | some (c, i, im, p, r) => s1.startPoint c i im p r
      | none => s1)
  | none => .next s

/-- No accepted answer in ROUTE_WAIT ticks: every token is invalid (R255). -/
def execRouteWaitExpiry (inv program : Nat) (s : State) : Res :=
  match s.pointAt inv program with
  | some (c, i, im, p, r) => match p.query with
    | some q =>
      let s1 := s.settlePoint c i p r (List.replicate p.tokens none)
      s.when (s.running && q + r.routeWait ≤ s.elapsed) (s1.event (srcJob c.job) 0x0018
        (leBytes 2 c.id ++ leBytes 2 (c.pointNumber im i.handle program) ++ leBytes 4 ((c.serving.map (·.step)).getD 0)))
    | none => .next s
  | none => .next s

/-! ### Answers of the host (R254) -/

/-- Entries of an answer: expert or none, gate. -/
def answerEntries (bs : List Byte) (n : Nat) : List (Nat × Nat) :=
  (List.range n).map fun i => (fieldAt bs (16 + 8 * i) 2, fieldAt bs (20 + 8 * i) 4)

/-- A gate that is negative, NaN or infinite. -/
def badGate (g : Nat) : Bool :=
  match fp32 g with
  | .fin s m _ => s && m != 0
  | _ => true

/-- The first entry that check 0x00A8 refuses. -/
def badEntry (r : Routing) (es : List (Nat × Nat)) : Option Nat :=
  (List.range es.length).find? fun i =>
    let (e, g) := es.getD i (0, 0)
    let before := (es.take i).drop (i / max 1 r.topk * r.topk)
    (r.nexp ≤ e && e != 0xFFFF) || (e != 0xFFFF && before.any fun x => x.1 == e) || badGate g

/-- The host's choices of a token. -/
def hostAsk (r : Routing) (es : List (Nat × Nat)) (t : Nat) : Ask :=
  let mine := (es.drop (t * r.topk)).take r.topk
  ⟨mine.map fun x => if x.1 = 0xFFFF then none else some x.1, [], fun j _ => (mine.getD j (0, 0)).2⟩

/-- What the tokens of a point ask for by an answer: an invalid token is passed over as R248 does. -/
def State.hostAsks (s : State) (c : Ctx) (p : RPoint) (r : Routing) (es : List (Nat × Nat)) : List (Option Ask) :=
  let k := (c.translate r.scores 4 true true).getD 0
  (List.range p.tokens).map fun t =>
    if invalidToken (s.scoreRow k r t) (s.tokenBad p k r t) then none else some (hostAsk r es t)

/-- Points of a context that await an answer, with their numbers. -/
def State.openPoints (s : State) (c : Ctx) : List (Nat × Inv × RPoint × Routing) :=
  (s.fab.invs.filter fun i => i.ctx == c.id && i.phase == .running).flatMap fun i => match s.imageOf i.ctx i.handle with
    | some im => i.points.filterMap fun p =>
        if p.query.isSome then (im.routing? p.program).map fun r => (c.pointNumber im i.handle p.program, i, p, r) else none
    | none => []

/-- Contexts with a point that awaits an answer on a Colander unit, by I/O die. -/
def State.waitingOn (s : State) (unit : Nat) : List Nat :=
  (s.ctxs.filter fun c => (s.openPoints c).any fun x =>
    let k := (c.translate x.2.2.2.scores 4 true true).getD 0
    mandolineOf k k == unit).map (·.id)

/-- An I/O-die unit fails its round (13_safety_repair_wear.md R314): it leaves service, and the contexts whose open points are on
a failed Colander unit fault at once, for their answers can do nothing more (log 139). -/
def State.unitOut (s : State) (kind unit : Nat) : State :=
  let s1 := s.elementOut ⟨kind, unit, 0⟩
  if kind = 4 then (s1.waitingOn unit).foldl (fun s c => s.tearDown c .fault) s1 else s1

/-- STEP_ANSWER with request ID 0; other reserved bytes and another T are refused BAD_PARAM (log 50). -/
def State.answerRoute (s : State) (c : Ctx) (step key len id : Nat) : State :=
  let open_ := if (c.serving.map (·.step)) == some step then s.openPoints c else []
  if open_.isEmpty then s.finish id .wrongState
  else if len < 16 then s.finish id .badSize
  else
    let bs := s.readBytes key len
    match open_.find? fun x => x.1 == fieldAt bs 0 2 with
    | none => s.finish id .wrongState
    | some (_, i, p, r) =>
      let n := p.tokens * r.topk
      let es := answerEntries bs n
      if len != 16 + 8 * n then s.finish id .badSize
      else if fieldAt bs 2 2 != 0 || fieldAt bs 4 4 != p.tokens || !allZero (slice bs 8 8) ||
          (List.range n).any (fun j => fieldAt bs (18 + 8 * j) 2 != 0) then s.finish id .badParam
      else match badEntry r es with
        | some j => s.finish id .checkFailed (checkResult 0x00A8 j)
        | none =>
          let s1 := s.touchAll (c.scoreReads r p.tokens)
          if (s1.inv? i.id).isNone then s1.finish id .wrongState
          else (s1.settlePoint c i p r (s1.hostAsks c p r es)).finish id .ok

/-! ### Ends of exchanges (R256, R257) -/

/-- The running point an exchange of a group belongs to. -/
def State.exchPoint (s : State) (group : Nat) : Option (Ctx × Inv × RPoint × Routing) :=
  (s.fab.invs.filter fun i => i.phase == .running).findSome? fun i => match s.ctx? i.ctx, s.imageOf i.ctx i.handle with
    | some c, some im => i.points.findSome? fun p => match im.routing? p.program with
      | some r => if r.exch && r.group == group && (p.exch == 1 || p.exch == 3) then some (c, i, p, r) else none
      | none => none
    | _, _ => none

/-- MISSING of a point rises by `n`. -/
def State.addMissing (s : State) (c : Ctx) (i : Inv) (p : RPoint) (r : Routing) (n : Nat) : State :=
  let m := satAdd 32 p.missing n
  (s.modPoint i.id p.program fun p => { p with missing := m }).writeWords c (r.counters + 20) [m]

/-- How many of the `left` rows of a slice each of the given experts has: the slice does not say, so all but the last are free
values (log 51), none above `cap` unless there are more rows than that. -/
def spreadRows (cap free : Nat) : List Nat → Nat → List (Nat × Nat)
  | [], _ => []
  | [e], left => [(e, left)]
  | e :: es, left =>
    let least := left - cap * es.length
    let n := least + (Config.freeValue (free + e)).toNat % (min cap left - least + 1)
    (e, n) :: spreadRows cap free es (left - n)

/-- Experts of this module. -/
def Routing.localExperts (r : Routing) : List Nat :=
  (List.range r.nexp).filter fun e => ((r.experts[e]?).map (·.station)).any (· != 0xFFFF)

/-- Cut the first rows off a slice, expert by expert: expert, sending chip, row. -/
def cutRows (yrow chip : Nat) : List (Nat × Nat) → List Byte → List (Nat × Nat × List Byte)
  | [], _ => []
  | (e, n) :: rest, bs =>
    ((List.range n).map fun j => (e, chip, slice bs (j * yrow) yrow)) ++ cutRows yrow chip rest (bs.drop (n * yrow))

/-- Rows that the slices of a dispatch bring, by chip in ascending order. -/
def Routing.rowsIn (r : Routing) (free : Nat) (slices : List (Nat × List Byte)) : List (Nat × Nat × List Byte) :=
  (slices.mapIdx fun k x =>
    cutRows r.yrow x.1 (spreadRows r.capMax (free + k * r.nexp) r.localExperts (x.2.length / max 1 r.yrow)) x.2).flatten

/-- Rows in the order in which they land: by expert, then by sending chip, then as the list has them (R256). -/
def Routing.landing (r : Routing) (rows : List (Nat × Nat × List Byte)) : List (Nat × Nat × List Byte) :=
  r.localExperts.flatMap fun e => (rows.filter fun x => x.1 == e).mergeSort fun a b => a.2.1 ≤ b.2.1

/-- The module's own rows for its own experts; what they hold is free, since the manual does not say where activation rows lie. -/
def State.ownRows (s : State) (p : RPoint) (r : Routing) : List (Nat × Nat × List Byte) × State :=
  if p.late then ([], s)
  else
    let ns := r.localExperts.map fun e => (e, p.own.getD e 0)
    let (bs, s1) := s.drawBytes ((ns.map (·.2)).sum * r.yrow)
    (cutRows r.yrow s.ownChip ns bs, s1)

/-- The dispatch is over: the rows of the slices that came and the module's own have landed, count words of local experts
become their totals, and the expert stations go (R256, R257). -/
def State.dispatchOver (s : State) (c : Ctx) (i : Inv) (p : RPoint) (r : Routing) (slices : List (Nat × List Byte))
    (missing : Nat) : State :=
  let (own, s1) := s.ownRows p r
  let landed := r.landing (own ++ r.rowsIn s1.free slices)
  let counts := (List.range r.nexp).map fun e => (landed.filter fun x => x.1 == e).length
  let p' := { p with counts := counts, exch := 2, landed := landed }
  ((({ s1 with free := s1.free + slices.length * r.nexp } : State).modPoint i.id p.program fun _ => p').release i p' r
    r.expertStations).addMissing c i p' r missing

/-- Rows of YBUF, in ascending expert and list order, that a module's return slice writes. -/
def RPoint.rowsOf (p : RPoint) (r : Routing) (owner : Nat) : List Nat :=
  (List.range r.nexp).flatMap fun e =>
    if ((r.experts[e]?).map (·.owner)) == some owner then (List.range (p.own.getD e 0)).map fun n => e * r.capMax + n else []

/-- A return slice holds a row for each one that went to the module; one that came short of them lacks the rest (log 140). -/
def RPoint.lacks (p : RPoint) (r : Routing) (x : Nat × Option (List Byte × List Nat)) : Bool :=
  match x.2 with
  | some d => d.1.length < (p.rowsOf r x.1).length * r.yrow
  | none => true

/-- The rows of a return slice that came are written row by row; a row that is missing is left +0, poisoned. -/
def State.returnRows (s : State) (c : Ctx) (p : RPoint) (r : Routing) (owner : Nat) (data : Option (List Byte × List Nat)) :
    State :=
  ((p.rowsOf r owner).mapIdx fun n row => (n, row)).foldl (fun s x =>
    match c.translate (r.yrowAt x.2) r.yrow true true with
    | some k => match data with
      | some (bs, ps) =>
        if bs.length < (x.1 + 1) * r.yrow then s.writeMarked k (zeros r.yrow) (List.range r.yrow)
        else s.writeMarked k (slice bs (x.1 * r.yrow) r.yrow)
          ((ps.filter fun o => x.1 * r.yrow ≤ o && o < (x.1 + 1) * r.yrow).map fun o => o - x.1 * r.yrow)
      | none => s.writeMarked k (zeros r.yrow) (List.range r.yrow)
    | none => s) s

/-- The return is over: the combine stations go. -/
def State.returnOver (s : State) (c : Ctx) (i : Inv) (p : RPoint) (r : Routing)
    (slices : List (Nat × Option (List Byte × List Nat))) : State :=
  let s1 := slices.foldl (fun s x => s.returnRows c p r x.1 x.2) s
  let p' := { p with exch := 4 }
  ((s1.modPoint i.id p.program fun _ => p').release i p' r r.restStations).addMissing c i p' r
    (slices.filter (p.lacks r)).length

/-- An exchange of a routing point is over; `slices` holds each member's chip and what came of it. -/
def State.exchangeOver (s : State) (group : Nat) (slices : List (Nat × Option (List Byte × List Nat))) : State :=
  match s.exchPoint group with
  | some (c, i, p, r) =>
    if p.exch = 1 then
      let theirs := slices.filterMap fun x => if x.1 == s.ownChip then none else x.2.map fun d => (x.1, d.1)
      s.dispatchOver c i p r theirs (slices.filter fun x => x.2.isNone).length
    else s.returnOver c i p r slices
  | none => s

end Sys2Proof.Machine
end

