-- ==== Sys2Proof/Machine/Steps.lean ====
section
/-! DEFINITION. The steps of a core (04_stations_and_streams.md Table 4.6; 06_arithmetic.md R134-R156) and the Ticket rail
(R90, R91). -/

namespace Sys2Proof.Machine

/-! ### MMA, MMA_BT (R78, R135-R141) -/

/-- Products of one accumulator element. -/
def mmaProducts (bt : Bool) (passes : Nat) (a b : Tile) (m n : Nat) : List Val :=
  let kmax := min a.hdr.vcols (if bt then b.hdr.vcols else b.hdr.vrows)
  (List.range kmax).flatMap fun k =>
    let (bi, bj) := if bt then (n, k) else (k, n)
    if a.hdr.fmt = 0 && b.hdr.fmt = 0 then passProducts passes (a.enc m k) (b.enc bi bj)
    else [(a.val m k).mul (b.val bi bj)]

/-- One element after the step: value and FLUSH counts. -/
def mmaElem (clr : Bool) (old : Nat) (ps : List Val) : Nat × Nat :=
  match chunkRound ps, clr with
  | none, true => (0, 0)
  | none, false => (old, 0)
  | some (c, f), true => (c, if f then 1 else 0)
  | some (c, f), false =>
    let (y, g) := roundArith ((fp32 old).add (fp32 c))
    (y, (if f then 1 else 0) + (if g then 1 else 0))

/-- The accumulator after an MMA, and its FLUSH count. -/
def mmaAcc (bt clr : Bool) (passes : Nat) (a b : Tile) (acc : Acc) : Acc × Nat :=
  let vr := if clr then a.hdr.vrows else acc.vrows
  let vc := if clr then (if bt then b.hdr.vrows else b.hdr.vcols) else acc.vcols
  let outs := (List.range 1024).map fun ix =>
    if ix / 32 < vr && ix % 32 < vc then
      mmaElem clr (acc.at (ix / 32) (ix % 32)) (mmaProducts bt passes a b (ix / 32) (ix % 32))
    else (if clr then 0 else acc.at (ix / 32) (ix % 32), 0)
  ({ vrows := vr, vcols := vc, trow := if clr then a.hdr.trow else acc.trow
     tcol := if clr then (if bt then b.hdr.trow else b.hdr.tcol) else acc.tcol
     poison := badTile a || badTile b, data := outs.map (·.1) },
   (outs.map (·.2)).foldl (· + ·) 0)

/-- The Sieve compares an element's chunk unless R136 makes it NaN or infinite; an empty chunk is compared (R311). -/
def sieved (ps : List Val) : Bool :=
  match chunkRound ps with
  | some (c, _) => c % 0x80000000 < 0x7F800000
  | none => true

/-- How many of the chunks at which the residue checker saw a difference it has compared: elements 32·m + n of the step. -/
def sieveHits (bt clr : Bool) (passes : Nat) (a b : Tile) (acc : Acc) (at_ : List Nat) : Nat :=
  let r := (mmaAcc bt clr passes a b acc).1
  (at_.eraseDups.filter fun ix => ix / 32 < r.vrows && ix % 32 < r.vcols &&
    sieved (mmaProducts bt passes a b (ix / 32) (ix % 32))).length

/-- A Sieve mismatch in the step (R311): the result is poisoned, event 0x0060, an extra round is due. -/
def State.sieveMismatch (s : State) (core acc : Nat) : State :=
  let pos := s.grid.hostOf core
  let n := (((s.fab.sieve.find? fun x => x.1 == pos).map (·.2.2)).getD 0) + 1
  let s1 := (s.setAcc core acc false fun a => { a with poison := true }).modFab fun f =>
    { f with sieve := (f.sieve.filter fun x => x.1 != pos) ++ [(pos, s.elapsed, n)]
             cores := f.cores.map fun x => if x.idx == core then { x with katDue := true } else x }
  (s1.modHealth fun h => { h with sieve := satAdd 32 h.sieve 1 }).event (srcDie (s.grid.dieOf (coreCol core))) 0x0060
    (leBytes 2 core ++ leBytes 4 n)

/-- The mismatches of one step: the second on the core within 100,000,000 ticks makes it failed (R311). -/
def State.sieveMismatches (s : State) (core acc n : Nat) : State :=
  let recent := s.fab.sieve.any fun x => x.1 == s.grid.hostOf core && s.elapsed - x.2.1 ≤ 100000000
  let s1 := Nat.repeat (fun s : State => s.sieveMismatch core acc) n s
  if 2 ≤ n || (n = 1 && recent) then s1.failCore core else s1

def State.mmaStep (s : State) (core op : Nat) (bt : Bool) (sieve : List Nat) : Res :=
  s.fireStep core op fun t w tiles s => match tiles with
    | [a, b] =>
      let old := t.x.accs.getD w.acc Acc.empty
      let s1 := s.setAcc core w.acc w.clr fun acc => (mmaAcc bt w.clr w.passes a b acc).1
      let s2 := s1.countArith t.x ⟨0, (mmaAcc bt w.clr w.passes a b old).2, 0, 0⟩
      s2.sieveMismatches core w.acc (sieveHits bt w.clr w.passes a b old sieve)
    | _ => s

/-- `sieve`: the elements, 32·m + n, at whose chunks the residues differ. -/
def execMma (core : Nat) (sieve : List Nat) (s : State) : Res := s.mmaStep core 0x01 false sieve

def execMmaBt (core : Nat) (sieve : List Nat) (s : State) : Res := s.mmaStep core 0x02 true sieve

/-! ### Vector steps (R151-R154) -/

/-- An FP32 result matrix with its region: values, SAT and FLUSH inside it. -/
structure VecOut where
  (vr vc tr tc : Nat)
  poison : Bool
  data : List Nat
  (sat flush : Nat)
  deriving DecidableEq, Repr

/-- Element results over a region: each gives an encoding, SAT and FLUSH. -/
def vecOver (vr vc tr tc : Nat) (poison : Bool) (f : Nat → Nat → Nat × Nat × Nat) : VecOut :=
  let outs := (List.range 1024).map fun ix => if ix / 32 < vr && ix % 32 < vc then f (ix / 32) (ix % 32) else (0, 0, 0)
  ⟨vr, vc, tr, tc, poison, outs.map (·.1), (outs.map (·.2.1)).foldl (· + ·) 0, (outs.map (·.2.2)).foldl (· + ·) 0⟩

def VecOut.asAcc (o : VecOut) : Acc := ⟨o.vr, o.vc, o.tr, o.tc, o.poison, o.data⟩

/-- Write a vector result to the accumulator, or convert it to the output queues; CSCALE 1.0 (R149). -/
def State.vecWrite (s : State) (t : Site) (w : SW) (o : VecOut) : State :=
  let s1 := s.countArith t.x ⟨o.sat, o.flush, 0, 0⟩
  if w.out = 0 then s1.setAcc t.x.idx w.acc false fun _ => o.asAcc
  else
    let (tile, cnt) := makeTile w.ofmt w.osch o.vr o.vc o.tr o.tc fp32One o.poison fun i j => fp32 (o.data.getD (32 * i + j) 0)
    (s1.countArith t.x cnt).pushOqs t.x.idx w.outs tile

def flushOf (r : VRes) : Nat := if r.2 then 1 else 0

def execVec1 (core : Nat) (s : State) : Res :=
  s.fireStep core 0x03 fun t w tiles s => match tiles with
    | [a] => s.vecWrite t w (vecOver a.hdr.vrows a.hdr.vcols a.hdr.trow a.hdr.tcol (badTile a) fun i j =>
        let (x, sa, fl) := vecOperand a i j
        let r := ftz w.ftz (vecUnary w.sub x)
        (r.1, sa, fl + flushOf r))
    | _ => s

def execVec2 (core : Nat) (s : State) : Res :=
  s.fireStep core 0x04 fun t w tiles s => match tiles with
    | [a, b] => s.vecWrite t w (vecOver (min a.hdr.vrows b.hdr.vrows) (min a.hdr.vcols b.hdr.vcols) a.hdr.trow a.hdr.tcol
        (badTile a || badTile b) fun i j =>
        let (x, sa, fa) := vecOperand a i j
        let (y, sb, fb) := vecOperand b i j
        let r := ftz w.ftz (vecBinary w.sub x y)
        (r.1, sa + sb, fa + fb + flushOf r))
    | _ => s

def execVecacc (core : Nat) (s : State) : Res :=
  s.fireStep core 0x05 fun t w tiles s => match tiles with
    | [b] =>
      let acc := t.x.accs.getD w.acc Acc.empty
      let o := vecOver (min acc.vrows b.hdr.vrows) (min acc.vcols b.hdr.vcols) b.hdr.trow b.hdr.tcol (badTile b) fun i j =>
        let (y, sb, fb) := vecOperand b i j
        let r := ftz w.ftz (vecBinary w.sub (acc.at i j) y)
        (r.1, sb, fb + flushOf r)
      (s.countArith t.x ⟨o.sat, o.flush, 0, 0⟩).setAcc core w.acc false fun _ => o.asAcc
    | _ => s

/-! ### RED (R79, R155) -/

/-- One reduction of 32 decoded values: encoding, SAT, FLUSH. A product converts each operand to FP32 first, as every vector
step but CVT does (R151). -/
def redValue (kind : Nat) (vs : List Val) : Nat × Nat × Nat :=
  match kind with
  | 0 => match chunkRound vs with
    | some (c, f) => (c, 0, if f then 1 else 0)
    | none => (0, 0, 0)
  | 3 =>
    let cs := vs.map fun v => convElem 0 v
    let (sa, fl) := (cs.countP (·.sat), cs.countP (·.flush))
    match cs with
    | [] => (0, 0, 0)
    | c :: rest =>
      let (x, f) := rest.foldl (fun (acc : Nat × Nat) y =>
        let r := roundArith ((fp32 acc.1).mul (fp32 y.enc))
        (r.1, acc.2 + if r.2 then 1 else 0)) (c.enc, fl)
      (x, sa, f)
  | k => match vs with
    | [] => (0, 0, 0)
    | v :: rest =>
      let c := convElem 0 (rest.foldl (fun a y => a.pick (k == 1) y) v)
      (c.enc, if c.sat then 1 else 0, if c.flush then 1 else 0)

/-- The accumulator after RED of a tile, with its counts. -/
def redAcc (sub : Nat) (a : Tile) (acc : Acc) : Acc × ACnt :=
  let cols := bit sub 0
  let kind := bits sub 3 1
  let res := (List.range 32).map fun i =>
    redValue kind ((List.range 32).map fun j => if cols then a.val j i else a.val i j)
  let keep := if cols then a.hdr.vcols else a.hdr.vrows
  let data := (List.range 1024).map fun ix =>
    let (i, j) := (ix / 32, ix % 32)
    if cols then (if i = 0 then (res.getD j (0, 0, 0)).1 else acc.at i j)
    else (if j = 0 then (res.getD i (0, 0, 0)).1 else acc.at i j)
  let inside := res.take keep
  ({ vrows := if cols then 1 else a.hdr.vrows, vcols := if cols then a.hdr.vcols else 1, trow := a.hdr.trow,
     tcol := a.hdr.tcol, poison := badTile a, data := data },
   ⟨(inside.map (·.2.1)).foldl (· + ·) 0, (inside.map (·.2.2)).foldl (· + ·) 0, 0, 0⟩)

def execRed (core : Nat) (s : State) : Res :=
  s.fireStep core 0x06 fun t w tiles s => match tiles with
    | [a] =>
      let (_, cnt) := redAcc w.sub a (t.x.accs.getD w.acc Acc.empty)
      (s.setAcc core w.acc false fun acc => (redAcc w.sub a acc).1).countArith t.x cnt
    | _ => s

/-! ### CVT, EMIT, MOVE, DROP -/

/-- CSCALE of a CVT output (R149). -/
def cvtScale (h : TileHdr) : Nat := if (h.scheme == 2 || h.scheme == 3) && !h.badScale then h.cscale else fp32One

def execCvt (core : Nat) (s : State) : Res :=
  s.fireStep core 0x07 fun t w tiles s => match tiles with
    | [a] =>
      let (tile, cnt) := makeTile w.ofmt w.osch a.hdr.vrows a.hdr.vcols a.hdr.trow a.hdr.tcol (cvtScale a.hdr) (badTile a) a.val
      (s.countArith t.x cnt).pushOqs core w.outs tile
    | _ => s

def execEmit (core : Nat) (s : State) : Res :=
  s.fireStep core 0x08 fun t w _ s =>
    let a := t.x.accs.getD w.acc Acc.empty
    let (tile, cnt) := makeTile w.ofmt w.osch a.vrows a.vcols a.trow a.tcol fp32One a.poison fun i j => fp32 (a.at i j)
    (s.countArith t.x cnt).pushOqs core w.outs tile

def execMove (core : Nat) (s : State) : Res :=
  s.fireStep core 0x09 fun _ w tiles s => match tiles with
    | [a] => s.pushOqs core w.outs a
    | _ => s

def execDrop (core : Nat) (s : State) : Res := s.fireStep core 0x0A fun _ _ _ s => s

/-! ### Control steps -/

/-- ONEOS (R80). -/
def execOneos (core : Nat) (s : State) : Res :=
  match s.stepOf core 0x10 with
  | none => .next s
  | some (t, w) =>
    let heads := w.ins.map t.head
    let eos := heads.map fun h => (h.map fun x => x.hdr.kind) == some 1
    if !heads.all (·.isSome) then .next s
    else if eos.all id then .next ((s.popIqs core w.ins).goto t w.tgt)
    else if eos.any id then .next (s.lenMismatch t)
    else .next (s.goto t (t.x.pc + 1))

def execJump (core : Nat) (s : State) : Res :=
  match s.stepOf core 0x11 with
  | some (t, w) => .next (s.goto t w.tgt)
  | none => .next s

def execLdc (core : Nat) (s : State) : Res :=
  match s.stepOf core 0x12 with
  | some (t, w) =>
    .next ((s.modCore core fun x => { x with loops := x.loops.set (w.imm % 4) (256 * w.repeat_ + w.sub + 1) }).goto t (t.x.pc + 1))
  | none => .next s

/-- LOOP: the counter less one; from zero, whose predecessor the manual does not give, a free value. -/
def execLoop (core : Nat) (s : State) : Res :=
  match s.stepOf core 0x13 with
  | some (t, w) =>
    let c := t.x.loops.getD (w.imm % 4) 0
    let (n, s0) := if c = 0 then (let d := s.draw; (d.1.toNat % 2 ^ 17, d.2)) else (c - 1, s)
    let s1 := s0.modCore core fun x => { x with loops := x.loops.set (w.imm % 4) n }
    .next (s1.goto t (if n = 0 then t.x.pc + 1 else w.tgt))
  | none => .next s

/-- The phase token in force after one at a tick: of two at one tick, the one whose entry has the faster OP_PREF (R291). -/
def Inv.withPhase (v : Inv) (pref : Nat → Nat) (ph tick : Nat) : Inv :=
  if v.phaseAt == some tick && pref v.phaseTok < pref ph then v else { v with phaseTok := ph, phaseAt := some tick }

/-- PHASE (R291): the token is in force for the invocation from this tick. -/
def execPhase (core : Nat) (s : State) : Res :=
  match s.stepOf core 0x15 with
  | some (t, w) =>
    let s1 := s.modInv t.i.id fun v => v.withPhase s.pwr.opPref (w.imm % 16) s.elapsed
    .next ((s1.trace 6 t.c.id (leBytes 1 (w.imm % 16) ++ zeros 1 ++ leBytes 2 t.x.station)).goto t (t.x.pc + 1))
  | none => .next s

/-- An end-of-stream on an output queue: AUX and SEQ hold the data and index tiles sent (Table 4.3, Table 4.6). -/
def State.pushEos (s : State) (t : Site) (q : Nat) : State :=
  match t.router q with
  | some (p, _) => s.modPoint t.i.id p fun x => { x with eos := insSorted x.eos t.x.idx }
  | none =>
    let n := t.x.sent.getD q 0
    let stream := if qBind (t.st.oq q) = 1 then t.im.streamFrom t.x.idx q else 0
    s.modCore t.x.idx fun x => { x with oqs := x.oqs.modify q (· ++ [eosTile t.c.id t.x.epoch stream n n (t.st.oq q)]) }

def execEosout (core : Nat) (s : State) : Res :=
  match s.stepOf core 0x16 with
  | some (t, w) =>
    if w.outs.all t.roomIn then .next ((w.outs.foldl (fun s q => s.pushEos t q) s).goto t (t.x.pc + 1)) else .next s
  | none => .next s

/-- END (R81). -/
def execEndStep (core : Nat) (s : State) : Res :=
  match s.stepOf core 0x17 with
  | some _ => .next (s.modCore core fun x => { x with ended := true, rep := 0 })
  | none => .next s

/-! ### The Ticket rail (R90, R91) -/

/-- The next request number of a core on a rail. -/
def Core.ticketNo (x : Core) (rail : Nat) : Nat := ((x.ticketNos.find? fun p => p.1 == rail).map (·.2)).getD 0

/-- A request with a fresh number goes to the holding core; the step waits for the reply. -/
def execTicket (core : Nat) (s : State) : Res :=
  match s.stepOf core 0x14 with
  | some (t, w) =>
    let rail := w.imm % 16
    let no := (t.x.ticketNo rail + 1) % 256
    let s1 := s.modCore core fun x => { x with
      ticket := some ⟨rail, no, none⟩
      ticketNos := (x.ticketNos.filter fun p => p.1 != rail) ++ [(rail, no)] }
    .next (s1.sendService 0 core (((t.im.rails[rail]?).map (·.core)).getD core) (.ticketRequest core rail no))
  | none => .next s

/-- The holding core serves a request that has reached it: a recorded tag gets its recorded value, a new one the counter. A
counter goes on from 2^32 at 0 (log 119). -/
def execTicketRequest (requester rail reqNo : Nat) (s : State) : Res :=
  match s.site requester with
  | none => .next s
  | some t => match t.x.ticket, s.fab.rails.find? fun r => r.inv == t.i.id && r.rail == rail with
    | some q, some r =>
      if q.rail != rail || q.reqNo != reqNo || s.underWay (.ticketRequest requester rail reqNo) != 0 then .next s
      else
        let holder := ((t.im.rails[rail]?).map (·.core)).getD requester
        let reply := fun (v : Nat) (s : State) =>
          (s.modCore requester fun x => { x with ticket := some ⟨rail, reqNo, some v⟩ }).sendService 0 holder requester
            (.ticketReply requester rail reqNo)
        match r.tags.find? fun g => g.1 == requester && g.2.1 == reqNo with
        | some g => .next (reply g.2.2 s)
        | none =>
          let v := r.counter
          let inc := ((t.im.rails[rail]?).map (·.inc)).getD 0
          let r' := { r with counter := (v + inc) % 2 ^ 32
                             tags := (r.tags.filter fun g => g.1 != requester) ++ [(requester, reqNo, v)] }
          .next (reply v (s.modFab fun f => { f with rails := f.rails.map fun x =>
            if x.inv == r.inv && x.rail == rail then r' else x }))
    | _, _ => .next s

/-- A reply waits for the requester, and its packet has arrived. -/
def State.replyAt (s : State) (x : Core) : Option Nat :=
  x.ticket.bind fun q => if s.underWay (.ticketReply x.idx q.rail q.reqNo) = 0 then q.reply else none

/-- The reply has reached the requester: below the limit TK is written, otherwise the step branches. -/
def execTicketReply (requester : Nat) (s : State) : Res :=
  match s.site requester with
  | none => .next s
  | some t => match s.replyAt t.x, (t.im.stepProg? t.st.stepProg).bind fun ws => ws[t.x.pc]? with
    | some v, some word =>
      let w := SW.of word.toNat
      let pool := ((t.x.engines[bits w.sub 3 2]?).map (·.pool)).getD []
      let limit := (pool.getD (w.imm / 16) 0).toNat % 2 ^ 32
      let tk := w.sub % 4
      let s1 := s.modCore requester fun x => { x with ticket := none }
      if v < limit then
        .next ((s1.modCore requester fun x => { x with
          tickets := x.tickets.set tk v, drawn := x.drawn.modify tk fun d => (d.1 + 1, d.2) }).goto t (t.x.pc + 1))
      else .next (s1.goto t w.tgt)
    | _, _ => .next s

end Sys2Proof.Machine
end

