-- ==== Sys2Proof/Machine/Fabric.lean ====
section
/-! DEFINITION. The fabric (05_fabric.md): tiles sent and arriving (R102, R121), chains (R115), credits, spill (R117-R120),
service packets (R112). -/

namespace Sys2Proof.Machine

/-- Units of 64 bytes a tile takes (Table 5.1). -/
def flitsOf (t : Tile) : Nat :=
  if t.hdr.kind = 1 || t.hdr.kind = 2 then 1 else ceilDiv (32 + tileBytes t.hdr.fmt t.hdr.scheme) 64

/-! ### Sending -/

/-- Put a tile onto every channel of an output queue, each for one credit. -/
def State.launchTile (s : State) (hs : List Chan) (t : Tile) : State :=
  hs.foldl (fun s h => s.modChan h.id fun k =>
    { k with credits := k.credits - 1, flight := k.flight ++ [t], nextSeq := k.nextSeq + 1 }) s

/-- The channel of an output queue that holds its spill queue: its first. -/
def State.spillChan (s : State) (x : Core) (q : Nat) : Option Chan := (s.outChans x q).head?

/-- Remove the head of an output queue. -/
def State.popOq (s : State) (core q : Nat) : State := s.modCore core fun x => { x with oqs := x.oqs.modify q (·.drop 1) }

/-- The head of an output queue starts onto its route when every consumer's credit is held and the stream is not in spill. -/
def execTileSend (core oq : Nat) (s : State) : Res :=
  match s.core? core with
  | none => .next s
  | some x => match (x.oqs.getD oq []).head?, s.spillChan x oq with
    | some t, some h =>
      let hs := s.outChans x oq
      s.when (s.running && credited hs && !h.spilling)
        (((s.popOq core oq).launchTile hs t).countCore x { StCnt.zero with tilesOut := 1 })
    | _, _ => .next s

/-! ### Chains (R115) -/

/-- A credit travels back from the consumer to the producer; a link with one may forward (R102, R115). -/
def execCreditReturn (ch : ChanId) (s : State) : Res :=
  match s.chan? ch with
  | some h => s.when (s.running && 0 < h.owed)
      ((s.modChan ch fun k => { k with owed := k.owed - 1, credits := k.credits + 1 }).forward h)
  | none => .next s

/-! ### Arrival (R70, R73, R74, R81, R121, R126) -/

/-- A tile that failed its CRC on a hop is remembered; sixteen within 100,000,000 ticks are a fabric fault (R320). -/
def State.crcFailed (s : State) (hop : Element) (ctx : Nat) : State :=
  let log := (s.fab.crcLog.filter fun p => s.elapsed ≤ p.2 + 100000000) ++ [(hop, s.elapsed)]
  let s1 := s.modFab fun f => { f with crcLog := log }
  if 16 ≤ (log.filter fun p => p.1 == hop).length then s1.fabricFault hop (some ctx) else s1

/-- A tile dropped with its context faulting, counted in the receiving station's record. -/
def State.dropTile (s : State) (x : Core) (ctx : Nat) (d : StCnt) : State := (s.countCore x d).tearDown ctx .fault

/-- Hops from a root to one destination of its tree (R113). -/
def branchHops (root dst row0 nrows : Nat) : List (Nat × Nat) :=
  let spine := min (max (coreRow root) row0) (row0 + nrows - 1)
  hopsV (coreCol root) (coreRow root) spine ++ hopsH spine (coreCol root) (coreCol dst) ++ hopsV (coreCol dst) spine (coreRow dst)

/-- Branches of a tree beyond a hop, that of the channel itself apart, on which a tile has not arrived yet (R116). -/
def State.beyond (s : State) (g : Cfg) (h : Chan) (hop : Element) (seq : Nat) : List Chan :=
  match (g.image.streams[h.id.stream]?).bind fun t => g.image.station? t.dst with
  | some d => s.fab.chans.filter fun k =>
      k.id.ctx == h.id.ctx && k.id.handle == h.id.handle && k.id.stream == h.id.stream && k.id != h.id && !k.link &&
        (k.flight.any fun t => t.hdr.kind != 2 && t.hdr.seq == seq) &&
        (branchHops k.src k.dst d.rect.row0 d.rect.nrows).any fun p =>
          let n := s.grid.neighbour hop.index hop.dir
          (p.1 == hop.index && p.2 == n) || (p.2 == hop.index && p.1 == n)
  | none => []

/-- A tile that a tree hop spoiled reaches every destination beyond the hop poisoned; each counts its CRC failure. -/
def State.spoilBeyond (s : State) (g : Cfg) (x : Core) (h : Chan) (hop : Element) (seq : Nat) : State :=
  (s.beyond g h hop seq).foldl (fun s k =>
    (s.modChan k.id fun c => { c with flight := c.flight.map fun t =>
      if t.hdr.kind != 2 && t.hdr.seq == seq then ({ t with hdr := { t.hdr with poison := true } } : Tile).sealed else t }).countCore x
      { StCnt.zero with crcErrors := 1 }) s

/-- A tree hop that spoiled a tile: the tree is rebuilt as a chain before the next launch, and the running invocation
completes OK_POISONED (R116). -/
def State.degrade (s : State) (g : Cfg) (x : Core) (h : Chan) (hop : Element) : State :=
  let ch := h.id
  if ((g.image.streams[ch.stream]?).map (·.kind)) == some 2 && !g.chains.contains ch.stream then
    let s1 := (s.spoilBeyond g x h hop h.expSeq).modCfg ch.ctx ch.handle fun g =>
      { g with degraded := if g.degraded.contains ch.stream then g.degraded else g.degraded ++ [ch.stream] }
    match x.inv with
    | some i => s1.modInv i fun v => { v with poisonSeen := true }
    | none => s1
  else s

/-- Enter a tile into a destination's queue, or keep it out of the queue; on a chain it also waits for the next link. -/
def State.deliver (s : State) (h : Chan) (x : Core) (t : Tile) (enter : Bool) : State :=
  let ts := x.iqs.getD h.dstQ []
  let ts' := if enter then ts ++ [t] else ts
  let before := s.occupied h ts
  let s1 := s.modCore x.idx fun x => { x with iqs := x.iqs.set h.dstQ ts' }
  let s2 := match s.onward h with
    | some l => s1.modChan l.id fun l => { l with fwd := l.fwd ++ [t] }
    | none => s1
  -- the entry the tile does not keep is free again
  let s3 := s2.modChan h.id fun k => { k with owed := k.owed + (before + 1 - s2.occupied h ts') }
  match s.onward h with
  | some l => s3.forward l
  | none => s3

/-- Invocation and station of a channel's destination where that station is gated (09_serving.md R225). -/
def State.gatedAt (s : State) (h : Chan) : Option (Nat × Nat) :=
  (s.fab.invs.find? fun i => i.phase == .running && i.ctx == h.id.ctx && i.handle == h.id.handle).bind fun i =>
    ((s.imageOf h.id.ctx h.id.handle).bind fun im => im.stationOf h.dst).bind fun k =>
      if i.gated.contains k then some (i.id, k) else none

/-- Checks of a tile that is not dropped for its tag or CRC; `t` has the header it enters with. One that reaches a gated
station is discarded, counted there, and its credit returned. A fence is held against the core's epoch by AUX, the old epoch it
closes, since its EPOCH is the new one (R122, R126; DEDUCED, log 146). -/
def State.enterTile (s : State) (h : Chan) (x : Core) (st : Station) (t : Tile) (hop : Element) : State :=
  let k := t.hdr.kind
  match s.gatedAt h with
  | some (i, n) => (s.count (some i) n { StCnt.zero with lateDiscards := 1 }).deliver h x t false
  | none =>
  if 5 ≤ k then s.dropTile x h.id.ctx { StCnt.zero with formatDrops := 1 }
  else if k = 3 then s.deliver h x t false
  else if (if k = 2 then t.hdr.aux else t.hdr.epoch) != x.epoch then s.dropTile x h.id.ctx { StCnt.zero with staleDrops := 1 }
  else if k != 2 && t.hdr.seq != h.expSeq then s.fabricFault hop (some h.id.ctx)
  else
    let s1 := if k = 2 then s else s.modChan h.id fun c => { c with expSeq := c.expSeq + 1 }
    if x.ended && k != 2 then (s1.countCore x { StCnt.zero with lateDiscards := 1 }).deliver h x t false
    else if k != 1 && k != 2 && (t.hdr.fmt + 16 * t.hdr.scheme) != st.iq h.dstQ % 64 then
      s1.dropTile x h.id.ctx { StCnt.zero with formatDrops := 1 }
    else s1.deliver h x t true

/-- The oldest tile on its way is ejected: as it was sent, or as `rx` with the hop that spoiled it. -/
def State.arrive (s : State) (h : Chan) (g : Cfg) (x : Core) (st : Station) (sent : Tile) (rx : Option Tile) (hop : Element) :
    State :=
  let t := rx.getD sent
  let s1 := s.modChan h.id fun k => { k with flight := k.flight.drop 1 }
  if t.crcOk then
    if t.hdr.stream != h.id.stream || t.hdr.ctx != h.id.ctx then s1.dropTile x h.id.ctx { StCnt.zero with crcErrors := 1 }
    else s1.enterTile h x st t hop
  else if t.hdr.kind = 1 || t.hdr.kind = 2 then
    (s1.dropTile x h.id.ctx { StCnt.zero with crcErrors := 1 }).crcFailed hop h.id.ctx
  else
    let y := ({ t with hdr := { t.hdr with poison := true, stream := h.id.stream, ctx := h.id.ctx, seq := h.expSeq } } :
      Tile).sealed
    let s2 := ((s1.countCore x { StCnt.zero with crcErrors := 1 }).degrade g x h hop).enterTile h x st y hop
    s2.crcFailed hop h.id.ctx

def execTileArrival (ch : ChanId) (rx : Option Tile) (hop : Element) (s : State) : Res :=
  match s.chan? ch with
  | none => .next s
  | some h => match h.flight.head?, s.ctx? ch.ctx, s.cfg? ch.ctx ch.handle with
    | some sent, some c, some g =>
      -- a core that runs nothing takes on the configuration the tile belongs to
      let s1 := match s.core? h.dst with
        | some x => if x.occupant == some c.uid then some s else s.hold c g h.dst
        | none => s.hold c g h.dst
      match s1 with
      | none => .next s
      | some s1 => match s1.core? h.dst, (g.image.stationOf h.dst).bind g.image.station? with
        | some x, some st => s.when (s.running && (rx.isNone || hop.kind < 3)) (s1.arrive h g x st sent rx hop)
        | _, _ => .next s
    | _, _, _ => .next s

/-! ### Spill (R117-R120) -/

/-- A core's current step could fire but for the full output queue `q` (R117). -/
def Site.blockedOn (t : Site) (w : SW) (q : Nat) : Bool :=
  w.outs.contains q && !t.roomIn q && (w.outs.all fun o => o == q || t.roomIn o) &&
    (w.ins.map t.head).all fun h => match h with
      | some x => x.hdr.kind != 1
      | none => false

/-- The current step of a core, whatever its opcode, when the core itself may fire. -/
def State.anyStep (s : State) (core : Nat) : Option (Site × SW) :=
  (s.site core).bind fun t =>
    if t.x.ended || t.x.katDue || t.x.ticket.isSome then none
    else ((t.im.stepProg? t.st.stepProg).bind fun ws => ws[t.x.pc]?).map fun w => (t, SW.of w.toNat)

/-- Every consumer of a stream runs in the producer's epoch, its context's and switched to it, and its station is not held
(08_weights.md R201). -/
def State.consumersReady (s : State) (x : Core) (hs : List Chan) : Bool :=
  hs.all fun h => match s.core? h.dst with
    | some d => d.occupant == x.occupant && d.handle == x.handle && d.epoch == x.epoch &&
      s.switchedTo h.id.ctx h.id.handle h.dst && !((x.inv.bind s.inv?).any fun i => s.stationHeld i d.station)
    | none => false

def State.spillTrace (s : State) (h : Chan) (leave : Bool) : State :=
  s.trace 4 h.src (leBytes 2 h.id.stream ++ leBytes 1 (if leave then 1 else 0) ++ zeros 1 ++ leBytes 4 h.spillCount)

/-- The stall counter of a stream has reached 2^WATCH_LOG2 (R117). -/
def execSpillEntry (ch : ChanId) (s : State) : Res :=
  match s.chan? ch with
  | none => .next s
  | some h => match s.anyStep h.src with
    | none => .next s
    | some (t, w) =>
      let hs := s.outChans t.x h.srcQ
      s.when ((s.spillChan t.x h.srcQ).map (·.id) == some ch && !h.spilling && t.blockedOn w h.srcQ && !credited hs &&
          s.consumersReady t.x hs)
        (((s.modChan ch fun k => { k with spilling := true }).countCore t.x { StCnt.zero with spillEvents := 1 }).spillTrace
          h false)

/-- Bytes of a core's Drip tray in use. -/
def State.dripUsed (s : State) (x : Core) : Nat :=
  ((s.fab.chans.filter fun h => h.src == x.idx && s.chanOf x h).flatMap (·.drip)).foldl
    (fun n t => n + 64 * flitsOf t) 0

/-- Bytes of a core's HBM share in use. -/
def State.shareUsed (s : State) (x : Core) : Nat :=
  ((s.fab.chans.filter fun h => h.src == x.idx && s.chanOf x h).flatMap (·.hbm)).foldl
    (fun n t => n + 64 * flitsOf t) 0

/-- Bytes of tiles on their way back from a core's HBM part to its Drip tray. -/
def State.dripDue (s : State) (x : Core) : Nat :=
  ((s.fab.chans.filter fun h => h.src == x.idx && s.chanOf x h).flatMap fun h =>
    h.hbm.take (s.underWay (.spillBack h.id))).foldl (fun n t => n + 64 * flitsOf t) 0

/-- The Drip tray takes one more tile beside those it holds and those that come back to it. -/
def State.dripRoom (s : State) (x : Core) (im : Image) (t : Tile) : Bool :=
  s.dripUsed x + s.dripDue x + 64 * flitsOf t ≤ 1024 * im.dripKib

/-- Bytes that a spilled tile takes. -/
def spillLen (t : Tile) : Nat := 64 * flitsOf t

/-- The place of a tile in an area of spilled tiles: how they lie there is not laid out, so a free value says where (log 135). -/
def State.spillPlace (s : State) (base size : Nat) (t : Tile) : Nat × State :=
  let (v, s1) := s.draw
  (base + 64 * (v.toNat % ((size - spillLen t) / 64 + 1)), s1)

/-- A tile is written to such an area. -/
def State.putSpilled (s : State) (base size : Nat) (t : Tile) : State :=
  if size < spillLen t then s
  else
    let (k, s1) := s.spillPlace base size t
    s1.scribble k (spillLen t)

/-- A tile is read from such an area: its words are checked, and one that is poisoned makes the tile poisoned
(04_stations_and_streams.md R92, R93; 13_safety_repair_wear.md R316, R317). -/
def State.takeSpilled (s : State) (base size : Nat) (t : Tile) : Tile × State :=
  if size < spillLen t then (t, s)
  else
    let (k, s1) := s.spillPlace base size t
    let s2 := s1.touch k (spillLen t)
    (if s2.poisonedIn k (spillLen t) && t.hdr.kind != 1 && t.hdr.kind != 2 then
      ({ t with hdr := { t.hdr with poison := true } } : Tile).sealed else t, s2)

/-- Key of a core's Drip tray. -/
def dripKey (core : Nat) (im : Image) : Nat := sramKey core + sramBytes - 1024 * im.dripKib

/-- A tile is written to the Drip tray. -/
def State.putDrip (s : State) (x : Core) (im : Image) (t : Tile) : State :=
  s.putSpilled (dripKey x.idx im) (1024 * im.dripKib) t

/-- A tile is read from the Drip tray. -/
def State.takeDrip (s : State) (x : Core) (im : Image) (t : Tile) : Tile × State :=
  s.takeSpilled (dripKey x.idx im) (1024 * im.dripKib) t

/-- A core's way to the HBM edge port of its column: north for rows 0 to 39, south for the others. -/
def Grid.edgeRoute (g : Grid) (core : Nat) : List Element :=
  let dir := if coreRow core < 40 then 0 else 1
  let row := if coreRow core < 40 then 0 else 79
  (hopsV (coreCol core) (coreRow core) row).map g.hopOf ++ [⟨2, coreIx row (coreCol core), dir⟩]

/-- The way back from that port. -/
def Grid.edgeReturn (g : Grid) (core : Nat) : List Element :=
  let dir := if coreRow core < 40 then 0 else 1
  let row := if coreRow core < 40 then 0 else 79
  ⟨2, coreIx row (coreCol core), dir⟩ :: (hopsV (coreCol core) row (coreRow core)).map g.hopOf

/-- A tile of a stream goes over the service slot to its core's HBM part (class 2) or comes back (class 1). -/
def State.spillPacket (s : State) (core : Nat) (ch : ChanId) (back : Bool) : State :=
  if back then s.addService 1 (s.grid.edgeReturn core) core (.spillBack ch)
  else s.addService 2 (s.grid.edgeRoute core) core (.spillOut ch)

/-- One tile into the spill queue (R118, R119). -/
def State.spillTile (s : State) (h : Chan) (x : Core) (im : Image) (t : Tile) : State :=
  let y := ({ t with hdr := { t.hdr with spilled := true } } : Tile).sealed
  let held := h.drip.length + h.hbm.length + 1
  let n := { StCnt.zero with spillTiles := 1, spillPeak := sat 16 held }
  let s1 := (s.popOq x.idx h.srcQ).modChan h.id fun k => { k with spillCount := satAdd 32 k.spillCount 1 }
  if h.hbm.isEmpty && s.dripRoom x im t then
    ((s1.modChan h.id fun k => { k with drip := k.drip ++ [y] }).countCore x n).putDrip x im y
  else if s.shareUsed x + 64 * flitsOf t ≤ 65536 then
    let s2 := ((s1.modChan h.id fun k => { k with hbm := k.hbm ++ [y] }).countCore x { n with spillHbm := 1 }).spillPacket
      x.idx h.id false
    match s.shareKey h.id.ctx h.id.handle im x.idx with
    | some k => s2.putSpilled k 65536 y
    | none => s2
  else s.tearDown h.id.ctx .deadlock

def execSpillOut (ch : ChanId) (s : State) : Res :=
  match s.chan? ch with
  | none => .next s
  | some h => match s.core? h.src with
    | none => .next s
    | some x => match (x.oqs.getD h.srcQ []).head?, s.imageOf ch.ctx ch.handle with
      | some t, some im =>
        s.when (s.running && h.spilling && (s.spillChan x h.srcQ).map (·.id) == some ch && !credited (s.outChans x h.srcQ))
          (s.spillTile h x im t)
      | _, _ => .next s

/-- The oldest tile of a stream's HBM part that has reached it and is not called back yet, if its packet has arrived. -/
def State.nextBack (s : State) (h : Chan) : Option Tile :=
  let back := s.underWay (.spillBack h.id)
  if back < h.hbm.length - s.underWay (.spillOut h.id) then h.hbm[back]? else none

/-- HBM tiles are called back while the Drip tray has room. -/
def State.refill : Nat → ChanId → Core → Image → State → State
  | 0, _, _, _, s => s
  | fuel + 1, ch, x, im, s => match (s.chan? ch).bind s.nextBack with
    | some t => if s.dripRoom x im t then State.refill fuel ch x im (s.spillPacket x.idx ch true) else s
    | none => s

/-- The streams of a core in turn. -/
def State.refillCore (s : State) (x : Core) (im : Image) : State :=
  (s.fab.chans.filter fun h => h.src == x.idx && s.chanOf x h && !h.hbm.isEmpty).foldl
    (fun s h => s.refill h.hbm.length h.id x im) s

/-- A stream with an empty spill queue leaves spill. -/
def State.leaveSpill (s : State) (ch : ChanId) : State :=
  match s.chan? ch with
  | some h =>
    if h.drip.isEmpty && h.hbm.isEmpty then (s.modChan ch fun k => { k with spilling := false }).spillTrace h true else s
  | none => s

/-- With a credit held, the head of the spill queue goes first, from the Drip tray. A tile that has no room there, for the tray
is too small for it, is called back when the stream holds a credit. -/
def execSpillReturn (ch : ChanId) (s : State) : Res :=
  match s.chan? ch with
  | none => .next s
  | some h => match s.core? h.src, s.imageOf ch.ctx ch.handle with
    | some x, some im =>
      let hs := s.outChans x h.srcQ
      if !(s.running && h.spilling && (s.spillChan x h.srcQ).map (·.id) == some ch && credited hs) then .next s
      else match h.drip with
        | t :: rest =>
          let (y, s0) := s.takeDrip x im t
          -- a word of the tray that fails its core ends the invocation
          if (s0.chan? ch).isNone then .next s0 else
          let s1 := ((s0.modChan ch fun k => { k with drip := rest }).launchTile hs y).countCore x { StCnt.zero with tilesOut := 1 }
          .next ((s1.refillCore x im).leaveSpill ch)
        | [] => .next (if s.underWay (.spillBack ch) = 0 && (s.nextBack h).isSome then s.spillPacket x.idx ch true
            else s.leaveSpill ch)
    | _, _ => .next s

/-! ### Service packets (R112) -/

/-- A packet has reached the end of its way. A tile that comes back stands in the Drip tray; one that has reached the HBM part
may be called back. The Ticket rail's request and reply are served by rows of their own. -/
def State.serviceArrives (s : State) (p : SvcPkt) : State :=
  match p.load with
  | .spillBack ch =>
    match s.chan? ch, s.core? p.core, s.imageOf ch.ctx ch.handle with
    | some h, some x, some im => match h.hbm with
      | t :: rest =>
        let (y, s1) := match s.shareKey ch.ctx ch.handle im x.idx with
          | some k => s.takeSpilled k 65536 t
          | none => (t, s)
        (s1.modChan ch fun k => { k with drip := k.drip ++ [y], hbm := rest }).putDrip x im y
      | [] => s
    | _, _, _ => s
  | .spillOut ch =>
    match s.core? p.core, s.imageOf ch.ctx ch.handle with
    | some x, some im => s.refillCore x im
    | _, _ => s
  | _ => s

/-- The packet whose turn it is on its hop passes it: on to its next hop, or to the end of its way, where it is acknowledged.
One whose CRC fails there is dropped and counted. -/
def execServicePacketReceive (id : Nat) (crcOk : Bool) (s : State) : Res :=
  match s.fab.svc.find? fun p => p.id == id with
  | none => .next s
  | some p =>
    if !(s.running && s.nextService p.hop == some id) then .next s
    else
      let s1 := s.passOver id p.hop
      let mod := fun (g : SvcPkt → SvcPkt) => s1.modFab fun f => { f with svc := f.svc.map fun x => if x.id == id then g x else x }
      if !crcOk then
        .next ((mod fun x => { x with waiting := false, passed := 0 }).modFab fun f => { f with svcDrops := satAdd 32 f.svcDrops 1 })
      else if p.pos + 1 < p.route.length then .next (mod fun x => { x with pos := x.pos + 1, passed := 0 })
      else .next ((s1.modFab fun f => { f with svc := f.svc.filter fun x => x.id != id }).serviceArrives p)

/-- Context of the invocation on a core. -/
def State.ctxOn (s : State) (core : Nat) : Option Nat := (((s.core? core).bind (·.inv)).bind s.inv?).map (·.ctx)

/-- A packet is sent again: one that was dropped starts anew. -/
def SvcPkt.again (p : SvcPkt) : SvcPkt :=
  { p with repeats := p.repeats + 1, waiting := true, pos := if p.waiting then p.pos else 0 }

/-- No acknowledgement for 256 frames: the packet is repeated from its first hop; after eight repeats the hop that it did not
pass is a fabric fault. -/
def execServicePacketRepeat (id : Nat) (s : State) : Res :=
  match s.fab.svc.find? fun p => p.id == id with
  | none => .next s
  | some p =>
    if !s.running then .next s
    else if p.repeats < 8 then
      .next (s.modFab fun f => { f with svc := f.svc.map fun x => if x.id == id then x.again else x })
    else
      .next ((s.modFab fun f => { f with svc := f.svc.filter fun x => x.id != id }).fabricFault p.hop (s.ctxOn p.core))

end Sys2Proof.Machine
end

