-- ==== Sys2Proof/Machine/Identity.lean ====
section
/-! DEFINITION. Control firmware images, identity, attestation and SPDM (14_boot_and_identity.md R343-R350), and the DOE
mailbox (15_registers.md R355). -/

namespace Sys2Proof.Machine

/-! ### FW_LOAD (R343-R345, Tables 14.6, 14.12) -/

def checkFwLoad (e : Env) (image : U64) (len : U32) (s : State) : Option Status :=
  firstFail (s.ptrChecks e image.toNat len.toNat ++ [(decide (len.toNat ≤ 64 * 2 ^ 20), Status.badSize)])

/-- Offset of the first header field that breaks Table 14.6, checked in the order of R344 step 1. -/
def fwHeaderBad (bs : List Byte) : Option Nat :=
  let checks : List (Bool × Nat) :=
    [(512 ≤ bs.length, 12), (fieldAt bs 0 4 == 0x31574643, 0), (fieldAt bs 4 2 == 1, 4), (allZero (slice bs 6 2), 6),
     (allZero (slice bs 24 40), 24), (allZero (slice bs 304 208), 304), (fieldAt bs 8 4 != 0, 8),
     (fieldAt bs 12 4 != 0 && fieldAt bs 12 4 % 64 == 0, 12), (fieldAt bs 16 4 == 0 || fieldAt bs 16 4 == 256, 16),
     (bs.length == 512 + fieldAt bs 12 4 + fieldAt bs 16 4, 12)]
  (checks.find? fun c => !c.1).map (·.2)

/-- A minimum-version record that travels with an image is valid (R345). -/
def State.minRecordOk (s : State) (rec : List Byte) (version : Nat) : Bool :=
  vendorSigned rec && bit (fieldAt rec 36 4) 4 && fieldAt rec 5 1 == 0 && allZero (slice rec 20 12) && allZero (slice rec 48 112) &&
    (fieldAt rec 40 8 == 0 || fieldAt rec 40 8 == s.serialDigest.toNat) && fieldAt rec 32 4 ≤ version

/-- The first check of R344 that an image fails: code of Table 14.5 and detail. -/
def State.imageFail (s : State) (bs : List Byte) : Option (Nat × Nat) :=
  match fwHeaderBad bs with
  | some off => some (0x0501, off)
  | none =>
    let key := slice bs 112 96
    let body := (bs.drop 512).take (fieldAt bs 12 4)
    let rec_ := bs.drop (512 + fieldAt bs 12 4)
    if !bit (fieldAt bs 20 4) 4 then some (0x0507, 0)
    else if sha384 key != Config.vendorKeyHash then some (0x0502, 0)
    else if !ecdsaVerify (BitVec.ofNat 768 (beNat key)) (BitVec.ofNat 768 (beNat (slice bs 208 96))) (sha384 (bs.take 112)) then
      some (0x0503, 0)
    else if sha384 body != digestAt bs 64 then some (0x0504, 0)
    else if fieldAt bs 8 4 < s.boot.minVersion then some (0x0505, 0)
    else if fieldAt bs 16 4 == 256 && !s.minRecordOk rec_ (fieldAt bs 8 4) then some (0x0506, 0)
    else none

/-- A record that raises the minimum is written to flash; a write that fails leaves the minimum and warns (R345). -/
def State.raiseMinimum (s : State) (rec : List Byte) : State :=
  if rec.isEmpty || fieldAt rec 32 4 ≤ s.boot.minVersion then s
  else
    let (fails, s1) := s.flashFails
    if fails then s1.modBoot fun b => { b with warnMinver := true }
    else (s1.flashWrite 3 (rec.drop 32)).modBoot fun b => { b with minVersion := fieldAt rec 32 4 }

/-- At stage 9 firmware changes only by reset. A refused image leaves its code; an accepted one waits for its start,
with which the command completes. -/
def startFwLoad (e : Env) (image : U64) (len : U32) (id : Nat) (s : State) : State :=
  if s.boot.stage = 9 then s.finish id .wrongState
  else
    let k := s.keyAt e image.toNat len.toNat true false
    let s := s.touch k len.toNat
    let bs := s.readBytes k len.toNat
    match s.imageFail bs with
    | some (code, detail) =>
      (s.modBoot fun b => { b with code := code, detail := detail, errStage := b.stage }).finish id .fwRejected
    | none =>
      (s.raiseMinimum (bs.drop (512 + fieldAt bs 12 4))).modBoot fun b =>
        { b with code := 0, accepted := some ⟨fieldAt bs 8 4, sha384 bs, id⟩ }

def execFwLoad (e : Env) (image : U64) (len : U32) (s : State) : Res :=
  command (.fwLoad e image len) e (checkFwLoad e image len) (fun _ => len == 0) (startFwLoad e image len) s

/-! ### ID_QUERY, ATTEST, FLASH_RECORD_READ (R347-R349) -/

def State.grade (s : State) : Nat := gradeOf s.grid.retiredAll

def startIdQuery (id : Nat) (s : State) : State :=
  s.finish id .ok (leBytes 8 s.serialDigest.toNat ++ leBytes 1 s.boot.shipGrade ++ leBytes 1 s.grade)

def execIdQuery (e : Env) (s : State) : Res :=
  command (.idQuery e) e (fun _ => none) (fun _ => false) startIdQuery s

/-- The attestation key's signature over a byte string, as 96 bytes (R348). -/
def signed384 (bs : List Byte) : List Byte := beBytes 96 (Config.attestSign (sha384 bs)).toNat

/-- SHA-384 of the present repair record body. -/
def State.repairDigest (s : State) : List Byte := digestBytes (sha384 s.repairBody)

/-- The attestation report (Table 14.10). -/
def State.attestReport (s : State) (nonce : BitVec 256) : List Byte :=
  let body := leBytes 4 0x31545441 ++ leBytes 2 1 ++ leBytes 1 s.grade ++ leBytes 1 s.boot.shipGrade ++
    leBytes 8 s.serialDigest.toNat ++ leBytes 4 s.boot.cfwVersion ++ leBytes 4 s.boot.minVersion ++ leBytes 8 s.now ++
    leBytes 32 nonce.toNat ++ (if s.boot.stage = 9 then digestBytes s.boot.imageDigest else zeros 48) ++ s.repairDigest
  body ++ signed384 body

/-- A destination and its length: stage-4 checks of a command that writes `least` bytes or refuses. -/
def State.bufferChecks (s : State) (e : Env) (dst len least : Nat) : List (Bool × Status) :=
  [((s.addr e dst len false true).isSome, .badParam), (len == 0 || decide (least ≤ len), .badSize)]

def startAttest (e : Env) (dst : U64) (nonce : BitVec 256) (len : U32) (id : Nat) (s : State) : State :=
  (s.writeBytes (s.keyAt e dst.toNat len.toNat false true) (s.attestReport nonce)).finish id .ok (leBytes 4 256)

def checkAttest (e : Env) (dst : U64) (len : U32) (s : State) : Option Status :=
  firstFail (s.bufferChecks e dst.toNat len.toNat 256)

def execAttest (e : Env) (dst : U64) (len : U32) (nonce : BitVec 256) (s : State) : Res :=
  command (.attest e dst len nonce) e (checkAttest e dst len) (fun _ => len == 0)
    (startAttest e dst nonce len) s

def checkFlashRecordRead (e : Env) (type : Byte) (dst : U64) (maxLen : U32) (s : State) : Option Status :=
  let len := ((s.flashRecord type.toNat).map (·.length)).getD 0
  firstFail ((1 ≤ type.toNat && type.toNat ≤ 5, Status.badParam) :: s.bufferChecks e dst.toNat maxLen.toNat len)

/-- The valid copy whole, unless it has grown beyond the maximum length since fetch (R347); with no valid copy the state of
the record refuses it (log 53). -/
def startFlashRecordRead (e : Env) (type : Byte) (dst : U64) (maxLen : U32) (id : Nat) (s : State) : State :=
  match s.flashRecord type.toNat with
  | some bs =>
    if maxLen.toNat < bs.length then s.finish id .badSize
    else (s.writeBytes (s.keyAt e dst.toNat maxLen.toNat false true) bs).finish id .ok (leBytes 4 bs.length)
  | none => s.finish id .wrongState

def execFlashRecordRead (e : Env) (type : Byte) (dst : U64) (maxLen : U32) (s : State) : Res :=
  command (.flashRecordRead e type dst maxLen) e (checkFlashRecordRead e type dst maxLen) (fun _ => maxLen == 0)
    (startFlashRecordRead e type dst maxLen) s

/-! ### SPDM (R350, R351) -/

/-- The transport answers: the DOE mailbox while the module is out of reset, MCTP once it has an address, from stage 3. -/
def State.spdmOpen (s : State) (via : Via) : Bool :=
  match via with
  | .doe => s.alive && !s.configBusy
  | .mctp => s.alive && 3 ≤ s.boot.stage && s.side.dynAddr.isSome

/-- ERROR codes of DSP0274: Busy, InvalidRequest, UnsupportedRequest (log 54). -/
def spdmBusy : Nat := 0x03
def spdmInvalid : Nat := 0x01
def spdmUnsupported : Nat := 0x07

/-- A request is answered: Busy before stage 4; one through the DOE mailbox, in configuration space, with Retry Status before
stage 3 (R339; log 103). -/
def State.spdmAnswer (s : State) (via : Via) (f : State → State) : Res :=
  if via = .doe && s.alive && s.configBusy then .next (s.send .configRetry)
  else if !s.spdmOpen via then .next s
  else if s.boot.stage < 4 then .next (s.send (.spdm via "ERROR" spdmBusy []))
  else .next (f s)

def execGetVersion (via : Via) (s : State) : Res :=
  s.spdmAnswer via fun s => s.send (.spdm via "VERSION" 1 [0x00, 0x12])

/-- CERT_CAP, CHAL_CAP and MEAS_CAP with signature, by the flag bits of DSP0274 (log 54). -/
def spdmCaps : Nat := 2 ^ 1 + 2 ^ 2 + 2 ^ 4

def execGetCapabilities (via : Via) (s : State) : Res :=
  s.spdmAnswer via fun s => s.send (.spdm via "CAPABILITIES" 0 (leBytes 4 spdmCaps))

/-- Base asymmetric algorithm, base hash and measurement hash, by the bits of DSP0274 (log 54): ECDSA P-384, SHA-384. -/
def spdmAlgorithms : List Byte := leBytes 4 (2 ^ 7) ++ leBytes 4 (2 ^ 1) ++ leBytes 4 (2 ^ 2)

def execNegotiateAlgorithms (via : Via) (s : State) : Res :=
  s.spdmAnswer via fun s => s.send (.spdm via "ALGORITHMS" 0 spdmAlgorithms)

/-- The certificate chain: the body of record type 5. -/
def State.certChain (s : State) : List Byte := ((s.flashRecord 5).map (·.drop 32)).getD []

def execGetDigests (via : Via) (s : State) : Res :=
  s.spdmAnswer via fun s => s.send (.spdm via "DIGESTS" 1 (digestBytes (sha384 s.certChain)))

/-- Slot 0 is the only slot. -/
def State.spdmSlot (s : State) (via : Via) (slot : Byte) (f : State → State) : State :=
  if slot = 0 then f s else s.send (.spdm via "ERROR" spdmUnsupported [])

/-- A portion of the chain; the parameter is the length that remains after it. -/
def execGetCertificate (via : Via) (slot : Byte) (off len : U16) (s : State) : Res :=
  s.spdmAnswer via fun s => s.spdmSlot via slot fun s =>
    let chain := s.certChain
    if chain.length ≤ off.toNat then s.send (.spdm via "ERROR" spdmInvalid [])
    else
      let part := (chain.drop off.toNat).take len.toNat
      s.send (.spdm via "CERTIFICATE" (chain.length - off.toNat - part.length) part)

/-- A nonce of the module and a signature over the transcript: both free, since DSP0274 gives them and this manual does
not; the attestation key signs (log 54). -/
def State.spdmSigned (s : State) (body : List Byte) : List Byte × State :=
  let nonce := leBytes 32 (Config.spdmNonce s.free).toNat
  let (transcript, s1) := s.drawBytes 48
  (body ++ nonce ++ beBytes 96 (Config.attestSign (digestAt transcript 0)).toNat, s1)

def execChallenge (via : Via) (slot : Byte) (_nonce : BitVec 256) (s : State) : Res :=
  s.spdmAnswer via fun s => s.spdmSlot via slot fun s =>
    let (bs, s1) := s.spdmSigned (digestBytes (sha384 s.certChain))
    s1.send (.spdm via "CHALLENGE_AUTH" 0 bs)

/-- A measurement block (Table 14.11); none where it is absent. -/
def State.measurement (s : State) (index : Nat) : Option (List Byte) :=
  match index with
  | 1 => some (digestBytes Config.romDigest)
  | 2 => some (digestBytes (sha384 s.identityRecord))
  | 3 => some (leBytes 4 s.boot.minVersion)
  | 4 => if s.boot.stage = 9 then some (digestBytes s.boot.imageDigest) else none
  | 5 => some s.repairDigest
  | 6 => some (leBytes 1 s.grade)
  | _ => none

/-- The blocks a request names, each with its index: 0 asks for their number only, 0xFF for all (DSP0274; log 54). -/
def State.measurements (s : State) (index : Nat) : Option (List (Nat × List Byte)) :=
  if index = 0 then some []
  else if index = 0xFF then some ((List.range 7).filterMap fun i => (s.measurement i).map fun b => (i, b))
  else (s.measurement index).map fun b => [(index, b)]

/-- How many blocks there are. -/
def State.measurementCount (s : State) : Nat := ((List.range 7).filter fun i => (s.measurement i).isSome).length

def execGetMeasurements (via : Via) (slot index : Byte) (_nonce : BitVec 256) (s : State) : Res :=
  s.spdmAnswer via fun s => s.spdmSlot via slot fun s =>
    match s.measurements index.toNat with
    | none => s.send (.spdm via "ERROR" spdmInvalid [])
    | some bs =>
      let blocks := bs.flatMap fun b => leBytes 1 b.1 ++ leBytes 2 b.2.length ++ b.2
      let (out, s1) := s.spdmSigned blocks
      s1.send (.spdm via "MEASUREMENTS" (if index = 0 then s.measurementCount else bs.length) out)

/-- The protocols the mailbox offers: DOE discovery, then SPDM, under the vendor ID and numbers of PCIe (R355; log 54). -/
def execDoeDiscovery (index : Byte) (s : State) : Res :=
  s.when s.alive (if s.configBusy then s.send .configRetry else match index.toNat with
    | 0 => s.send (.doe 0x0001 0 1)
    | 1 => s.send (.doe 0x0001 1 0)
    | _ => s.send (.doe 0xFFFF 0xFF 0))

end Sys2Proof.Machine
end

