-- ==== Sys2Proof/Machine/HostAccess.lean ====
section
/-! DEFINITION. Host accesses to the event controller and to MSI-X (15_registers.md R359, R360, R364). -/

namespace Sys2Proof.Machine

/-! ### Event controller (R63, R64, R359, R360) -/

def execEvcPendWrite (word : BitVec 1) (value : U64) (s : State) : Res :=
  let w := word.toNat
  s.when s.working (s.evcSet w value (s.evc.mask w))

def execEvcMaskWrite (word : BitVec 1) (value : U64) (s : State) : Res :=
  let w := word.toNat
  s.when s.working (s.evcSet w (s.evc.pend w) value)

/-- Bits of an EVC_ROUTE register that hold vectors (Table 15.10). -/
def routeBits : U64 := 0x3F3F3F3F3F3F3F3F

def execEvcRouteWrite (k : BitVec 4) (value : U64) (s : State) : Res :=
  s.when s.working (s.modEvc fun e => { e with route := e.route.set k.toNat (value &&& routeBits) })

/-- The area of the rings is this module's, in host memory, DDR or HBM, and has room (R360). -/
def State.ringsOk (s : State) (n : Nat) : Bool :=
  let ga := s.evc.ringBase.toNat
  isPow2 n && 16 ≤ n && n ≤ 4096 && s.evc.ringOwn && [0, 1, 3].contains (spaceOf (keyOf ga)) && s.rangeOk (keyOf ga) (128 * 32 * n)

def execEvcRingSizeWrite (value : U64) (s : State) : Res :=
  let n := value.toNat % 8192
  s.when s.working (s.modEvc fun e => { e with ringN := if s.ringsOk n then n else 0 })

/-! ### MSI-X (R364) -/

/-- Address, data and mask bit of an entry after a dword write. -/
def MsixEntry.setDword (e : MsixEntry) (dw : Nat) (v : U32) : MsixEntry :=
  match dw with
  | 0 => { e with addr := (e.addr &&& 0xFFFFFFFF00000000) ||| v.setWidth 64 }
  | 1 => { e with addr := (e.addr &&& 0xFFFFFFFF) ||| (v.setWidth 64 <<< 32) }
  | 2 => { e with data := v }
  | _ => { e with ctrl := v &&& 1 }

def MsixEntry.dword (e : MsixEntry) (dw : Nat) : U32 :=
  match dw with
  | 0 => e.addr.setWidth 32
  | 1 => (e.addr >>> 32).setWidth 32
  | 2 => e.data
  | _ => e.ctrl

def State.setMsix (s : State) (v : Nat) (f : MsixEntry → MsixEntry) : State :=
  s.modCxl fun c => { c with entries := c.entries.modify v f }

/-- The access itself, then the messages that it lets go. -/
def execMsixVectorUnmask (a : MsixAccess) (s : State) : Res :=
  match a with
  | .dword v dw x => s.when s.working (s.setMsix v.toNat fun e => e.setDword dw.toNat x).msixFlush
  | .qword v hi x =>
    let lo := if hi then 2 else 0
    s.when s.working (s.setMsix v.toNat fun e =>
      (e.setDword lo (x.setWidth 32)).setDword (lo + 1) ((x >>> 32).setWidth 32)).msixFlush
  | .control en fm => s.when s.alive (if s.configBusy then s.send .configRetry
      else (s.modCxl fun c => { c with enable := en, functionMask := fm }).msixFlush)

end Sys2Proof.Machine
end

