-- ==== Sys2Proof/Machine/HostMem.lean ====
section
/-! DEFINITION. The module as a CXL device (15_registers.md R355, R356): its function, the component registers with the HDM
decoders, and host accesses through CXL.mem (07_memory_tiers.md R163). -/

namespace Sys2Proof.Machine

/-! ### The function (R355, Table 15.1) -/

/-- A pair of base address registers: a memory BAR and its type. -/
structure Bar where
  size : Nat
  (wide prefetchable : Bool)
  deriving DecidableEq, Repr

/-- The capabilities of the function. -/
inductive PciCap where
  | pcie | msix | deviceDvsec | registerLocator | doe
  deriving DecidableEq, Repr

/-- What the function's configuration space says of it. -/
structure CxlFunction where
  classCode : Nat
  /-- BAR0/1, BAR2/3 and BAR4/5; none for a pair that is not implemented -/
  bars : List (Option Bar)
  caps : List PciCap
  msixVectors : Nat
  /-- BAR0 offset that the Register Locator DVSEC names -/
  component : Nat
  /-- sizes of the memory ranges in the CXL device DVSEC -/
  ranges : List Nat
  deriving DecidableEq, Repr

/-- Class code 0x12_0000; BAR0 of 16 MiB and BAR2 of 256 KiB, both 64-bit and non-prefetchable, no BAR4; 64 vectors; 2 TiB of
HBM and 4 TiB of DDR. -/
def cxlFunction : CxlFunction :=
  { classCode := 0x120000, bars := [some ⟨2 ^ 24, true, false⟩, some ⟨2 ^ 18, true, false⟩, none],
    caps := [.pcie, .msix, .deviceDvsec, .registerLocator, .doe], msixVectors := 64, component := 0x100000,
    ranges := [2 ^ 41, 2 ^ 42] }

/-- Type bits of a memory BAR: bit 2 for 64 bits, bit 3 for prefetchable memory. -/
def Bar.typeBits (b : Bar) : Nat := (if b.wide then 4 else 0) + if b.prefetchable then 8 else 0

/-- What base address register `n` reads after a write of all ones, by which the host sizes it; one that is not implemented reads
zero (Table 15.1). -/
def CxlFunction.barSizing (f : CxlFunction) (n : Nat) : Nat :=
  match f.bars.getD (n / 2) none with
  | some b => if n % 2 = 0 then 2 ^ 32 - b.size + b.typeBits else 2 ^ 32 - 1
  | none => 0

/-- Class code and, in the low byte, a revision that the manual does not give, as the header of the function holds them. -/
def CxlFunction.classWord (f : CxlFunction) (revision : Byte) : Nat := f.classCode * 256 + revision.toNat

/-- The size field of the MSI-X capability: the vectors less one. -/
def CxlFunction.msixSize (f : CxlFunction) : Nat := if f.caps.contains .msix then f.msixVectors - 1 else 0

/-- An access of `n` bytes at an offset reaches a BAR; BAR0 and BAR2 are the ones with registers. -/
def CxlFunction.reaches (f : CxlFunction) (bar off n : Nat) : Bool :=
  bar % 2 == 0 && (f.bars.getD (bar / 2) none).any fun b => off + n ≤ b.size

/-- Bytes a decoder maps: 2 TiB onto HBM, 4 TiB onto DDR. -/
def hdmSize (d : Nat) : Nat := cxlFunction.ranges.getD d 0

/-- A BAR0 offset in the component block. -/
def inComponent (off : Nat) : Bool := cxlFunction.component ≤ off && off < cxlFunction.component + 0x10000

/-! ### Component registers (R356) -/

/-- The decoder and register that an offset of the component block names: 0 base, 8 size, 16 control, in the layout of the HDM
decoder capability of CXL 2.0 (log 110). -/
def hdmReg (off : Nat) : Option (Nat × Nat) :=
  let o := off - cxlFunction.component - Config.hdmBlock - 0x10
  if inComponent off && cxlFunction.component + Config.hdmBlock + 0x10 ≤ off && o < 0x40 && o % 0x20 ≤ 0x10 then
    some (o / 0x20, o % 0x20) else none

/-- Bits of a base or size register that are held: whole 256 MiB. -/
def hdmBits (v : U64) : U64 := v &&& 0xFFFFFFFFF0000000

/-- A commit: at the fixed size and one way the decoder is committed, else Error Not Committed is set. -/
def Cxl.commit (c : Cxl) (d : Nat) (ways : Nat) : Cxl :=
  let ok := (c.hdmLen.getD d 0).toNat == hdmSize d && ways == 1
  { c with hdmCommitted := c.hdmCommitted.set d ok, hdmError := c.hdmError.set d !ok }

/-- A decoder that is not committed takes a base and a size. -/
def Cxl.program (c : Cxl) (d : Nat) (base size : U64) : Cxl :=
  { c with hdmBase := c.hdmBase.set d (hdmBits base), hdmLen := c.hdmLen.set d (hdmBits size) }

/-- Commit is cleared: the decoder is open for programming. -/
def Cxl.uncommit (c : Cxl) (d : Nat) : Cxl :=
  { c with hdmCommitted := c.hdmCommitted.set d false, hdmError := c.hdmError.set d false }

/-- The host programs a decoder and commits it: `ways` interleave ways. -/
def execHdmDecoderCommit (dec : BitVec 1) (base size : U64) (ways : Byte) (s : State) : Res :=
  let d := dec.toNat
  s.when s.working (s.modCxl fun c => (c.program d base size).commit d ways.toNat)

/-- An 8-byte write to the component block: a decoder's registers, or a register whose effect only CXL 2.0 gives: what it holds
then is a free value of the old and the written one (log 66). -/
def State.writeComponent (s : State) (off : Nat) (v : U64) : State :=
  match hdmReg off with
  | some (d, r) => s.modCxl fun c =>
      if r = 16 then (if v.getLsbD 9 then c.commit d (2 ^ bits v.toNat 7 4) else c.uncommit d)
      else if c.hdmCommitted.getD d false then c
      else if r = 0 then { c with hdmBase := c.hdmBase.set d (hdmBits v) }
      else { c with hdmLen := c.hdmLen.set d (hdmBits v) }
  | none =>
    let old := ((s.cxl.component.find? fun x => x.1 == off).map (·.2)).getD (Config.cxlComponent off)
    s.modCxl fun c => { c with component := (c.component.filter fun x => x.1 != off) ++ [(off, Config.cxlWritten off old v)] }

/-- A component register: of a decoder base, size, Commit with Committed and Error Not Committed. -/
def State.componentReg (s : State) (off : Nat) : U64 :=
  match hdmReg off with
  | some (d, r) =>
    if r = 0 then s.cxl.hdmBase.getD d 0
    else if r = 8 then s.cxl.hdmLen.getD d 0
    else
      let c := s.cxl.hdmCommitted.getD d false
      let e := s.cxl.hdmError.getD d false
      BitVec.ofNat 64 ((if c || e then 2 ^ 9 else 0) + (if c then 2 ^ 10 else 0) + if e then 2 ^ 11 else 0)
  | none => ((s.cxl.component.find? fun x => x.1 == off).map (·.2)).getD (Config.cxlComponent off)

/-! ### CXL.mem (R163) -/

/-- Memory_Active: from stage 8, outside Trivet (R331, R356). -/
def State.memActive (s : State) : Bool := s.working && 8 ≤ s.boot.stage

/-- A line with the poison indication, whose data the manual leaves open. -/
def State.poisonLine (s : State) : State :=
  let (bs, s1) := s.drawBytes 64
  s1.send (.line bs true)

/-- A read checks the words of its line. -/
def execHostMemRead (dec : BitVec 1) (off : U64) (s : State) : Res :=
  let d := dec.toNat
  let k := mkKey d (off.toNat - off.toNat % 64)
  if !(s.alive && s.cxl.hdmCommitted.getD d false && off.toNat < hdmSize d) then .next s
  else if !s.memActive || !s.rangeOk k 64 then .next s.poisonLine
  else
    let s1 := s.touch k 64
    .next (s1.send (.line (s1.readBytes k 64) (s1.poisonedIn k 64)))

def execHostMemWrite (dec : BitVec 1) (off : U64) (data : List Byte) (s : State) : Res :=
  let d := dec.toNat
  let k := mkKey d off.toNat
  if !(s.alive && s.cxl.hdmCommitted.getD d false && off.toNat % 64 + data.length ≤ 64 && off.toNat < hdmSize d) then
    .next s
  else if !s.memActive then .next s
  else if !s.rangeOk k data.length then .next (s.modEvc fun e => { e with lost := e.lost + 1 })
  else .next (s.writeBytes k data)

end Sys2Proof.Machine
end

