-- ==== Sys2Proof/Machine/LinkOps.lean ====
section
/-! DEFINITION. What the TongLink rows share (11_links_and_systems.md): ports and control frames (R259-R267), credits and
retry (R269-R271), routing (R272-R275), transfers (R277, R278). -/

namespace Sys2Proof.Machine

/-! ### Ports -/

def State.port (s : State) (n : Nat) : Port := s.link.ports.getD n Port.reset

def State.modPort (s : State) (n : Nat) (f : Port → Port) : State :=
  s.modLink fun l => { l with ports := l.ports.modify n f }

def PortState.code : PortState → Nat
  | .disabled => 0 | .training => 1 | .up => 2 | .quarantined => 3 | .down => 4

/-- Event source of a port (Table 15.8). -/
def srcPort (n : Nat) : Nat := n

/-- A port takes a state; the trace sees a change (Table 13.12 bit 7). -/
def State.portTo (s : State) (n : Nat) (st : PortState) : State :=
  let t := s.modPort n fun x => { x with st := st }
  if (s.port n).st = st then t else t.trace 7 n (leBytes 1 st.code)

/-- Lanes of a mask that have not failed. -/
def goodLanes (fail : Nat) : List Nat := (List.range 9).filter fun l => !bit fail l

def maskOf (ls : List Nat) : Nat := ls.foldl (fun m l => m ||| 2 ^ l) 0

/-- LINK_STATUS (Table 11.3). -/
def Port.status (x : Port) : Nat :=
  x.st.code + (if x.width4 then 8 else 0) + (if x.spareUsed then 16 else 0) + x.qreason * 2 ^ 5 + x.laneFail * 2 ^ 8 +
    x.replays * 2 ^ 24 + x.eye * 2 ^ 40

/-- LINK_FAR_ID and LINK_EXPECT (Table 11.4). -/
def farIdReg (f : Option FarId) (expect : Bool) : Nat :=
  match f with
  | none => 0
  | some f => 2 ^ 63 + (if expect && f.digest == 0 then 2 ^ 62 else 0) + f.chip % 4096 * 2 ^ 48 + f.port % 16 * 2 ^ 44 +
      f.digest.toNat % 2 ^ 32

/-! ### Credits (R267, R269) -/

/-- Index of a virtual channel and class. -/
def chIx (vc cls : Nat) : Nat := 2 * vc + cls

/-- Units granted at training, per virtual channel and class (Table 11.7). -/
def vcGrant (vc : Nat) : Nat := if vc = 2 then 2048 else 256

def Port.credits (x : Port) (vc cls : Nat) : Nat :=
  (vcGrant vc + x.granted.getD (chIx vc cls) 0 + 2 ^ 32 - x.spent.getD (chIx vc cls) 0) % 2 ^ 32

/-- Bytes of the packets held for replay. -/
def Port.heldBytes (x : Port) : Nat := x.held.foldl (fun n p => n + 20 + p.len) 0

/-- A packet may start on a port while `kept` units of its channel and class are leased by others. -/
def Port.canSend (x : Port) (kept : Nat) (p : Pkt) : Bool :=
  x.st == .up && p.units + kept ≤ x.credits p.vc p.cls && x.heldBytes + 20 + p.len ≤ 131072

/-- The leases of the open windows: group, and of VC2 port, class and units (R238, R280). -/
abbrev Leases := List (Nat × List (Nat × Nat × Nat))

def Links.leases (l : Links) : Leases := l.colls.map fun c => (c.group, c.lease)

/-- The window whose own packet it is. -/
def Leases.window (ls : Leases) (own : Nat) (p : Pkt) : Option Nat :=
  match p.desc with
  | .slice g .. => if p.src = own && ls.any (·.1 == g) then some g else none
  | _ => none

/-- Units of a port and class that windows other than the given one lease. -/
def Leases.kept (ls : Leases) (port vc cls : Nat) (w : Option Nat) : Nat :=
  if vc != 2 then 0 else
    (((ls.filter fun x => some x.1 != w).flatMap (·.2)).filter fun l => l.1 == port && l.2.1 == cls).foldl
      (fun n l => n + l.2.2) 0

/-- A lease gives units of a port and class as far as it has them. -/
def useLease (port cls : Nat) : Nat → List (Nat × Nat × Nat) → List (Nat × Nat × Nat)
  | _, [] => []
  | u, l :: ls => if l.1 == port && l.2.1 == cls then (l.1, l.2.1, l.2.2 - u) :: useLease port cls (u - l.2.2) ls
                  else l :: useLease port cls u ls

/-- Waiting packets of a port that may start, in order within each virtual channel and class, and there within each window and
outside of windows; what is left of the leases, which a window's packets use first, and what goes out (log 100). -/
def Port.flush (x : Port) (port own : Nat) (leases : Leases) : Port × Leases × List Queued :=
  x.waiting.foldl (fun (acc : Port × Leases × List Queued) w =>
    let (y, ls, out) := acc
    let p := w.pkt
    let win := ls.window own p
    if (y.waiting.any fun q => q.pkt.vc == p.vc && q.pkt.cls == p.cls && ls.window own q.pkt == win) ||
        !y.canSend (ls.kept port p.vc p.cls win) p then
      ({ y with waiting := y.waiting ++ [w] }, ls, out)
    else
      let q := { p with lseq := y.txSeq }
      ({ y with txSeq := (y.txSeq + 1) % 65536, held := y.held ++ [q],
                spent := y.spent.modify (chIx p.vc p.cls) fun n => (n + p.units) % 2 ^ 32 },
        ls.map fun l => if some l.1 == win then (l.1, useLease port p.cls p.units l.2) else l, out ++ [{ w with pkt := q }]))
    ({ x with waiting := [] }, leases, [])

/-- A packet has left a receive buffer: its units are free (R269). -/
def State.freeUnits (s : State) (n : Nat) (p : Pkt) : State :=
  s.modPort n fun x => { x with freed := x.freed.modify (chIx p.vc p.cls) fun k => (k + p.units) % 2 ^ 32 }

/-- A packet waits no more: one in transit leaves its buffer, of the class on which it came. -/
def State.leaveBuffer (s : State) (w : Queued) : State :=
  match w.via with
  | some (n, cls) => s.freeUnits n { w.pkt with cls := cls }
  | none => s

def State.flushPort (s : State) (n : Nat) : State :=
  let (x, ls, ps) := (s.port n).flush n s.ownChip s.link.leases
  let s1 := (s.modPort n fun _ => x).modLink fun l => { l with
    colls := l.colls.map fun c => { c with lease := ((ls.find? fun y => y.1 == c.group).map (·.2)).getD c.lease } }
  ps.foldl (fun s w => (s.sendPkt n w.pkt).leaveBuffer w) s1

/-- A packet joins those that wait at a port. -/
def State.enqueue (s : State) (n : Nat) (w : Queued) : State :=
  (s.modPort n fun x => { x with
    waiting := x.waiting ++ [w]
    waitSince := if x.waiting.any fun q => q.pkt.vc == w.pkt.vc then x.waitSince else x.waitSince.set w.pkt.vc s.elapsed }).flushPort n

/-! ### Routing (R272, R275) -/

def Links.table (l : Links) (slice : Nat) : List RouteEnt := ((l.tables.find? fun t => t.1 == slice).map (·.2)).getD []

def Links.entry (l : Links) (slice dst : Nat) : Option RouteEnt := (l.table slice).find? fun e => e.dest == dst

/-- Slice and entry an origin job uses towards a chip. -/
def Links.originEntry (l : Links) (job dst : Nat) : Option Nat :=
  (l.tables.find? fun t => t.2.any fun e => e.dest == dst && e.port != 15 && bit e.jobs job).map (·.1)

/-- Origin job of a command: the context's, else the queue's, else bit 16. -/
def State.originJob (s : State) (e : Env) : Nat :=
  if e.ctx = 0x3FF then (let j := ((s.pair? e.q.toNat).map (·.job)).getD 0xFF; if j < 16 then j else 16)
  else ((s.ctx? e.ctx.toNat).map (·.job)).getD 16

/-- The egress port of an entry and the class there; which of two parallel ports is not stated (log 40). -/
def State.egress (s : State) (e : RouteEnt) (cls : Nat) : Option (Nat × Nat) × State :=
  let up := fun (n : Nat) => n ≤ 11 && (s.port n).st == .up
  let clsOf := fun (dl : Bool) => if dl then 1 else if e.reset then 0 else cls
  let viaPort := some (e.port, clsOf e.dlPort)
  let viaAlt := some (e.alt, clsOf e.dlAlt)
  if up e.port && up e.alt && ((s.port e.port).far.map (·.chip)) == ((s.port e.alt).far.map (·.chip)) then
    match s.choose [0, 1] with
    | (some 1, s1) => (viaAlt, s1)
    | (_, s1) => (viaPort, s1)
  else if up e.port then (viaPort, s)
  else if up e.alt then (viaAlt, s)
  else (none, s)

/-- A packet of this module. -/
def State.mkPkt (s : State) (slice dst xtag : Nat) (d : PktDesc) (data : List Byte) (marks : List Nat) : Pkt :=
  ⟨d.vc, 0, slice, 63, dst, s.ownChip, 64 + data.length, 0, xtag, 0, d, data, marks⟩

/-! ### Transfers that fail (R278) -/

def State.modTransfer (s : State) (xtag : Nat) (f : Transfer → Transfer) : State :=
  s.modLink fun l => { l with transfers := l.transfers.map fun t => if t.xtag == xtag then f t else t }

def State.transfer? (s : State) (xtag : Nat) : Option Transfer := s.link.transfers.find? fun t => t.xtag == xtag

def State.dropTransfer (s : State) (xtag : Nat) : State :=
  s.modLink fun l => { l with transfers := l.transfers.filter fun t => t.xtag != xtag }

/-- A transfer ends with a status and the bytes completed; a mirror's open that fails also ends the mirroring. -/
def State.endTransfer (s : State) (t : Transfer) (st : Status) (result : List Byte) : State :=
  let s1 := s.dropTransfer t.xtag
  let s2 := match t.kind with
    | .mirror c => if st.success then s1 else s1.modCtx c fun x => { x with mirror := x.mirror.filter fun m => m.xtag != t.xtag }
    | _ => s1
  match t.cmd with
  | some rec => s2.finish rec st result
  | none => s2

/-- The packets of a TYPE belong to the transfer at its origin; a dropped response or slice has another tag. -/
def Transfer.sends (t : Transfer) (type : Nat) : Bool :=
  type == 6 || match t.kind with
    | .put => type == 1
    | .mirror _ => type == 5
    | _ => type == 2

/-- A transfer meets an unreachable packet for a packet of a TYPE. A second one before the retry belongs to the same
failure. -/
def State.unreached (s : State) (type xtag : Nat) : State :=
  match (s.transfer? xtag).filter fun t => t.sends type with
  | none => s
  | some t =>
    let again := s.modTransfer xtag fun t => { t with retryAt := some (s.elapsed + 100000) }
    match t.kind with
    | .shard _ _ => if t.retryAt.isSome then s else again
    | _ =>
      if t.retryAt.isSome then s
      else if t.retried then s.endTransfer t .linkDown (leBytes 8 t.moved)
      else again

/-! ### Sending -/

/-- A packet is looked up in the table of its slice and leaves, or its origin learns that it cannot. -/
def State.tryRoute (s : State) (p : Pkt) : Except Nat (State × Nat × Pkt) :=
  match s.link.entry p.slice p.dst with
  | none => .error 1
  | some e =>
    if e.port = 15 then .error 1
    else match s.egress e p.cls with
      | (some (n, cls), s1) => .ok (s1, n, { p with cls := cls })
      | (none, _) => .error 2

def State.countDrop (s : State) : State := s.modLink fun l => { l with dropped := satAdd 32 l.dropped 1 }

/-- A dropped packet is counted and an unreachable packet goes to its origin (R271, R275); one that cannot go is counted too. -/
def State.bounce (s : State) (p : Pkt) (cause : Nat) : State :=
  let s1 := s.countDrop
  if p.src = s.ownChip then s1.unreached p.desc.code p.xtag
  else
    match s1.tryRoute (s1.mkPkt p.slice p.src p.xtag (.unreachable s.ownChip cause p.desc.code p.xtag) [] []) with
    | .ok (s2, n, q) => s2.enqueue n ⟨q, none⟩
    | .error _ => s1.countDrop

/-- A packet of this module sets out. -/
def State.originate (s : State) (p : Pkt) : State :=
  match s.tryRoute p with
  | .ok (s1, n, q) => s1.enqueue n ⟨q, none⟩
  | .error cause => s.bounce p cause

/-- Packets of a mirror go to its buddy by the entry of the context's job as it stands; without one they meet no entry (R275). -/
def State.sendMirror (s : State) (job buddy : Nat) (ps : List Pkt) : State :=
  match s.link.originEntry job buddy with
  | some sl => ps.foldl (fun s p => s.originate { p with slice := sl }) s
  | none => ps.foldl (fun s p => s.bounce p 1) s

/-- Offsets and lengths of the packets of a transfer: at most 4,032 bytes each (R268). -/
def pieces (len : Nat) : List (Nat × Nat) :=
  (List.range (ceilDiv len 4032)).map fun i => (4032 * i, min 4032 (len - 4032 * i))

/-- The open packet of a transfer (R277). -/
def State.sendOpen (s : State) (t : Transfer) : State :=
  let op := match t.kind with
    | .put => 0
    | .mirror _ => 2
    | _ => 1
  s.originate (s.mkPkt t.slice t.chip t.xtag (.openRange t.remote t.len op t.deadline) [] [])

/-- The data of a PUT, whose packets have no order, so that no count of bytes says which have arrived; the requests of a GET
not yet answered; or the packets of a mirror's last commit. -/
def State.sendData (s : State) (t : Transfer) : State :=
  match t.kind with
  | .put =>
    (pieces t.len).foldl (fun s p =>
      let k := t.local_ + p.1
      let marks := s.poisonOffsets k p.2
      (s.modTransfer t.xtag fun x => { x with poisoned := x.poisoned || !marks.isEmpty }).originate
        (s.mkPkt t.slice t.chip t.xtag (.writeData (t.remote + p.1) p.2) (s.readBytes k p.2) marks)) (s.touch t.local_ t.len)
  | .mirror c => match (s.ctx? c).bind fun c => c.mirror.map fun m => (c, m) with
    | some (c, m) => s.sendMirror c.job m.buddy m.sent
    | none => s
  | _ =>
    (pieces t.len).foldl (fun s p =>
      if t.parts.any fun q => q.1 == p.1 then s
      else s.originate (s.mkPkt t.slice t.chip t.xtag (.readRequest (t.remote + p.1) p.2) [] [])) s

/-- The tag the module chooses for a transfer, which the manual does not say (Table 11.6): a free value, or the next number
that no transfer has (logs 2 and 17). -/
def State.freshTag (s : State) : Nat :=
  let n := (Config.freeValue s.free).toNat
  (((List.range (s.link.transfers.length + 1)).map fun i => (n + i) % 2 ^ 32).find? fun t => (s.transfer? t).isNone).getD 0

/-- A transfer begins with its open packet. -/
def State.startTransfer (s : State) (cmd : Option Nat) (kind : TransKind) (slice chip local_ remote len deadline : Nat) :
    State :=
  let tag := s.freshTag
  let t : Transfer := { xtag := tag, cmd, kind, slice, chip, local_, remote, len, deadline, opened := false, moved := 0,
                        poisoned := false, retried := false, retryAt := none, parts := [] }
  ({ s with free := s.free + 1 }.modLink fun l => { l with transfers := l.transfers ++ [t] }).sendOpen t

end Sys2Proof.Machine
end

