-- ==== Sys2Proof/Machine/Flags.lean ====
section
/-! DEFINITION. Status the module computes from its state: pins, phases in force, power views, and every register of
BAR0 (15_registers.md Table 15.2; 12_power_and_cooling.md; 13_safety_repair_wear.md; 14_boot_and_identity.md). -/

namespace Sys2Proof.Machine

/-! ### Power (R288, R291, R294) -/

/-- Sum of the last `n` samples. -/
def Power.sumOf (p : Power) (n : Nat) : Nat := (p.samples.take n).sum

/-- Mean of the last `n` samples, in whole watts; 0 before there are as many. -/
def Power.meanOf (p : Power) (n : Nat) : Nat := if p.samples.length < n || n = 0 then 0 else p.sumOf n / n

/-- Mean input power over the last 1 ms. -/
def Power.mean (p : Power) : Nat := p.meanOf 1000

/-- The cap in force (R294). -/
def Power.cap (p : Power) : Nat :=
  min (min p.sustainCap p.peakCap) (min (if p.mgrLost then p.lostCap else p.sustainCap) (if p.clamp then 2600 else p.sustainCap))

/-- Core dynamic power of a point, in tenths of a percent of OP0 (Table 12.2). -/
def opPower (op : Nat) : Nat :=
  [1000, 926, 855, 791, 731, 674, 622, 574, 528, 487, 448, 411, 379, 348, 319, 292].getD op 292

/-- A weight or adapter command transfers data (R291). -/
def Ctx.transferring (c : Ctx) : Bool :=
  c.verifying || c.wgt.any fun w => w.overwriting || w.prog.any fun p => p == .inFlight

/-- SELFTEST runs. -/
def State.selftesting (s : State) : Bool := !s.health.selftest.isEmpty

/-- The phases in force (R291). -/
def State.phasesNow (s : State) : List Nat :=
  let ps := ((s.fab.invs.filter fun i => i.phase == .running).map (·.phaseTok)) ++
    (if s.link.colls.any fun c => c.cmd.isSome then [3] else []) ++
    (if s.ctxs.any Ctx.transferring then [4] else []) ++
    (if s.fab.waves.isEmpty then [] else [5]) ++ (if s.selftesting then [6] else [])
  if ps.isEmpty then [0] else ps.eraseDups

/-- The requested operating point (R291). -/
def State.requestedOp (s : State) : Nat := (s.phasesNow.map s.pwr.opPref).foldl min 15

/-- The point the loops and the phases ask for together: the slower of the requested point, the sustained loop's, the
thermal throttle's, and OP15 in Simmer and before the firmware runs (R291, R305, R306, R308). -/
def State.targetOp (s : State) : Nat :=
  if s.boot.stage < 9 || s.pwr.simmer then 15
  else max (max s.requestedOp s.pwr.loopOp) (if s.therm.throttle then s.therm.throttleOp else 0)

/-! ### Flow (R304; 15_registers.md Table 15.21) -/

/-- The 10 ms count since FLOW_K was written is complete. -/
def State.flowReady (s : State) : Bool := s.therm.flowK != 0 && s.therm.flowStart + 1000000 ≤ s.elapsed

/-- FLOW in mL/min: pulses of the last 10 ms over FLOW_K; 0xFFFF without a meter or before the first count. -/
def State.flow (s : State) : Nat :=
  if s.flowReady then
    min 0xFFFE ((s.therm.pulses.filter fun t => s.elapsed < t + 1000000).length * 6000000 / s.therm.flowK)
  else 0xFFFF

/-- FLOW in 0.1 L/min for an event payload. -/
def State.flowTenths (s : State) : Nat := if s.flowReady then s.flow / 100 else 0xFFFF

/-! ### Block ID -/

def devId : Nat := 0x0004001001020001
def familyParams : Nat := 0x04041830100C5050

/-- Four values of the dies, the last in the highest field of `w` bits. -/
def packDies (w : Nat) (f : Nat → Nat) : Nat := f 0 + f 1 * 2 ^ w + f 2 * 2 ^ (2 * w) + f 3 * 2 ^ (3 * w)

def Grid.shapeReg (g : Grid) : Nat :=
  if g.valid then packDies 8 g.dieWidth * 2 ^ 32 + 80 * 2 ^ 16 + g.width else 0

/-- GRADE (Table 15.6); its RETIRED field of eight bits shows no more than 255. -/
def State.gradeReg (s : State) : Nat :=
  let g := gradeOf s.grid.retiredAll
  (if s.grid.valid then 2 ^ 31 + min 255 s.grid.retiredAll * 2 ^ 16 + (if g = 3 then 4 else 0) + g else 0) + s.boot.shipGrade * 2 ^ 8

/-- SPARE_LEFT as last written (Table 15.7, R357). -/
def Grid.spareReg (g : Grid) : Nat :=
  packDies 8 (fun d => (g.spareShown.getD d (0, 0)).1) + packDies 8 (fun d => (g.spareShown.getD d (0, 0)).2) * 2 ^ 32

def Boot.stageReg (b : Boot) : Nat := b.entryMs % 2 ^ 32 * 2 ^ 32 + b.stage

def boolBit (b : Bool) (i : Nat) : Nat := if b then 2 ^ i else 0

def Boot.errorReg (b : Boot) : Nat :=
  boolBit b.warnLanes 54 + boolBit b.warnFabric 53 + boolBit b.warnUnit 52 + boolBit b.warnMinver 51 + boolBit b.warnCxl 50 +
    boolBit b.warnDdr 49 + boolBit b.warnRepair 48 + b.detail % 65536 * 2 ^ 32 + b.errStage * 2 ^ 20 + b.code

/-! ### Blocks Power, Thermal, Health -/

/-- PWR_NOW; DUTY and POWER are zero before the first 1 ms mean, all of it before the first sample (Table 15.19; log 55). -/
def State.pwrNowReg (s : State) : Nat :=
  let full := decide (1000 ≤ s.pwr.samples.length)
  if s.pwr.samples.isEmpty then 0
  else (if full then s.pwr.duty else 0) * 2 ^ 40 + s.pwr.op * 2 ^ 36 + boolBit s.therm.throttle 34 + boolBit s.pwr.clamp 33 +
    boolBit s.pwr.mgrLost 32 + s.pwr.cap * 2 ^ 16 + (if full then min 0xFFFF s.pwr.mean else 0)

def Therm.tempReg (t : Therm) : Nat := if t.sampled then t.whereDie % 256 * 2 ^ 24 + unsigned 16 t.tempMax else 0

def Therm.limitsReg (t : Therm) : Nat := t.inletMax * 2 ^ 24 + t.flowWarn * 2 ^ 16 + t.flowK

def State.faultReg (s : State) : Nat :=
  min 0xFFFF s.health.corrected * 2 ^ 32 + s.boot.trivetCause * 2 ^ 16 + boolBit s.boot.trivet 15 + boolBit s.pwr.simmer 14 +
    s.health.seen % 2 ^ 14

def Health.katReg (h : Health) : Nat := h.rounds % 2 ^ 32 * 2 ^ 32 + h.katInterval
/-- Ticks of an hour. -/
def hourTicks : Nat := 360000000000

/-- EOL_FORECAST: AGE counts the hours since the last update, saturating (Table 13.8). -/
def Health.eolReg (h : Health) (elapsed : Nat) : Nat :=
  match h.eolAt with
  | none => h.eol.toNat
  | some t => bits h.eol.toNat 47 0 + min 0xFF ((elapsed - t) / hourTicks) * 2 ^ 48 + bits h.eol.toNat 63 56 * 2 ^ 56

def Health.scrubReg (h : Health) : Nat := 250 * 2 ^ 32 + h.ddrS * 2 ^ 16 + h.hbmS

/-! ### The registers by BAR0 offset (Table 15.2) -/

def queuesBase : Nat := 0x10000
def evcBase : Nat := 0x20000
def timerBase : Nat := 0x30000
def powerBase : Nat := 0x40000
def thermalBase : Nat := 0x50000
def healthBase : Nat := 0x60000

def State.idRegs (s : State) : List (Nat × Nat) :=
  [(0x000, devId), (0x008, familyParams), (0x010, s.grid.shapeReg), (0x018, s.gradeReg), (0x020, s.grid.spareReg),
   (0x028, s.boot.stageReg), (0x030, s.boot.errorReg), (0x038, s.boot.minVersion)]

def QPair.regs (p : QPair) : List (Nat × Nat) :=
  let b := queuesBase + 32 * p.id
  [(b, p.sqBase.toNat), (b + 8, p.cqBase.toNat), (b + 16, p.ctrlReg), (b + 24, p.stateReg)]

def State.evcRegs (s : State) : List (Nat × Nat) :=
  let e := s.evc
  [(evcBase, e.pend0.toNat), (evcBase + 0x008, e.pend1.toNat), (evcBase + 0x010, e.mask0.toNat), (evcBase + 0x018, e.mask1.toNat)] ++
    ((List.range 16).map fun k => (evcBase + 0x100 + 8 * k, (e.route.getD k 0).toNat)) ++
    [(evcBase + 0x200, e.ringBase.toNat), (evcBase + 0x208, e.ringN)]

/-- TMR_HOLDOVER_LIMIT reads as last written, also before the tick that takes it up (R365). -/
def State.timerRegs (s : State) : List (Nat × Nat) :=
  [(timerBase, s.tmr.count), (timerBase + 0x008, s.tmr.stateReg), (timerBase + 0x010, unsigned 64 s.tmr.offset),
   (timerBase + 0x018, s.tmr.masterCfgReg), (timerBase + 0x020, s.tmr.limitNext.getD s.tmr.limit)]

def State.powerRegs (s : State) : List (Nat × Nat) :=
  let p := s.pwr
  [(powerBase, p.peakCap), (powerBase + 0x008, p.window), (powerBase + 0x010, p.sustainCap), (powerBase + 0x018, p.floor),
   (powerBase + 0x020, p.ramp), (powerBase + 0x028, p.energy), (powerBase + 0x030, s.pwrNowReg), (powerBase + 0x038, p.timeout),
   (powerBase + 0x040, p.lostCap)] ++
    (List.range 16).map fun i => (powerBase + 0x100 + 8 * i, p.entry i)

def State.thermalRegs (s : State) : List (Nat × Nat) :=
  [(thermalBase, s.therm.tempReg), (thermalBase + 0x008, unsigned 16 s.therm.coolIn),
   (thermalBase + 0x010, unsigned 16 s.therm.coolOut), (thermalBase + 0x018, s.flow), (thermalBase + 0x020, s.therm.limitsReg)]

def State.healthRegs (s : State) : List (Nat × Nat) :=
  [(healthBase, s.faultReg), (healthBase + 0x008, s.health.katReg), (healthBase + 0x010, s.health.scrubReg),
   (healthBase + 0x018, s.health.wear.toNat), (healthBase + 0x020, s.health.eolReg s.elapsed)]

/-- Base of the Links block. -/
def linksBlock : Nat := 0x70000

def State.linkRegs (s : State) : List (Nat × Nat) :=
  ((List.range 12).map fun n => (linksBlock + 8 * n, (s.port n).status)) ++
    ((List.range 12).map fun n => (linksBlock + 0x100 + 8 * n, farIdReg (s.port n).far false)) ++
    ((List.range 12).map fun n => (linksBlock + 0x200 + 8 * n, farIdReg (s.port n).expect true)) ++
    (List.range 12).map fun n => (linksBlock + 0x300 + 8 * n, (s.port n).owner)

/-- Every register of the blocks DUMP lists before the queue pairs, in offset order. -/
def State.blockRegs (s : State) : List (Nat × Nat) :=
  s.idRegs ++ s.evcRegs ++ s.timerRegs ++ s.powerRegs ++ s.thermalRegs ++ s.healthRegs ++ s.linkRegs

/-- Registers of queue pairs that exist. A pair that does not exist reads as its reset value (R40). -/
def State.queueReg (s : State) (off : Nat) : Nat :=
  let q := (off - queuesBase) / 32
  let p := (s.pair? q).getD (QPair.reset q)
  ((p.regs.find? fun r => r.1 == off).map (·.2)).getD 0

/-- The value an 8-byte read of a BAR0 offset returns; offsets that name no register read zero (R353, R356). -/
def State.regValue (s : State) (off : Nat) : Nat :=
  if queuesBase ≤ off && off < evcBase then s.queueReg off
  else if inComponent off then (s.componentReg off).toNat
  else ((s.blockRegs.find? fun r => r.1 == off).map (·.2)).getD 0

/-- A BAR0 offset names a register of the blocks DUMP lists. -/
def State.hasReg (s : State) (off : Nat) : Bool := s.blockRegs.any fun r => r.1 == off

end Sys2Proof.Machine
end

