-- ==== Sys2Proof/Machine/LinkCmds.lean ====
section
/-! DEFINITION. Commands of 11_links_and_systems.md: training and identity (R260-R263), routing tables and owners
(R272-R274), PUT and GET (R277), collectives (R279-R282), MIRROR_SET (R283). -/

namespace Sys2Proof.Machine

/-! ### Training (R261, R262) -/

/-- An identity frame of this module on a port (R263). -/
def State.identityFrame (s : State) (n : Nat) : List Byte :=
  leBytes 1 0x32 ++ leBytes 1 n ++ leBytes 2 s.ownChip ++ zeros 4 ++ leBytes 8 s.serialDigest.toNat

/-- A time probe request. -/
def probeFrame (k stamp : Nat) : List Byte := leBytes 1 0x35 ++ zeros 1 ++ leBytes 2 k ++ zeros 4 ++ leBytes 8 stamp

/-- A port begins to train; the probes of step 5 and the identity frame of step 6 are recorded here (log 41). -/
def State.train (s : State) (n : Nat) (cmd : Option Nat) (auto : Bool) : State :=
  let s1 := (s.modPort n fun x => { x with
    far := none, probes := [], qreason := 0, trainCmds := x.trainCmds ++ cmd.toList, judged := x.expect, idAt := s.elapsed, sixAt := none
    autoUsed := auto, laneFail := 0, active := [], width4 := false, spareUsed := false }).portTo n .training
  let s2 := (List.range 64).foldl (fun s k => s.control n (probeFrame k (16 * s.now))) s1
  s2.control n (s2.identityFrame n)

/-- Identity frames go out again every 100,000 ticks while a port trains (Table 11.2 step 6). -/
def State.identityTick (s : State) : State :=
  ((List.range 12).filter fun n => (s.port n).st == .training && (s.port n).idAt + 100000 ≤ s.elapsed).foldl (fun s n =>
    (s.modPort n fun x => { x with idAt := s.elapsed }).control n (s.identityFrame n)) s

/-- The command of a training completes when none of its ports still trains. -/
def State.trainDone (s : State) (cmd : Nat) : State :=
  if s.link.ports.any fun x => x.trainCmds.contains cmd then s
  else
    let inSt := fun (st : PortState) => maskOf ((List.range 12).filter fun n => (s.port n).st == st)
    s.finish cmd .ok (leBytes 2 (inSt .up) ++ leBytes 2 (inSt .quarantined))

/-- The training of a port has ended in a state; a command that waited completes with the last of its ports. -/
def State.trained (s : State) (n : Nat) : State :=
  (s.port n).trainCmds.foldl State.trainDone (s.modPort n fun x => { x with trainCmds := [] })

/-- A port without an expectation by LINK_EXPECT_SET stays, or becomes, electrically idle (R261). -/
def State.disablePort (s : State) (n : Nat) : State := (s.portTo n .disabled).trained n

def startLinkTrain (mask : U16) (id : Nat) (s : State) : State :=
  if s.link.chip.isNone then s.finish id .wrongState
  else
    let ports := (List.range 12).filter fun n => mask.getLsbD n
    let s1 := ports.foldl (fun s n =>
      if (s.port n).off then s.disablePort n else s.train n (some id) false) s
    s1.trainDone id

def checkLinkTrain (mask : U16) (_s : State) : Option Status :=
  firstFail [(mask.toNat < 4096, .badParam)]

def execLinkTrain (e : Env) (mask : U16) (s : State) : Res :=
  command (.linkTrain e mask) e (checkLinkTrain mask) (fun _ => false) (startLinkTrain mask) s

/-- A port with cleared expectation goes DISABLED; one that is UP, or that trains, does so at its next training (log 42). -/
def startLinkExpectSet (port : Byte) (farChip : BitVec 12) (farPort : Byte) (digest : U64) (id : Nat) (s : State) : State :=
  let n := port.toNat
  let s1 :=
    if farPort = 0xFF then
      let t := s.modPort n fun x => { x with expect := none, off := true }
      if (s.port n).st == .up || (s.port n).st == .training then t else t.portTo n .disabled
    else s.modPort n fun x => { x with expect := some ⟨farChip.toNat, farPort.toNat, digest⟩, off := false }
  s1.finish id .ok

def checkLinkExpectSet (port : Byte) (farPort : Byte) (_s : State) : Option Status :=
  firstFail [(port.toNat ≤ 11, .badParam), (farPort == 0xFF || farPort.toNat ≤ 11, .badParam)]

def execLinkExpectSet (e : Env) (port : Byte) (farChip : BitVec 12) (farPort : Byte) (digest : U64) (s : State) : Res :=
  command (.linkExpectSet e port farChip farPort digest) e
    (checkLinkExpectSet port farPort) (fun _ => false)
    (startLinkExpectSet port farChip farPort digest) s

def startLinkQuery (port : Byte) (id : Nat) (s : State) : State :=
  let x := s.port port.toNat
  s.finish id .ok (leBytes 8 x.status ++ leBytes 8 (farIdReg x.far false))

def checkLinkQuery (port : Byte) (_s : State) : Option Status :=
  firstFail [(port.toNat ≤ 11, .badParam)]

def execLinkQuery (e : Env) (port : Byte) (s : State) : Res :=
  command (.linkQuery e port) e (checkLinkQuery port) (fun _ => false) (startLinkQuery port) s

/-! ### ROUTE_LOAD (R260, R272, R273) -/

/-- An entry of Table 11.8. -/
def RouteEnt.of (bs : List Byte) : RouteEnt :=
  let f := fieldAt bs 4 1
  { dest := fieldAt bs 0 2 % 4096, port := fieldAt bs 2 1 % 16, alt := fieldAt bs 3 1 % 16, dlPort := bit f 0, dlAlt := bit f 1,
    reset := bit f 2, jobs := fieldAt bs 8 4 % 2 ^ 17 }

/-- Check 1: fields; `local_` says that the entry is the local one. -/
def routeFieldsOk (bs : List Byte) (local_ : Bool) : Bool :=
  let e := RouteEnt.of bs
  fieldAt bs 0 2 < 4096 && fieldAt bs 2 1 < 16 &&
    if local_ then e.port == 15
    else e.port ≤ 11 && fieldAt bs 3 1 < 16 && (e.alt ≤ 11 || e.alt == 15) && fieldAt bs 4 1 < 8 && allZero (slice bs 5 3) &&
      fieldAt bs 8 4 < 2 ^ 17 && allZero (slice bs 12 4)

/-- Why an entry is refused. -/
inductive RouteFail where
  | check (code : Nat)
  | owner (port : Nat)
  deriving DecidableEq, Repr

/-- Checks of entry `bs` behind the entries `prev` of the same table; `own` is the chip number once known. -/
def State.routeFail (s : State) (slice : Nat) (own : Option Nat) (prev : List RouteEnt) (bs : List Byte) : Option RouteFail :=
  let e := RouteEnt.of bs
  let isLocal := e.port == 15 || own == some e.dest
  let others := s.link.tables.filter fun t => t.1 != slice
  if !routeFieldsOk bs isLocal || prev.any fun p => p.dest == e.dest then some (.check 0x00B0)
  else if isLocal then
    if (own.any (· != e.dest)) || others.any fun t => t.2.any fun x => x.port == 15 then some (.check 0x00B1) else none
  else if others.any fun t => t.2.any fun x => x.port != 15 && x.dest == e.dest && (x.jobs &&& e.jobs) != 0 then
    some (.check 0x00B2)
  else match ([e.port] ++ (if e.alt = 15 then [] else [e.alt])).find? fun n => (s.port n).owner != slice with
    | some n => some (.owner n)
    | none => none

/-- The first refused entry, or the chip number the table leaves. -/
def State.routesFail (s : State) (slice : Nat) : Nat → Option Nat → List RouteEnt → List (List Byte) →
    Except (Nat × RouteFail) (Option Nat × List RouteEnt)
  | _, own, prev, [] => .ok (own, prev)
  | i, own, prev, b :: bs =>
    match s.routeFail slice own prev b with
    | some f => .error (i, f)
    | none =>
      let e := RouteEnt.of b
      s.routesFail slice (i + 1) (if e.port = 15 then some e.dest else own) (prev ++ [e]) bs

def checkRouteLoad (e : Env) (table : U64) (n : U32) (slice : Byte) (s : State) : Option Status :=
  firstFail (s.ptrChecks e table.toNat (16 * n.toNat) ++ [(slice != 0xFF, .badParam)])

def startRouteLoad (e : Env) (table : U64) (n : U32) (slice : Byte) (id : Nat) (s0 : State) : State :=
  let k := s0.keyAt e table.toNat (16 * n.toNat) true false
  let s := s0.touch k (16 * n.toNat)
  let raw := (List.range n.toNat).map fun i => s.readBytes (k + 16 * i) 16
  let sl := slice.toNat
  match s.routesFail sl 0 s.link.chip [] raw with
  | .error (i, .check code) => s.finish id .checkFailed (checkResult code i)
  | .error (i, .owner port) => (s.event srcSafety 0x0027 (leBytes 4 i ++ leBytes 1 port)).finish id .notOwner
  | .ok (own, es) =>
    let others := s.link.tables.filter fun t => t.1 != sl
    let total := (others.map fun t => t.2.length).foldl (· + ·) 0
    if 4096 < es.length || 8192 < total + es.length then s.finish id .noRoom
    else
      let kept := if es.length = 1 && es.all fun e => e.port == 15 then [] else es
      (s.modLink fun l => { l with chip := own, tables := others ++ (if kept.isEmpty then [] else [(sl, kept)]) }).finish id .ok
        (leBytes 4 es.length)

def execRouteLoad (e : Env) (table : U64) (n : U32) (slice : Byte) (s : State) : Res :=
  command (.routeLoad e table n slice) e (checkRouteLoad e table n slice) (fun _ => n == 0) (startRouteLoad e table n slice) s

/-! ### PORT_OWNER_SET (R274) -/

def startPortOwnerSet (port owner : Byte) (id : Nat) (s : State) : State :=
  let n := port.toNat
  if s.link.tables.any fun t => t.1 != owner.toNat && t.2.any fun e => e.port != 15 && (e.port == n || e.alt == n) then
    s.finish id .wrongState
  else (s.modPort n fun x => { x with owner := owner.toNat }).finish id .ok (leBytes 1 (s.port n).owner)

def checkPortOwnerSet (port : Byte) (_s : State) : Option Status :=
  firstFail [(port.toNat ≤ 11, .badParam)]

def execPortOwnerSet (e : Env) (port owner : Byte) (s : State) : Res :=
  command (.portOwnerSet e port owner) e (checkPortOwnerSet port) (fun _ => false)
    (startPortOwnerSet port owner) s

/-! ### PUT and GET (R277) -/

/-- Checks of a remote GA. -/
def State.remoteChecks (s : State) (ga : Nat) : List (Bool × Status) :=
  [(ga % 64 == 0, .badAlign), (chipOf ga != s.ownChip, .badParam), (spaceOf (keyOf ga) ≤ 1, .badParam)]

def checkPut (e : Env) (src dst len : U64) (s : State) : Option Status :=
  firstFail (s.addrChecks e src.toNat len.toNat true false ++ s.remoteChecks dst.toNat ++ lengthChecks len.toNat)

/-- Start a transfer if the origin has a route; one that reaches SRAM of a core with a running invocation is refused as a
copy is (R170; log 24). -/
def State.beginTransfer (s : State) (e : Env) (id : Nat) (kind : TransKind) (local_ : Option Nat)
    (remote len deadline : Nat) : State :=
  match local_, s.link.originEntry (s.originJob e) (chipOf remote) with
  | none, _ => s.finish id .wrongState
  | some k, sl? =>
    if s.sramBusy k len then s.finish id .wrongState
    else match sl? with
    | none => s.finish id .linkDown
    | some sl => s.startTransfer (some id) kind sl (chipOf remote) k remote len deadline

def startPut (e : Env) (src dst len deadline : U64) (id : Nat) (s : State) : State :=
  s.beginTransfer e id .put (s.heldAddr e src.toNat len.toNat true false) dst.toNat len.toNat deadline.toNat

def execPut (e : Env) (src dst len deadline : U64) (s : State) : Res :=
  command (.put e src dst len deadline) e (checkPut e src dst len) (fun _ => len == 0) (startPut e src dst len deadline) s

def checkGet (e : Env) (src dst len : U64) (s : State) : Option Status :=
  firstFail (s.remoteChecks src.toNat ++ s.addrChecks e dst.toNat len.toNat false true ++ lengthChecks len.toNat)

def startGet (e : Env) (src dst len deadline : U64) (id : Nat) (s : State) : State :=
  s.beginTransfer e id .get (s.heldAddr e dst.toNat len.toNat false true) src.toNat len.toNat deadline.toNat

def execGet (e : Env) (src dst len deadline : U64) (s : State) : Res :=
  command (.get e src dst len deadline) e (checkGet e src dst len) (fun _ => len == 0) (startGet e src dst len deadline) s

/-! ### Collectives (R279-R282) -/

/-- The descriptor header passes check 0x00B8 but for its ranges. -/
def collHeaderOk (opcode : Nat) (bs : List Byte) : Bool :=
  let n := fieldAt bs 6 2
  let block := fieldAt bs 32 4
  fieldAt bs 0 4 == 0x31434C43 && (if opcode = 0x0904 then fieldAt bs 4 1 ≤ 1 else fieldAt bs 4 1 == 0) &&
    fieldAt bs 5 1 == 0 && 2 ≤ n && n ≤ 4096 && fieldAt bs 8 2 < n && allZero (slice bs 10 6) && block % 256 == 0 &&
    (opcode != 0x0903 || block == 0) && allZero (slice bs 36 28)

/-- What member `j` of a collective sends and receives here; none for a range that fails. `hdr` is the header. -/
def State.collMember (s : State) (e : Env) (opcode : Nat) (hdr bs : List Byte) (j : Nat) : Option CollMember :=
  let send := fieldAt hdr 16 8
  let recv := fieldAt hdr 24 8
  let block := fieldAt hdr 32 4
  let chip := fieldAt bs 0 2
  let key := fun (a n : Nat) (rd : Bool) => if n = 0 then some 0 else s.addr e a n rd (!rd)
  match opcode with
  | 0x0903 => match key (send + fieldAt bs 8 8) (fieldAt bs 4 4) true, key (recv + fieldAt bs 24 8) (fieldAt bs 16 4) false with
    | some a, some b => some ⟨chip, a, fieldAt bs 4 4, b, fieldAt bs 16 4⟩
    | _, _ => none
  | 0x0904 => (key (send + j * block) block true).map fun a => ⟨chip, a, block, 0, block⟩
  | _ => match key send block true, key (recv + j * block) block false with
    | some a, some b => some ⟨chip, a, block, b, block⟩
    | _, _ => none

/-- Check 0x00B9 of one member entry. -/
def State.memberOk (s : State) (e : Env) (opcode rank : Nat) (prev : List Nat) (hdr bs : List Byte) (j : Nat) : Bool :=
  let chip := fieldAt bs 0 2
  chip < 4096 && allZero (slice bs 2 2) && allZero (slice bs 20 4) && !prev.contains chip &&
    (j != rank || chip == s.ownChip) &&
    (opcode != 0x0903 || (fieldAt bs 4 4 % 256 == 0 && fieldAt bs 8 8 % 256 == 0 && fieldAt bs 16 4 % 256 == 0 &&
      fieldAt bs 24 8 % 256 == 0)) &&
    (opcode != 0x0903 || (s.collMember e opcode hdr bs j).isSome)

/-- Ranges that the header alone gives. -/
def State.collRangesOk (s : State) (e : Env) (opcode : Nat) (hdr : List Byte) : Bool :=
  let n := fieldAt hdr 6 2
  let block := fieldAt hdr 32 4
  let ok := fun (a len : Nat) (rd : Bool) => len == 0 || (s.addr e a len rd (!rd)).isSome
  match opcode with
  | 0x0903 => true
  | 0x0904 => ok (fieldAt hdr 16 8) (n * block) true && ok (fieldAt hdr 24 8) block false
  | _ => ok (fieldAt hdr 16 8) block true && ok (fieldAt hdr 24 8) (n * block) false

/-- First failed check of a descriptor (R279). -/
def State.collFail (s : State) (e : Env) (opcode : Nat) (hdr : List Byte) (members : List (List Byte)) : Option (Nat × Nat) :=
  if !collHeaderOk opcode hdr || !s.collRangesOk e opcode hdr then some (0x00B8, 0)
  else
    let chips := members.map fun b => fieldAt b 0 2
    (((List.range members.length).find? fun j =>
      !s.memberOk e opcode (fieldAt hdr 8 2) (chips.take j) hdr (members.getD j []) j)).map fun j => (0x00B9, j)

/-! #### Data -/

def State.modColl (s : State) (group : Nat) (f : Coll → Coll) : State :=
  s.modLink fun l => { l with colls := l.colls.map fun c => if c.group == group then f c else c }

def State.coll? (s : State) (group : Nat) : Option Coll := s.link.colls.find? fun c => c.group == group

/-- Bytes received of a slice. -/
def CollSlice.bytes (x : CollSlice) : Nat := (x.parts.map fun p => p.2.1.length).foldl (· + ·) 0

def CollSlice.whole (x : CollSlice) : Bool := x.len == some x.bytes

/-- Data of a slice in order, with the offsets of poisoned bytes. -/
def CollSlice.data (x : CollSlice) : List Byte × List Nat :=
  let ps := x.parts.mergeSort fun a b => a.1 ≤ b.1
  (ps.flatMap (·.2.1), ps.flatMap fun p => p.2.2.map (p.1 + ·))

/-- An EXCHANGE slice of another member that was longer than the room for it (R280). -/
def Coll.cut (c : Coll) (x : CollSlice) : Bool :=
  c.opcode == 0x0903 && x.rank != c.rank && ((x.len.getD 0) > (((c.members[x.rank]?).map (·.rcap)).getD 0))

/-- Contributions of the other members that are complete. -/
def Coll.received (c : Coll) : Nat := (c.slices.filter fun x => x.rank != c.rank && x.whole).length

def Coll.complete (c : Coll) : Bool :=
  (List.range c.members.length).all fun r => c.slices.any fun x => x.rank == r && x.whole

/-- Element width of a reduction's format. -/
def Coll.width (c : Coll) : Nat := fmtWidth c.fmt

/-- The sum of R281 for one element: encodings in rank order. Its encoding, and what it adds to SAT and to FLUSH (R156). -/
def sumRanks (fmt : Nat) (encs : List Nat) : Nat × Nat × Nat :=
  match encs with
  | [] => (0, 0, 0)
  | e :: es =>
    let sum := es.foldl (fun (acc : Nat × Nat) x =>
      let y := roundArith ((fp32 acc.1).add (decodeElem fmt x))
      (y.1, acc.2 + y.2.toNat)) ((roundArith (decodeElem fmt e)).1, 0)
    let v := convElem fmt (fp32 sum.1)
    (v.enc, v.sat.toNat, sum.2 + v.flush.toNat)

/-- Result of a reduction: bytes, offsets of poisoned bytes, and its counts. -/
def Coll.reduce (c : Coll) : List Byte × List Nat × StCnt :=
  let w := c.width / 8
  let rows := (List.range c.members.length).map fun r =>
    ((c.slices.find? fun x => x.rank == r).map CollSlice.data).getD ([], [])
  let n := c.block / max 1 w
  let sums := (List.range n).map fun i => sumRanks c.fmt (rows.map fun d => fieldAt d.1 (w * i) w)
  let total := fun (f : Nat × Nat × Nat → Nat) => sat 32 (sums.foldl (fun n x => n + f x) 0)
  (sums.flatMap fun x => leBytes w x.1, ((rows.flatMap (·.2)).map fun o => o / max 1 w).eraseDups.flatMap fun i => (List.range w).map (w * i + ·),
    { StCnt.zero with sat := total (·.2.1), flush := total (·.2.2) })

/-- A range filled with +0 and marked poisoned (R282). -/
def State.fillPoison (s : State) (k len : Nat) : State := s.writeMarked k (zeros len) (List.range len)

/-- A collective ends: contributions that are missing are filled; a reduction is written, with its counts in the totals since
boot (R156). With nothing missing it completes OK, whatever poison the contributions carry (R282). Its lease ends with it. -/
def State.endColl (s : State) (c : Coll) : State :=
  let missing := (List.range c.members.length).filter fun r => !(c.slices.any fun x => x.rank == r && x.whole)
  let s1 := s.modLink fun l => { l with colls := l.colls.filter fun x => x.group != c.group }
  let s2 :=
    if c.opcode = 0x0904 then
      if missing.isEmpty then (let (bs, ps, n) := c.reduce; (s1.writeMarked c.recv bs ps).count none 0 n) else s1.fillPoison c.recv c.block
    else missing.foldl (fun s r => match c.members[r]? with
      | some m =>
        let len := match (c.slices.find? fun x => x.rank == r).bind (·.len) with
          | some n => min n m.rcap
          | none => m.rcap
        s.fillPoison m.rkey len
      | none => s) s1
  -- a slice that was cut counts as filled, not as received (log 106)
  let cuts := (c.slices.filter fun x => x.whole && c.cut x).length
  match c.cmd with
  | some rec => s2.finish rec (if missing.isEmpty then .ok else .okPoisoned)
      (leBytes 4 (c.received - cuts) ++ leBytes 4 (missing.length + cuts))
  | none => s2.exchangeOver c.group (c.members.mapIdx fun r m =>
      (m.chip, if missing.contains r then none else (c.slices.find? fun x => x.rank == r).map CollSlice.data))

/-- A packet of a slice is taken in: written at its place, cut at the room there (R280). -/
def State.takeSlice (s : State) (c : Coll) (rank off len : Nat) (data : List Byte) (marks : List Nat) : State :=
  match c.members[rank]? with
  | none => s.countDrop
  | some m =>
    let old := (c.slices.find? fun x => x.rank == rank).getD ⟨rank, none, []⟩
    if old.parts.any fun p => p.1 == off then s.countDrop
    else
      let new := { old with len := some len, parts := old.parts ++ [(off, data, marks)] }
      let c1 := { c with slices := (c.slices.filter fun x => x.rank != rank) ++ [new] }
      let keep := min data.length (m.rcap - off)
      let s1 := if c.opcode = 0x0904 then s else s.writeMarked (m.rkey + off) (data.take keep) (marks.filter (· < keep))
      let s2 := s1.modColl c.group fun _ => c1
      if c1.complete then s2.endColl c1 else s2

/-- Send this module's slice to a member: packets of at most 4,032 bytes, one without data for an empty slice; its own
slice is taken in at once. -/
def State.sendSlice (s : State) (c : Coll) (j sliceNo : Nat) : State :=
  match c.members[j]? with
  | none => s
  | some m =>
    let ps := if m.slen = 0 then [(0, 0)] else pieces m.slen
    ps.foldl (fun s p =>
      let k := m.skey + p.1
      let data := s.readBytes k p.2
      let marks := s.poisonOffsets k p.2
      if j = c.rank then (match s.coll? c.group with
        | some c => s.takeSlice c c.rank p.1 m.slen data marks
        | none => s)
      else s.originate (s.mkPkt sliceNo m.chip 0 (.slice c.group c.rank c.opcode c.launch p.1 m.slen p.2) data marks))
      (if m.slen = 0 then s else s.touch m.skey m.slen)

/-- A slice packet belongs to a window: its opcode, its member, and for the exchanges of a routing point, which all members
launch at the same tick, their launch tick (10_experts.md R256, R257; log 140). -/
def Coll.takes (c : Coll) (src rank op launch : Nat) : Bool :=
  op == c.opcode && ((c.members[rank]?).map (·.chip)) == some src && rank != c.rank && (c.cmd.isSome || launch == c.launch)

/-- The window of a slice packet has not opened: there is none of the group, or only an earlier exchange's. -/
def State.opensLater (s : State) (group launch : Nat) : Bool :=
  match s.coll? group with
  | some c => c.cmd.isNone && c.launch < launch
  | none => true

/-- Packets held for the group are delivered into the window that has opened (R280). -/
def State.deliverHeld (s : State) (group : Nat) : State :=
  let due := fun (p : Pkt) => match p.desc with
    | .slice g _ _ launch _ _ _ => g == group && !s.opensLater g launch
    | _ => false
  let mine := s.link.heldColl.filter fun h => due h.2.2
  let s1 := s.modLink fun l => { l with heldColl := l.heldColl.filter fun h => !due h.2.2 }
  mine.foldl (fun s h => match h.2.2.desc, s.coll? group with
    | .slice _ rank op launch off len _, some c =>
      let t := s.freeUnits h.1 h.2.2
      if c.takes h.2.2.src rank op launch then
        t.takeSlice c rank off len h.2.2.data h.2.2.marks
      else t.countDrop
    | _, _ => s.freeUnits h.1 h.2.2) s1

/-- Units of the packets of a slice. -/
def sliceUnits (len : Nat) : Nat :=
  (if len = 0 then [(0, 0)] else pieces len).foldl (fun n p => n + ceilDiv (64 + p.2) 64) 0

/-- Units of VC2 that a port has still to give in a class: its credits without those that other collectives lease, or that
packets outside of windows wait for. -/
def State.spare2 (s : State) (port cls : Nat) : Nat :=
  let waits := ((s.port port).waiting.filter fun w =>
    w.pkt.vc == 2 && w.pkt.cls == cls && (s.link.leases.window s.ownChip w.pkt).isNone).map (·.pkt.units)
  (s.port port).credits 2 cls - waits.foldl (· + ·) 0 - s.link.leases.kept port 2 cls none

/-- The credits of VC2 that a collective leases at its launch: for each slice it sends, those of its packets on the port they
leave by, as far as the port has them (R238, R280; log 100). -/
def State.leaseOf (s : State) (c : Coll) (job : Nat) : List (Nat × Nat × Nat) :=
  c.members.filterMap fun m =>
    if m.chip = s.ownChip then none else
    match (s.link.originEntry job m.chip).bind fun sl => s.link.entry sl m.chip with
    | some e => (s.egress e 0).1.map fun x => (x.1, x.2, min (sliceUnits m.slen) (s.spare2 x.1 x.2))
    | none => none

/-- A collective leases its credits, its window opens, held packets enter it, sending starts. -/
def State.openColl (s : State) (c0 : Coll) (job : Nat) : State :=
  let c := { c0 with lease := s.leaseOf c0 job }
  let s1 := s.modLink fun l => { l with colls := l.colls ++ [c] }
  let s2 := (List.range c.members.length).foldl (fun s j =>
    s.sendSlice c j (((c.members[j]?).bind fun m => s.link.originEntry job m.chip).getD 0)) s1
  s2.deliverHeld c.group

def checkColl (e : Env) (desc : U64) (s : State) : Option Status := firstFail (s.ptrChecks e desc.toNat 64)

/-- Start of the three collectives. -/
def startColl (opcode : Nat) (e : Env) (desc deadline : U64) (group : U16) (id : Nat) (s0 : State) : State :=
  let g := group.toNat
  let s := s0.touch (s0.keyAt e desc.toNat 64 true false) 64
  if s.link.colls.any fun c => c.group == g then s.finish id .wrongState
  else
    let hdr := s.readBytes (s.keyAt e desc.toNat 64 true false) 64
    let n := fieldAt hdr 6 2
    match s.heldAddr e desc.toNat (64 + 32 * n) true false with
    | none => s.finish id .checkFailed (checkResult 0x00B8 0)
    | some k =>
      let s := s.touch (k + 64) (32 * n)
      let raw := (List.range n).map fun j => s.readBytes (k + 64 + 32 * j) 32
      match s.collFail e opcode hdr raw with
      | some (code, item) => s.finish id .checkFailed (checkResult code item)
      | none =>
        let members := (raw.mapIdx fun j b => s.collMember e opcode hdr b j).filterMap fun m => m
        let job := s.originJob e
        if members.any fun m => m.chip != s.ownChip && (s.link.originEntry job m.chip).isNone then s.finish id .linkDown
        else
          let recv := (s.addr e (fieldAt hdr 24 8) (fieldAt hdr 32 4) false true).getD 0
          s.openColl ⟨some id, g, opcode, fieldAt hdr 4 1, fieldAt hdr 8 2, fieldAt hdr 32 4, recv, members,
            if e.atTick then e.launch.toNat else s.now, deadline.toNat, [], []⟩ job

def execExchange (e : Env) (desc deadline : U64) (group : U16) (s : State) : Res :=
  command (.exchange e desc deadline group) e (checkColl e desc) (fun _ => false) (startColl 0x0903 e desc deadline group) s

def execReduceScatter (e : Env) (desc deadline : U64) (group : U16) (s : State) : Res :=
  command (.reduceScatter e desc deadline group) e (checkColl e desc) (fun _ => false) (startColl 0x0904 e desc deadline group) s

def execAllGather (e : Env) (desc deadline : U64) (group : U16) (s : State) : Res :=
  command (.allGather e desc deadline group) e (checkColl e desc) (fun _ => false) (startColl 0x0905 e desc deadline group) s

/-- Packets of this member's slices that have not left are abandoned (R282). -/
def State.dropSlices (s : State) (group : Nat) : State :=
  let mine := fun (p : Pkt) => p.src == s.ownChip && match p.desc with
    | .slice g .. => g == group
    | _ => false
  s.modLink fun l => { l with ports := l.ports.map fun x => { x with waiting := x.waiting.filter fun w => !mine w.pkt } }

/-- Missing contributions at the deadline (R282). -/
def execCollectiveDeadline (group : Nat) (s : State) : Res :=
  match s.coll? group with
  | some c => s.when (s.running && c.deadline != 0 && c.deadline ≤ s.now) ((s.dropSlices group).endColl c)
  | none => .next s

/-! ### MIRROR_SET (R283) -/

/-- Mirroring stops, after the mirror write in flight; an enable that still waits for its buddy completes CANCELLED (log 73). -/
def State.endMirror (s : State) (c : Ctx) : State :=
  match c.mirror with
  | none => s
  | some m =>
    let s1 := (s.dropTransfer m.xtag).modCtx c.id fun d => { d with mirror := none }
    match m.cmd with
    | some rec => s1.finish rec .cancelled
    | none => s1

def startMirrorSet (e : Env) (buddy : BitVec 12) (enable : Bool) (id : Nat) (s : State) : State :=
  match s.ctx? e.ctx.toNat with
  | none => s.finish id .badContext
  | some c =>
    if !enable then (s.endMirror c).finish id .ok
    else match c.evictRegion 1 with
      | none => s.finish id .wrongState
      | some r => match s.link.originEntry c.job buddy.toNat with
        | none => s.finish id .linkDown
        | some sl =>
          let s1 := s.endMirror c
          let tag := s1.freshTag
          (s1.modCtx c.id fun d => { d with mirror := some ⟨buddy.toNat, tag, none, false, some id, []⟩ }).startTransfer (some id)
            (.mirror c.id) sl buddy.toNat 0 (buddy.toNat * 2 ^ 52 + r.target) r.length 0

def checkMirrorSet (buddy : BitVec 12) (enable : Bool) (s : State) : Option Status :=
  firstFail [(!enable || buddy.toNat != s.ownChip, .badParam)]

def execMirrorSet (e : Env) (buddy : BitVec 12) (enable : Bool) (s : State) : Res :=
  command (.mirrorSet e buddy enable) e (checkMirrorSet buddy enable) (fun _ => false)
    (startMirrorSet e buddy enable) s

end Sys2Proof.Machine
end

