-- ==== Sys2Proof/Machine/LinkEvents.lean ====
section
/-! DEFINITION. What happens on the TongLink ports (11_links_and_systems.md): lanes, training and identity (R259, R262-R265),
control frames (R267), retry (R270), stalls (R271), routing (R275), delivered packets (R268, R277-R284). -/

namespace Sys2Proof.Machine

/-! ### Lanes and ports -/

/-- A port goes DOWN: event, journal, and once by itself a new training (R265). -/
def State.portDown (s : State) (n cause : Nat) : State :=
  let auto := !(s.port n).autoUsed
  let s1 := ((s.portTo n .down).event (srcPort n) 0x0024 (leBytes 1 n ++ leBytes 1 cause)).journalAction 0x24
    (leBytes 1 n ++ leBytes 1 cause)
  if !auto then s1 else if (s.port n).off then s1.disablePort n else s1.train n none true

/-- A lane of an UP port fails (R259, Table 11.1). -/
def State.loseLane (s : State) (n lane : Nat) : State :=
  let x := s.port n
  let fail := x.laneFail ||| 2 ^ lane
  let good := goodLanes fail
  let s1 := s.modPort n fun x => { x with laneFail := fail }
  if good.length < 4 then s1.portDown n 1
  else if !x.active.contains lane then s1
  else if good.length = 8 then
    ((s1.modPort n fun x => { x with spareUsed := true, active := good }).event (srcPort n) 0x0022
      (leBytes 1 n ++ leBytes 1 lane)).journalAction 0x22 (leBytes 1 n ++ leBytes 1 lane)
  else
    ((s1.modPort n fun x => { x with width4 := true, spareUsed := false, active := good.take 4 }).event (srcPort n) 0x0023
      (leBytes 1 n ++ zeros 1 ++ leBytes 2 fail)).journalAction 0x23 (leBytes 1 n ++ leBytes 1 lane)

def execLaneFailure (port lane : Nat) (s : State) : Res :=
  s.when (s.running && port ≤ 11 && lane ≤ 8 && (s.port port).st == .up && !bit (s.port port).laneFail lane)
    (s.loseLane port lane)

def execFarEndIdle (port : Nat) (s : State) : Res :=
  s.when (s.running && port ≤ 11 && (s.port port).st == .up) (s.portDown port 3)

/-! ### End of training (Table 11.2, R263, R264) -/

/-- A port is QUARANTINED with a reason: event and journal. -/
def State.quarantine (s : State) (n reason : Nat) : State :=
  let far := (s.port n).far
  ((((s.modPort n fun x => { x with qreason := reason }).portTo n .quarantined).event (srcPort n) 0x0021
    (leBytes 1 n ++ leBytes 1 reason ++ leBytes 2 ((far.map (·.chip)).getD 0) ++ leBytes 1 ((far.map (·.port)).getD 0))).journalAction
      0x21 (leBytes 1 n ++ leBytes 1 reason)).trained n

/-- The first field of a far identity that differs from the expectation, as a reason; none when the port may go UP. -/
def identityReason (expect : Option FarId) (far : FarId) : Option Nat :=
  match expect with
  | none => some 1
  | some e =>
    if far.chip != e.chip then some 2 else if far.port != e.port then some 3
    else if e.digest != 0 && far.digest != e.digest then some 4 else none

/-- The lanes a port runs on, of the lanes without lock `fail`. -/
def Port.withLanes (x : Port) (fail eye : Nat) : Port :=
  let good := goodLanes fail
  let y := { x with laneFail := fail, eye := eye }
  if good.length = 9 then { y with active := good.take 8, width4 := false, spareUsed := false }
  else if good.length = 8 then { y with active := good, width4 := false, spareUsed := !bit fail 8 == true }
  else { y with active := good.take 4, width4 := true, spareUsed := false }

/-- Credits start anew; packets not acknowledged before go out again, then those that wait (log 43). -/
def State.portUp (s : State) (n : Nat) : State :=
  let s1 := (s.modPort n fun x => { x with
    spent := List.replicate 6 0, granted := List.replicate 6 0, freed := List.replicate 6 0, freedSent := List.replicate 6 0,
    heldReplays := 0, waiting := (x.held.map fun p => ⟨p, none⟩) ++ x.waiting, held := [],
    txSeq := ((x.held.head?).map (·.lseq)).getD x.txSeq, waitSince := List.replicate 3 s.elapsed }).portTo n .up
  let x := s1.port n
  let s2 := s1.event (srcPort n) 0x0020 (leBytes 1 n ++ leBytes 1 x.active.length ++ leBytes 2 ((x.far.map (·.chip)).getD 0))
  (s2.flushPort n).trained n

def execLinkTrainingComplete (port : Nat) (good : List Nat) (eye : Nat) (s : State) : Res :=
  let x := s.port port
  if !(s.running && port ≤ 11 && x.st == .training && good.all (· ≤ 8)) then .next s
  else
    let fail := maskOf ((List.range 9).filter fun l => !good.contains l || s.grid.lanesFailed.contains (port, l))
    let s1 := s.modPort port fun x => x.withLanes fail (eye % 256)
    if (goodLanes fail).length < 4 then
      .next ((((s1.modPort port fun x => { x with active := [], width4 := false, spareUsed := false }).portTo port .down).event
        (srcPort port) 0x0024 (leBytes 1 port ++ leBytes 1 1)).journalAction 0x24 (leBytes 1 port ++ leBytes 1 1) |>.trained port)
    else match x.far with
      | none => .next (s1.modPort port fun x => { x with sixAt := some (x.sixAt.getD s.elapsed) })
      | some f => match identityReason x.judged f with
        | some r => .next (s1.quarantine port r)
        | none => .next (s1.portUp port)

/-- No valid identity frame within 300,000 ticks of step 6 (R262). -/
def execIdentityTimeout (port : Nat) (s : State) : Res :=
  s.when (s.running && port ≤ 11 && (s.port port).st == .training && (s.port port).far.isNone &&
    (s.port port).sixAt.any fun t => t + 300000 ≤ s.elapsed) (s.quarantine port 5)

/-- An identity frame on the link (R263). -/
def identityBytes (farPort : Byte) (farChip : U16) (rsv : U32) (digest : U64) (crc : U32) : List Byte :=
  leBytes 1 0x32 ++ leBytes 1 farPort.toNat ++ leBytes 2 farChip.toNat ++ leBytes 4 rsv.toNat ++ leBytes 8 digest.toNat ++
    leBytes 4 crc.toNat

/-- Only an identity frame whose CRC is right and whose reserved fields are zero is taken (R263; log 105). -/
def execIdentity (port : Nat) (farPort : Byte) (farChip : U16) (rsv : U32) (digest : U64) (crc : U32) (s : State) : Res :=
  s.when (s.running && port ≤ 11 && (s.port port).st == .training && crcGood (identityBytes farPort farChip rsv digest crc) &&
      farChip.toNat < 4096 && rsv == 0)
    (s.modPort port fun x => { x with far := some ⟨farChip.toNat, farPort.toNat, digest⟩ })

/-! ### RETRAIN (R262, Table 11.3) -/

/-- Offset of the Links block in BAR0 (15_registers.md Table 15.2). -/
def linksBase : Nat := 0x70000

/-- The journal record of a host write to a Power, Thermal, Health or Links register (Table 3.14); before stage 9 the
write is dropped and the record says WRONG_STATE (15_registers.md). The answer says whether the write takes effect. -/
def State.journalWrite (s : State) (off value : Nat) : State × Bool :=
  let live := s.boot.stage == 9
  (s.journal 0 0xFFFE (if live then 0 else Status.wrongState.code) (leBytes 3 off ++ leBytes 3 value), live)

/-- One port is trained as LINK_TRAIN does. -/
def State.retrain (s : State) (n : Nat) : State :=
  if s.link.chip.isNone then s
  else if (s.port n).off then s.disablePort n
  else s.train n none false

def execRetrain (port : BitVec 4) (value : U64) (s : State) : Res :=
  let n := port.toNat
  if !(s.working && n ≤ 11) then .next s
  else
    let (s1, live) := s.journalWrite (linksBase + 8 * n) value.toNat
    .next (if live && value.getLsbD 63 then s1.retrain n else s1)

/-! ### Control frames (R267) -/

def ackFrame (nak : Bool) (lseq : Nat) : List Byte := leBytes 1 0x33 ++ leBytes 1 (if nak then 1 else 0) ++ leBytes 2 lseq

/-- Acknowledge what has been received in order. -/
def State.sendAck (s : State) (n : Nat) : State :=
  let x := s.port n
  (s.modPort n fun x => { x with unacked := 0 }).control n (ackFrame false ((x.rxSeq + 65535) % 65536))

def execAckTimer (port : Nat) (s : State) : Res :=
  s.when (s.running && port ≤ 11 && (s.port port).st == .up && 0 < (s.port port).unacked) (s.sendAck port)

def execCreditFrameTimer (port : Nat) (vc : BitVec 2) (cls : BitVec 1) (s : State) : Res :=
  let ch := chIx vc.toNat cls.toNat
  let total := (s.port port).freed.getD ch 0
  s.when (s.running && port ≤ 11 && vc.toNat ≤ 2 && (s.port port).st == .up)
    ((s.modPort port fun x => { x with freedSent := x.freedSent.set ch total }).control port
      (leBytes 1 0x34 ++ leBytes 1 (vc.toNat + 4 * cls.toNat) ++ zeros 2 ++ leBytes 4 total))

/-- A credit frame on the link; `tail` is bytes 8-15 and the CRC (Table 11.13). -/
def creditBytes (ch : Byte) (rsv : U16) (total : U32) (tail : BitVec 96) : List Byte :=
  leBytes 1 0x34 ++ leBytes 1 ch.toNat ++ leBytes 2 rsv.toNat ++ leBytes 4 total.toNat ++ leBytes 12 tail.toNat

/-- A credit frame whose CRC is right sets the running total of its VC and class; one that repeats the total brings no credit
(R271). Its reserved bits are ignored (R267; log 105). -/
def execCredit (port : Nat) (ch : Byte) (rsv : U16) (total : U32) (tail : BitVec 96) (s : State) : Res :=
  let vc := ch.toNat % 4
  let cls := ch.toNat / 4 % 2
  s.when (s.running && port ≤ 11 && crcGood (creditBytes ch rsv total tail) && vc ≤ 2 && (s.port port).st == .up)
    ((s.modPort port fun x => { x with granted := x.granted.set (chIx vc cls) total.toNat
                                       waitSince := if x.granted.getD (chIx vc cls) 0 = total.toNat then x.waitSince
                                         else x.waitSince.set vc s.elapsed }).flushPort port)

/-- How far one LSEQ lies behind another, modulo 2^16. -/
def seqAhead (a b : Nat) : Nat := (a + 65536 - b) % 65536

/-- Go back: every held packet from `lseq` on goes out again; when the 32nd replay in a row of one packet has failed too, the
port is DOWN (R265, R270). -/
def State.replay (s : State) (n lseq : Nat) : State :=
  let x := s.port n
  let kept := x.held.filter fun p => seqAhead p.lseq lseq < 32768
  let count := if ((x.held.head?).map (·.lseq)) == ((kept.head?).map (·.lseq)) then x.heldReplays + 1 else 1
  if kept.isEmpty then s.modPort n fun x => { x with held := [], heldReplays := 0 }
  else
    if 32 < count then (s.modPort n fun x => { x with held := kept, heldReplays := 32 }).portDown n 2
    else
      let s1 := s.modPort n fun x =>
        { x with held := kept, heldReplays := count, replays := satAdd 16 x.replays 1, replaysAll := satAdd 32 x.replaysAll 1 }
      (kept.foldl (fun s p => s.sendPkt n p) s1).flushPort n

/-- An acknowledgement frame on the link; `tail` is bytes 4-15 and the CRC (Table 11.13). -/
def ackBytes (flags : Byte) (lseq : U16) (tail : BitVec 128) : List Byte :=
  leBytes 1 0x33 ++ leBytes 1 flags.toNat ++ leBytes 2 lseq.toNat ++ leBytes 16 tail.toNat

/-- An acknowledgement frame whose CRC is right lets go of every held packet up to LSEQ, or as a NAK replays from it; its
reserved bits are ignored (R267, R270; log 105). -/
def execAcknowledgement (port : Nat) (flags : Byte) (lseq : U16) (tail : BitVec 128) (s : State) : Res :=
  let lseq := lseq.toNat
  if !(s.running && port ≤ 11 && crcGood (ackBytes flags lseq tail) && (s.port port).st == .up) then .next s
  else if flags.getLsbD 0 then .next (s.replay port lseq)
  else
    .next ((s.modPort port fun x =>
      let kept := x.held.filter fun p => seqAhead lseq p.lseq ≥ 32768
      { x with held := kept, heldReplays := if kept.length < x.held.length then 0 else x.heldReplays }).flushPort port)

/-- A time probe on the link (Table 11.13). -/
def probeBytes (flags : Byte) (probe : U16) (turn : U32) (stamp : U64) (crc : U32) : List Byte :=
  leBytes 1 0x35 ++ leBytes 1 flags.toNat ++ leBytes 2 probe.toNat ++ leBytes 4 turn.toNat ++ leBytes 8 stamp.toNat ++
    leBytes 4 crc.toNat

/-- A probe request is answered; TURN, the module's own time between, is not stated (log 2). A reply gives one of the 64
measurements that make the one-way delay (log 44). -/
def execTimeProbe (port : Nat) (flags : Byte) (probe : U16) (turn : U32) (stamp : U64) (crc : U32) (at_ : U64)
    (s : State) : Res :=
  let x := s.port port
  if !(s.running && port ≤ 11 && crcGood (probeBytes flags probe turn stamp crc) && (x.st == .training || x.st == .up)) then
    .next s
  else if !flags.getLsbD 0 then
    let (t, s1) := s.draw
    .next (s1.control port (leBytes 1 0x35 ++ leBytes 1 1 ++ leBytes 2 probe.toNat ++ leBytes 4 t.toNat ++
      leBytes 8 stamp.toNat))
  else if x.st != .training || 64 ≤ x.probes.length then .next s
  else
    let ps := x.probes ++ [at_.toNat - stamp.toNat - turn.toNat]
    .next (s.modPort port fun x => { x with
      probes := ps, delay := if ps.length = 64 then ps.foldl (· + ·) 0 / 128 else x.delay })

/-! ### Packets (R270, R275) -/

/-- One packet arrives: CRC, LSEQ, owner of the port, then to transit or delivery; `fecOk`: no codeword of it was
uncorrectable. One for this module of a reserved TYPE is dropped at once (log 105). -/
def execPacketReceive (port : Nat) (fecOk : Bool) (got : Arrived) (s : State) : Res :=
  let x := s.port port
  let p := Pkt.of got.bytes got.marks
  if !(s.running && port ≤ 11 && x.st == .up) then .next s
  else if !(fecOk && wireGood got.bytes) then .next (s.control port (ackFrame true x.rxSeq))
  else if p.vc = 3 then .next s
  else if p.lseq != x.rxSeq then
    .next (if seqAhead p.lseq x.rxSeq < 32768 then s.control port (ackFrame true x.rxSeq) else s)
  else
    let s1 := s.modPort port fun x => { x with rxSeq := (x.rxSeq + 1) % 65536, unacked := x.unacked + 1 }
    let s2 := if 64 ≤ x.unacked + 1 then s1.sendAck port else s1
    if p.slice != x.owner then .next ((s2.countDrop).freeUnits port p)
    else if p.dst = s.ownChip && s.link.chip.isSome then
      if p.desc.code = 0 || 9 < p.desc.code then .next ((s2.countDrop).freeUnits port p)
      else .next (s2.modLink fun l => { l with delivered := l.delivered ++ [(port, p)] })
    else .next (s2.modLink fun l => { l with transit := l.transit ++ [(port, p)] })

/-- The oldest packet in transit moves on, with TTL decremented, or is dropped; it holds its buffer until it leaves (R269). -/
def execTransitForward (s : State) : Res :=
  match s.link.transit with
  | [] => .next s
  | (n, p) :: rest =>
    let s1 := s.modLink fun l => { l with transit := rest }
    let q := { p with ttl := p.ttl - 1 }
    s.when s.running
      (if q.ttl = 0 then (s1.freeUnits n p).bounce p 3
       else match s1.tryRoute q with
        | .ok (s2, m, r) => s2.enqueue m ⟨r, some (n, p.cls)⟩
        | .error cause => (s1.freeUnits n p).bounce p cause)

/-- No credit for 10 ms on a virtual channel with waiting packets (R271). -/
def execVcStall (port vc : Nat) (s : State) : Res :=
  let gone := (s.port port).waiting.filter fun w => w.pkt.vc == vc
  if !(s.running && port ≤ 11 && vc ≤ 2 && !gone.isEmpty && (s.port port).waitSince.getD vc 0 + 1000000 ≤ s.elapsed) then .next s
  else
    let s1 := s.modPort port fun x => { x with waiting := x.waiting.filter fun w => w.pkt.vc != vc }
    let s2 := gone.foldl (fun s w => (s.leaveBuffer w).bounce w.pkt 4) s1
    .next (s2.event (srcPort port) 0x0026 (leBytes 1 port ++ leBytes 1 vc ++ zeros 2 ++ leBytes 4 gone.length))

/-! ### Delivered packets (R268) -/

/-- The oldest delivered packet of a type leaves the buffer; one that is not well formed is dropped. -/
def State.deliverRow (s : State) (type : Nat) (act : Pkt → State → State) : Res :=
  match s.link.delivered.find? fun d => d.2.desc.code == type with
  | none => .next s
  | some (n, p) =>
    if !s.running then .next s
    else
      let s1 := (s.modLink fun l => { l with delivered := l.delivered.erase (n, p) }).freeUnits n p
      .next (if p.wellFormed then act p s1 else s1.countDrop)

/-- The range a peer has opened with this tag. -/
def State.openedBy (s : State) (p : Pkt) : Option Opened :=
  s.link.opened.find? fun o => o.src == p.src && o.xtag == p.xtag && o.live s.now

def State.setOpened (s : State) (o : Opened) : State :=
  s.modLink fun l => { l with opened := l.opened.map fun x => if x.src == o.src && x.xtag == o.xtag then o else x }

def State.closeOpened (s : State) (src xtag : Nat) : State :=
  s.modLink fun l => { l with opened := l.opened.filter fun x => !(x.src == src && x.xtag == xtag) }

/-- Bytes of an opened range that have been written or read. -/
def Opened.bytes (o : Opened) : Nat := (o.done.map (·.2)).foldl (· + ·) 0

/-- One packet of an opened range, noted once; the range closes with its last byte. -/
def State.noteOpened (s : State) (o : Opened) (ga len : Nat) : State × Opened :=
  let off := ga - o.ga
  let o1 := if o.done.any fun d => d.1 == off then o else { o with done := o.done ++ [(off, len)] }
  (if o1.len ≤ o1.bytes then s.closeOpened o.src o.xtag else s.setOpened o1, o1)

/-- A packet's range lies in the opened one, which this module holds. -/
def State.inOpened (s : State) (o : Opened) (ga len : Nat) : Bool :=
  o.ga ≤ ga && ga + len ≤ o.ga + o.len && s.rangeOk (keyOf ga) len

/-- Written where the open packet said; acknowledged with the bytes written so far. -/
def execWriteData (s : State) : Res :=
  s.deliverRow 1 fun p s => match p.desc, s.openedBy p with
    | .writeData ga len, some o =>
      if o.op = 0 && s.inOpened o ga len then
        let s1 := s.writeMarked (keyOf ga) p.data p.marks
        let (s2, o1) := s1.noteOpened o ga len
        s2.originate (s2.mkPkt p.slice p.src p.xtag (.e2eAck o1.bytes (o1.len ≤ o1.bytes)) [] [])
      else s.countDrop
    | _, _ => s.countDrop

def execReadRequest (s : State) : Res :=
  s.deliverRow 2 fun p s => match p.desc, s.openedBy p with
    | .readRequest ga len, some o =>
      if o.op = 1 && s.inOpened o ga len then
        let k := keyOf ga
        let s0 := s.touch k len
        let data := s0.readBytes k len
        let marks := s0.poisonOffsets k len
        let (s1, _) := s0.noteOpened o ga len
        s1.originate (s1.mkPkt p.slice p.src p.xtag (.readData ga len) data marks)
      else s.countDrop
    | _, _ => s.countDrop

/-- Data of a GET are written locally; data of a weight shard wait for its digest. -/
def execReadData (s : State) : Res :=
  s.deliverRow 3 fun p s => match p.desc, s.transfer? p.xtag with
    | .readData ga len, some t =>
      let off := ga - t.remote
      let fits := t.chip == p.src && t.opened && t.remote ≤ ga && ga + len ≤ t.remote + t.len
      let dup := t.parts.any fun q => q.1 == off
      match t.kind with
      | .get =>
        if !fits || dup then s.countDrop
        else
          let s1 := s.writeMarked (t.local_ + off) p.data p.marks
          let t1 := { t with moved := t.moved + len, poisoned := t.poisoned || !p.marks.isEmpty, parts := t.parts ++ [(off, [], [])] }
          let s2 := s1.modTransfer t.xtag fun _ => t1
          if t1.len ≤ t1.moved then s2.endTransfer t1 (if t1.poisoned then .okPoisoned else .ok) (leBytes 8 t1.moved) else s2
      | .shard _ _ =>
        if !fits || dup then s.countDrop
        else s.modTransfer t.xtag fun t => { t with moved := t.moved + len, parts := t.parts ++ [(off, p.data, p.marks)] }
      | _ => s.countDrop
    | _, _ => s.countDrop

/-- A slice enters its window, or is held up to 64 KiB a port (R280). -/
def execCollectiveSlice (s : State) : Res :=
  match s.link.delivered.find? fun d => d.2.desc.code == 4 with
  | none => .next s
  | some (n, p) => match p.desc with
    | .slice group rank op launch off len _ =>
      if s.running && p.wellFormed && s.opensLater group launch then
        let used := ((s.link.heldColl.filter fun h => h.1 == n).map fun h => h.2.2.data.length).foldl (· + ·) 0
        let s1 := s.modLink fun l => { l with delivered := l.delivered.erase (n, p) }
        if used + p.data.length ≤ 65536 then
          .next (s1.modLink fun l => { l with heldColl := l.heldColl ++ [(n, s.elapsed, p)] })
        else .next ((s1.freeUnits n p).countDrop)
      else s.deliverRow 4 fun p s => match s.coll? group with
        | some c =>
          if c.takes p.src rank op launch then
            s.takeSlice c rank off len p.data p.marks
          else s.countDrop
        | none => s.countDrop
    -- a descriptor with a reserved field set (R268)
    | _ => s.deliverRow 4 fun _ s => s.countDrop

/-- A packet held for 100,000 ticks is discarded and counted. -/
def execHeldPacketDiscard (port : Nat) (s : State) : Res :=
  match s.link.heldColl.find? fun h => h.1 == port with
  | some (n, t, p) => s.when (s.running && t + 100000 ≤ s.elapsed)
      (((s.modLink fun l => { l with heldColl := l.heldColl.erase (n, t, p) }).freeUnits n p).countDrop)
  | none => .next s

/-- Mirror data are written into the opened mirror area. -/
def execMirrorData (s : State) : Res :=
  s.deliverRow 5 fun p s => match p.desc, s.openedBy p with
    | .mirror _ _ off n _, some o =>
      if o.op = 2 && s.inOpened o (o.ga + off) n then s.writeMarked (keyOf (o.ga + off)) p.data p.marks else s.countDrop
    | _, _ => s.countDrop

/-- An open is accepted when the range lies in one live allocation (R277). -/
def execOpenRange (s : State) : Res :=
  s.deliverRow 6 fun p s => match p.desc with
    | .openRange ga len op deadline =>
      let ok := s.ownGa ga && op ≤ 2 && (s.mem.allocOf (keyOf ga) len).isSome
      let s1 := if ok then (s.closeOpened p.src p.xtag).modLink fun l =>
          { l with opened := l.opened ++ [⟨p.src, p.xtag, ga, len, op, deadline, []⟩] }
        else s
      s1.originate (s1.mkPkt p.slice p.src p.xtag (.openReply (if ok then 0 else 0x0303) (if ok then 0 else 0x00C0)) [] [])
    | _ => s

/-- The reply starts the data, or refuses the command. -/
def execOpenReply (s : State) : Res :=
  s.deliverRow 7 fun p s => match p.desc, s.transfer? p.xtag with
    | .openReply code _, some t =>
      if t.chip != p.src || t.opened then s.countDrop
      else if code != 0 then
        match t.kind with
        | .shard _ _ => s.modTransfer t.xtag fun t => { t with retryAt := some (s.elapsed + 100000) }
        | _ => s.endTransfer t .checkFailed (checkResult 0x00C0 0)
      else
        let t1 := { t with opened := true, cmd := match t.kind with
          | .mirror _ => none
          | _ => t.cmd }
        let s1 := s.modTransfer t.xtag fun _ => t1
        match t.kind with
        | .mirror c =>
          let s2 := s1.modCtx c fun x => { x with
            mirror := x.mirror.map fun m => if m.xtag = t.xtag then { m with ready := true, cmd := none } else m }
          match t.cmd with
          | some rec => s2.finish rec .ok
          | none => s2
        | _ => s1.sendData t1
    | _, _ => s.countDrop

def execEndToEndAcknowledgement (s : State) : Res :=
  s.deliverRow 8 fun p s => match p.desc, s.transfer? p.xtag with
    | .e2eAck bytes final, some t =>
      if t.chip != p.src || t.kind != .put then s.countDrop
      else
        let t1 := { t with moved := max t.moved (min t.len bytes) }
        let s1 := s.modTransfer t.xtag fun _ => t1
        if final then s1.endTransfer t1 (if t.poisoned then .okPoisoned else .ok) (leBytes 8 t.len) else s1
    | _, _ => s.countDrop

def execUnreachable (s : State) : Res :=
  s.deliverRow 9 fun p s => match p.desc with
    | .unreachable _ _ type xtag => s.unreached type xtag
    | _ => s

/-! ### Transfers (R278) -/

/-- One millisecond after the failure the outstanding packets go out again. -/
def execTransferRetry (xtag : Nat) (s : State) : Res :=
  match s.transfer? xtag with
  | some t => match t.retryAt with
    | some at_ =>
      let t1 := { t with retryAt := none, retried := true }
      let s1 := s.modTransfer xtag fun _ => t1
      s.when (s.running && at_ ≤ s.elapsed) (if t.opened then s1.sendData t1 else s1.sendOpen t1)
    | none => .next s
  | none => .next s

/-- A PUT or GET reaches its deadline. -/
def execTransferDeadline (xtag : Nat) (s : State) : Res :=
  match s.transfer? xtag with
  | some t => s.when (s.running && (t.kind == .put || t.kind == .get) && t.deadline != 0 && t.deadline ≤ s.now)
      (s.endTransfer t .deadline (leBytes 8 t.moved))
  | none => .next s

end Sys2Proof.Machine
end

