-- ==== Sys2Proof/Machine/Power.lean ====
section
/-! DEFINITION. Power, phases and cooling (12_power_and_cooling.md R287-R308): commands, host writes of the caps and of
FLOW_K, supply samples, the loops, Keep-warm, the manager watch, temperature, flow and Simmer. -/

namespace Sys2Proof.Machine

/-! ### Operating point and duty (R289, R290) -/

/-- A change of point or duty leaves its trace record (Table 13.12). -/
def State.tracePoint5 (s old : State) : State :=
  if s.pwr.op = old.pwr.op && s.pwr.duty = old.pwr.duty then s
  else s.trace 5 0 (leBytes 1 s.pwr.op ++ leBytes 1 s.pwr.duty ++ leBytes 2 s.pwr.cap)

/-- The clock moves towards a point: a slower clock at once with the rail following, a faster one after the rail. -/
def Power.moveTo (p : Power) (q : Nat) : Power :=
  if q = p.op then { p with settling := p.settling.map fun _ => p.op }
  else if p.op < q then { p with op := q, settling := some q }
  else { p with settling := some q }

/-- Follow the point the loops and phases ask for (R291). -/
def State.adjustOp (s : State) : State :=
  let q := s.targetOp
  if s.pwr.settling.getD s.pwr.op = q then s
  else (s.modPwr fun p => p.moveTo q).tracePoint5 s

/-- Set the duty; under the VIN clamp at most 8/16 (R287). -/
def State.setDuty (s : State) (d : Nat) : State :=
  let d := min (if s.pwr.clamp then 8 else 16) (max 1 d)
  if d = s.pwr.duty then s
  else (s.modPwr fun p => { p with duty := d, dutyAt := s.elapsed }).tracePoint5 s

/-- Event 0x0043 for each phase in force that newly runs below its floor (R291). -/
def State.watchPhases (s : State) : State :=
  let low := s.phasesNow.filter fun p => s.pwr.opFloor p < s.pwr.op
  let new := low.filter fun p => !s.pwr.told.contains p
  let s1 := if low = s.pwr.told then s else s.modPwr fun p => { p with told := low }
  new.foldl (fun s p => s.event srcPower 0x0043 (leBytes 1 p ++ leBytes 1 s.pwr.op ++ leBytes 1 (s.pwr.opFloor p))) s1

/-- What the power loops do at a tick: the point follows the phases, and floors are watched. -/
def State.phaseTick (s : State) : State := if s.running then s.adjustOp.watchPhases else s

/-! ### The cap in force (R294, R299) -/

/-- The cap in force was `old`: a change is reported, and a fall begins R299. -/
def State.capChanged (s : State) (old cause : Nat) : State :=
  let new := s.pwr.cap
  if new = old then s
  else
    let s1 := s.event srcPower 0x0040 (leBytes 4 new ++ leBytes 1 cause)
    if new < old then s1.modPwr fun p => { p with capFall := 1 } else s1

/-- Change the limits and report what becomes of the cap. -/
def State.setLimits (s : State) (f : Power → Power) (cause : Nat) : State := (s.modPwr f).capChanged s.pwr.cap cause

def clampTo (lo hi n : Nat) : Nat := max lo (min hi n)

/-- A held value of MGR_TIMEOUT (R295). -/
def heldTimeout (n : Nat) : Nat := if n = 0 then 0 else clampTo 1000 600000 n

/-- Milliseconds since the last heartbeat, or since the watch started. -/
def State.sinceBeat (s : State) : Nat := (s.elapsed - s.pwr.lastBeat) / 100000

/-- The lost state ends (R303). -/
def State.managerBack (s : State) : State :=
  if !s.pwr.mgrLost then s
  else
    let s1 := s.event srcPower 0x0042 (leBytes 1 1 ++ zeros 3 ++ leBytes 4 s.sinceBeat)
    (s1.journalAction 0x41 (leBytes 1 4)).setLimits (fun p => { p with mgrLost := false }) 4

/-- With the watch disabled a lost state ends at once. -/
def State.watchOff (s : State) : State := if s.pwr.timeout = 0 then s.managerBack else s

/-! ### Commands (R293-R295, R302, R303) -/

/-- A field of PWR_LIMITS: zero leaves the register. -/
def fieldOk (n lo hi : Nat) : Bool := n == 0 || (decide (lo ≤ n) && decide (n ≤ hi))

def checkPwrLimits (peak window lost timeout : U32) : Option Status :=
  firstFail [(fieldOk peak.toNat 1500 6500, .badParam), (fieldOk window.toNat 100 1000, .badParam),
    (fieldOk lost.toNat 1500 6500, .badParam),
    (timeout == 0xFFFFFFFF || fieldOk timeout.toNat 1000 600000, .badParam)]

/-- The non-zero fields over what the registers hold. -/
def Power.withLimits (p : Power) (sustain peak window lost timeout : U32) : Power :=
  { p with
    sustainCap := if sustain = 0 then p.sustainCap else clampTo 1500 6500 sustain.toNat
    peakCap := if peak = 0 then p.peakCap else peak.toNat
    window := if window = 0 then p.window else window.toNat
    lostCap := if lost = 0 then p.lostCap else lost.toNat
    timeout := if timeout = 0 then p.timeout else if timeout = 0xFFFFFFFF then 0 else timeout.toNat }

/-- The limits by the cause number Table 12.7 gives each: sustained cap, peak cap, lost-manager cap while it is in force. -/
def Power.limitsBy (p : Power) : List (Nat × Nat) :=
  [(1, p.sustainCap), (2, p.peakCap)] ++ if p.mgrLost then [(3, p.lostCap)] else []

/-- The limit that moved the cap in force: one that has changed and is the new cap, or else one that was the old cap. -/
def Power.capCause (old new : Power) : Nat :=
  let moved := (old.limitsBy.zip new.limitsBy).filter fun x => x.1.2 != x.2.2
  match moved.find? fun x => x.2.2 == new.cap with
  | some x => x.1.1
  | none => ((moved.find? fun x => x.1.2 == old.cap).map (·.1.1)).getD 1

def startPwrLimits (sustain peak window lost timeout : U32) (id : Nat) (s : State) : State :=
  let cause := s.pwr.capCause (s.pwr.withLimits sustain peak window lost timeout)
  ((s.setLimits (fun p => p.withLimits sustain peak window lost timeout) cause).watchOff).finish id .ok

def execPwrLimits (e : Env) (sustain peak window lost timeout : U32) (s : State) : Res :=
  command (.pwrLimits e sustain peak window lost timeout) e (fun _ => checkPwrLimits peak window lost timeout)
    (fun _ => false) (startPwrLimits sustain peak window lost timeout) s

def checkPhaseTableSet (e : Env) (table : U64) (n : Byte) (s : State) : Option Status :=
  firstFail (s.ptrChecks e table.toNat (8 * n.toNat) ++ [(decide (n.toNat ≤ 16), Status.badParam)])

/-- An entry PHASE_TABLE_SET accepts. -/
def phaseEntryOk (v : Nat) : Bool := v < 512 && bits v 3 0 ≤ bits v 7 4

def startPhaseTableSet (e : Env) (table : U64) (n : Byte) (id : Nat) (s0 : State) : State :=
  let k := s0.keyAt e table.toNat (8 * n.toNat) true false
  let s := s0.touch k (8 * n.toNat)
  let es := (List.range n.toNat).map fun i => s.readNat (k + 8 * i) 8
  match es.findIdx? fun v => !phaseEntryOk v with
  | some i => s.finish id .checkFailed (checkResult 0x00D0 i)
  | none =>
    let s1 := s.modPwr fun p => { p with phases := es.map (BitVec.ofNat 64) ++ p.phases.drop n.toNat }
    (if s1.running then s1.adjustOp else s1).finish id .ok

def execPhaseTableSet (e : Env) (table : U64) (n : Byte) (s : State) : Res :=
  command (.phaseTableSet e table n) e (checkPhaseTableSet e table n) (fun _ => n == 0) (startPhaseTableSet e table n) s

def startKeepwarmSet (floor ramp : U32) (id : Nat) (s : State) : State :=
  (s.modPwr fun p => { p with floor := floor.toNat, ramp := ramp.toNat }).finish id .ok

def checkKeepwarmSet (floor : U32) (ramp : U32) (_s : State) : Option Status :=
  firstFail [(decide (floor.toNat ≤ 4000), .badParam), (decide (ramp.toNat ≤ 100000), .badParam)]

def execKeepwarmSet (e : Env) (floor ramp : U32) (s : State) : Res :=
  command (.keepwarmSet e floor ramp) e
    (checkKeepwarmSet floor ramp)
    (fun _ => false) (startKeepwarmSet floor ramp) s

def startMgrHeartbeat (seq : U32) (id : Nat) (s : State) : State :=
  ((s.managerBack).modPwr fun p => { p with lastBeat := s.elapsed }).finish id .ok (leBytes 4 seq.toNat)

def execMgrHeartbeat (e : Env) (seq : U32) (s : State) : Res :=
  command (.mgrHeartbeat e seq) e (fun _ => none) (fun _ => false) (startMgrHeartbeat seq) s

def startPwrQuery (id : Nat) (s : State) : State :=
  s.finish id .ok (leBytes 4 s.pwr.mean ++ leBytes 4 s.pwr.cap ++ leBytes 8 s.pwr.energy)

def execPwrQuery (e : Env) (s : State) : Res :=
  command (.pwrQuery e) e (fun _ => none) (fun _ => false) startPwrQuery s

/-! ### Host writes (R295, R362, R304) -/

/-- Write a cap register with a value of its 16-bit field, clamped. -/
def State.writeCap (s : State) (reg : CapReg) (v : Nat) : State :=
  let w := clampTo 1500 6500 (v % 65536)
  match reg with
  | .peak => s.setLimits (fun p => { p with peakCap := w }) 2
  | .sustain => s.setLimits (fun p => { p with sustainCap := w }) 1
  | .lostMgr => s.setLimits (fun p => { p with lostCap := w }) 3

def capOffset : CapReg → Nat
  | .peak => powerBase
  | .sustain => powerBase + 0x010
  | .lostMgr => powerBase + 0x040

/-- The write is journaled, and dropped before stage 9 (R354). -/
def State.hostWrite (s : State) (off value : Nat) (f : State → State) : State :=
  let (s1, live) := s.journalWrite off value
  if live then f s1 else s1

def execPowerCapWrite (reg : CapReg) (value : U64) (s : State) : Res :=
  s.when s.working (s.hostWrite (capOffset reg) value.toNat fun s => s.writeCap reg value.toNat)

/-- The fields of COOLANT_LIMITS, clamped; FLOW_K restarts the 10 ms count (Table 12.5). -/
def State.writeCoolant (s : State) (v : Nat) : State :=
  s.modTherm fun t => { t with inletMax := clampTo 15 45 (bits v 31 24), flowWarn := clampTo 20 60 (bits v 23 16),
                               flowK := bits v 15 0, pulses := [], flowStart := s.elapsed }

def execFlowKWrite (value : U64) (s : State) : Res :=
  s.when s.working (s.hostWrite (thermalBase + 0x020) value.toNat fun s => s.writeCoolant value.toNat)

/-! ### Supply (R287, R288, R296) -/

/-- Trivet for power or temperature: event and journal record first (R308). -/
def State.powerTrivet (s : State) (cause trivetCause : Nat) : State :=
  ((s.event srcThermal 0x0049 (leBytes 1 cause ++ zeros 1 ++ leBytes 2 (unsigned 16 s.therm.tempMax) ++
    leBytes 4 (unsigned 32 s.pins.vinMv))).journalAction 0x44 (leBytes 1 cause)).enterTrivet trivetCause

/-- The share of the dynamic power of OP0 at full duty that a point and duty draw, in 1/16,000. -/
def scaleOf (op duty : Nat) : Nat := opPower op * duty

/-- The share at the present clock: half of it while the clock is stretched to twice its period (R296). -/
def Power.scale (p : Power) : Nat := scaleOf p.op p.duty / (if p.hard || p.droop.any id then 2 else 1)

/-- Energy, the last 1,000 samples, and the run lengths of Table 12.1. -/
def Power.sample (p : Power) (mv : Int) (watts : Nat) : Power :=
  { p with
    samples := (watts :: p.samples).take 1000
    scales := (p.scale :: p.scales).take 1000
    energy := (p.energy + watts) % 2 ^ 64
    low30 := if mv < 30000 then p.low30 + 1 else 0
    high40 := if 40000 < mv then p.high40 + 1 else 0
    high42 := if 42000 < mv then p.high42 + 1 else 0
    good33 := if p.clamp && 33000 ≤ mv then p.good33 + 1 else 0
    droop := [false, false, false, false] }

/-- The hard cap stretches the clock from a mean of 20 samples above 7,200 W until one of 6,800 W (R296). -/
def Power.hardCap (p : Power) : Power :=
  let sum := p.sumOf 20
  { p with hard := 20 ≤ p.samples.length && (7200 * 20 < sum || (p.hard && 6800 * 20 < sum)) }

/-- VIN in the payload of events 0x0041 and 0x0044. -/
def vinPayload (mv : Int) : List Byte := leBytes 4 (unsigned 32 mv)

/-- The VIN clamp is applied: duty 8/16 at once, the cap at 2,600 W. -/
def State.applyClamp (s : State) (mv : Int) : State :=
  let old := s.pwr.cap
  let s1 := s.modPwr fun p => { p with clamp := true, good33 := 0 }
  let s2 := s1.setDuty (min 8 s1.pwr.duty)
  let s3 := (s2.event srcPower 0x0041 (zeros 4 ++ vinPayload mv)).journalAction 0x45 (leBytes 1 5)
  s3.capChanged old 5

def State.releaseClamp (s : State) (mv : Int) : State :=
  let old := s.pwr.cap
  let s1 := s.modPwr fun p => { p with clamp := false, good33 := 0 }
  (s1.event srcPower 0x0041 (leBytes 1 1 ++ zeros 3 ++ vinPayload mv)).capChanged old 6

/-- The responses of a running supply, outside Trivet. -/
def State.vinResponse (s : State) (mv : Int) : State :=
  let s1 := if !s.pwr.clamp && mv < 32000 then s.applyClamp mv
    else if s.pwr.clamp && 1000 ≤ s.pwr.good33 then s.releaseClamp mv else s
  let s2 := if s.pwr.high40 = 10 then s1.event srcPower 0x0044 (zeros 4 ++ vinPayload mv) else s1
  if 100 ≤ s.pwr.low30 then s2.powerTrivet 2 4
  else if 100 ≤ s.pwr.high42 then s2.powerTrivet 3 5
  else s2

/-- One microsecond's sample. Beyond the absolute maximum ratings the module may be damaged (Table 16.2). -/
def execVinSample (mv : Int) (watts : Nat) (s : State) : Res :=
  if 48000 < mv || mv < -500 then .fault .beyondAbsoluteMaximum
  else
    let s0 := s.modPins fun p => { p with vinMv := mv, vinPresent := true }
    if !s.pins.rails then .next s0
    else if mv < 28000 then .next s0.railsOff
    else if !s.alive then .next s0
    else
      let s1 := s0.modPwr fun p => (p.sample mv watts).hardCap
      .next (if s.boot.trivet then s1 else s1.vinResponse mv)

/-- A detector trips; the rail is taken to have recovered by the next sample of the supply (log 56). -/
def execDroopTrip (die : BitVec 2) (s : State) : Res :=
  s.when s.working (s.modPwr fun p => { p with droop := p.droop.set die.toNat true })

/-! ### Peak limiter, sustained loop, cap fall (R297-R299) -/

/-- Duty rises every 5,000 ticks below 92 %; while the firmware raises it after a cap fall, only by R299's steps. -/
def execPeakLimiterAdjust (s : State) : Res :=
  let p := s.pwr
  let n := min p.window p.samples.length
  let sum := p.sumOf n
  let since := s.elapsed - p.dutyAt
  if !s.working || n = 0 then .next s
  else if 97 * p.peakCap * n ≤ 100 * sum && 500 ≤ since then .next (s.setDuty (p.duty - 1))
  else if 100 * sum < 92 * p.peakCap * n && 5000 ≤ since && (p.capFall = 0 || s.boot.stage != 9) then .next (s.setDuty (p.duty + 1))
  else .next s

/-- Whether the power predicted at a point and duty is at most 95 % of the cap in force. The last 1 ms gives the prediction:
of its mean, `fixedW` does not scale, and the rest scales with the point and duty it was drawn at (R298). With n samples
summing to P and their scales to S, the prediction is fixedW + (P - n·fixedW)·scale/S. -/
def Power.fits (p : Power) (fixedW op duty : Nat) : Bool :=
  let n := min 1000 p.samples.length
  let all := (p.scales.take n).sum
  decide (100 * (fixedW * all + (p.sumOf n - n * fixedW) * scaleOf op duty) ≤ 95 * p.cap * all)

/-- The fastest point that fits at a duty; none when none does. -/
def Power.fastest (p : Power) (fixedW duty : Nat) : Option Nat := (List.range 16).find? fun q => p.fits fixedW q duty

/-- The largest duty, not above `top`, that fits at a point; 1 where none does. -/
def Power.largestDuty (p : Power) (fixedW op top : Nat) : Nat :=
  ((List.range top).map (· + 1)).foldl (fun best d => if p.fits fixedW op d then d else best) 1

/-- The rail has settled at the point chosen after a cap fall: duty may rise from now on (R299). -/
def Power.settled (p : Power) (elapsed : Nat) : Power := { p with capFall := 4, settledAt := elapsed }

/-- The loop chooses at the duty of the last 1 ms; after a cap fall at full duty, since duty rises again (R299). Where not
even OP15 fits, duty is lowered too, which R290 gives for throttling below a point, and rises again as after a cap fall
(log 57). -/
def State.runLoop (s : State) (fixedW : Nat) : State :=
  let fall := s.pwr.capFall
  let best := s.pwr.fastest fixedW (if 2 ≤ fall then 16 else s.pwr.duty)
  let s1 := (s.modPwr fun p => { p with loopOp := best.getD 15 }).adjustOp
  let s2 := if fall = 2 then
      s1.modPwr fun p => if p.settling.isSome then { p with capFall := 3 } else p.settled s.elapsed
    else s1
  if best.isNone && (fall = 0 || 4 ≤ fall) then
    ((if fall = 0 then s2.modPwr fun p => { p with capFall := 5, settledAt := s.elapsed } else s2)).setDuty (s.pwr.largestDuty fixedW 15 s.pwr.duty)
  else s2

def execSustainedLoopRun (fixedW : Nat) (s : State) : Res :=
  s.when (s.running && 1000 ≤ s.pwr.samples.length) (s.runLoop fixedW)

/-- Step 1 of R299: duty falls to what fits. Step 2, from 500 ticks after the rail has settled: duty rises by one sixteenth
every 500 ticks while the power at the raised duty fits. -/
def execCapFallDutyStep (fixedW : Nat) (s : State) : Res :=
  let p := s.pwr
  if !s.working then .next s
  else match p.capFall with
    | 1 => .next ((s.modPwr fun p => { p with capFall := 2 }).setDuty (p.largestDuty fixedW p.op p.duty))
    | 4 | 5 =>
      if 16 ≤ p.duty then .next (s.modPwr fun p => { p with capFall := 0 })
      else if s.elapsed < max p.dutyAt p.settledAt + 500 || p.settling.isSome || !p.fits fixedW p.op (p.duty + 1) then .next s
      else .next (s.setDuty (p.duty + 1))
    | _ => .next s

/-- The rail has settled; a faster clock now runs (R289). -/
def execOpRailSettled (s : State) : Res :=
  match s.pwr.settling with
  | some q =>
    s.when s.working ((s.modPwr fun p =>
      let p1 := { p with op := q, settling := none }
      if p.capFall = 5 then { p1 with settledAt := s.elapsed }
      else if 3 ≤ p.capFall then p1.settled s.elapsed else p1).tracePoint5 s)
  | none => .next s

/-! ### Keep-warm (R300, R301) -/

/-- The rules that override RAMP_LIMIT are in force: a fall of the cap until duty has risen again, clamp, hard cap, Simmer and
droop. -/
def Power.rampOff (p : Power) : Bool := p.ramp == 0 || (p.capFall != 0 && p.capFall != 5) || p.clamp || p.hard || p.simmer || p.droop.any id

/-- A fill beat: every phase in force has FILL; no fill in Simmer. -/
def State.fillBeat (s : State) : Bool := !s.pwr.simmer && s.phasesNow.all s.pwr.phaseFill

/-- Presented cores outside every open partition that Whisk tests at a time, at most one of each of the eight power groups; how
many of them are presented ones and not spares is a free value (13_safety_repair_wear.md R315, R328; log 126). -/
def State.underLbist (s : State) (w : U64) : Nat :=
  let inside := ((s.jobs.flatMap (·.rects)).map fun r => r.nrows * r.ncols).sum
  min (w.toNat % 9) (80 * s.grid.width - inside)

/-- Cores that may run fill: presented, under no running invocation, outside the segments a remap holds, and not under LBIST. -/
def State.idleCores (s : State) (w : U64) : Nat :=
  let busy := ((s.fab.invs.filter fun i => i.phase == .running).flatMap (·.cores)).eraseDups
  let held := (s.grid.remaps.map fun m => m.rows.length * s.grid.dieWidth m.die).sum
  let under := busy.filter fun c => !s.grid.remaps.any fun m => m.die == s.grid.dieOf (coreCol c) && m.rows.contains (coreRow c)
  80 * s.grid.width - held - under.length - s.underLbist w

/-- One beat (1,024 ticks), in 1/100,000 W: `unfilledW` is its power without fill, `coreMilliW` what one idle core's fill
draws. A rise held back is held by duty. -/
def execKeepwarmBeat (unfilledW coreMilliW : Nat) (s : State) : Res :=
  let (tested, s0) := s.draw
  let p := s.pwr
  let unfilled := 100000 * unfilledW
  let most := unfilled + 100 * coreMilliW * s.idleCores tested
  let step := p.ramp * 1024
  let target := 100000 * min p.floor p.cap
  let aim := if p.rampOff then target else max target (p.beatMean - step)
  let w := if s.fillBeat then max unfilled (min aim most) else unfilled
  let held := if p.rampOff then w else min w (p.beatMean + step)
  let s1 := s0.modPwr fun p => { p with fill := unfilled < held, beatMean := held }
  s.when (s.running && s.now % 1024 == 0) (if held < unfilled then s1.setDuty (p.duty - 1) else s1)

/-! ### The manager watch (R303) -/

def execMgrTimeoutLapse (s : State) : Res :=
  let p := s.pwr
  s.when (s.running && p.timeout != 0 && !p.mgrLost && p.timeout ≤ s.sinceBeat)
    (((s.event srcPower 0x0042 (zeros 4 ++ leBytes 4 s.sinceBeat)).journalAction 0x40 (leBytes 1 3)).setLimits
      (fun p => { p with mgrLost := true }) 3)

/-! ### Temperature (R305, R307) -/

/-- The hard trip: all rails off, THERM_TRIP_N low. -/
def State.hardTrip (s : State) : State :=
  s.railsOff.modPins fun p => { p with tripLatch := true, hardOff := true }

/-- The inlet leaves its range, or is back. -/
def State.inletTest (s : State) : State :=
  let t := s.therm
  let out := decide (t.coolIn < 15 * 16) || decide ((t.inletMax : Int) * 16 < t.coolIn)
  if out = t.inletOut then s
  else (s.modTherm fun t => { t with inletOut := out }).event srcCoolant 0x0051
    (leBytes 1 (if out then 0 else 1) ++ zeros 1 ++ leBytes 2 (unsigned 16 t.coolIn))

def State.throttleEvent (s : State) (ended : Nat) : State :=
  s.event srcThermal 0x0048 (leBytes 1 ended ++ zeros 1 ++ leBytes 2 (unsigned 16 s.therm.tempMax))

/-- The thermal throttle starts at the point in force. -/
def State.throttleStart (s : State) : State :=
  if s.therm.throttle || s.therm.tempMax < 95 * 16 then s
  else (s.modTherm fun t => { t with throttle := true, throttleOp := s.pwr.op, throttleAt := s.elapsed }).throttleEvent 0

/-- A temperature of 1/16 °C in millionths of a kelvin. -/
def microK (t : Int) : Int := 62500 * t

/-- The outlet at steady state, in millionths: power over 401 W/K at 6.0 L/min, in proportion to the flow (R304, log 102). -/
def State.steadyOutlet (s : State) (coolIn : Int) : Int :=
  let n := min 1000 s.pwr.samples.length
  let watts := if n = 0 then 0 else s.pwr.sumOf n / n
  let flow := if s.flowReady then max 1 s.flow else 6000
  microK coolIn + ((watts * 6000 * 1000000 / (401 * flow) : Nat) : Int)

/-- The prediction at a reading: first order, with a time constant of 1.5 s, over the ticks since the one before. -/
def State.predictOutlet (s : State) (coolIn coolOut : Int) : Int :=
  match s.therm.predicted with
  | none => microK coolOut
  | some y => y + (s.steadyOutlet coolIn - y) * min 150000000 (s.elapsed - s.therm.predictedAt : Nat) / 150000000

/-- A reading of the coolant sensors moves the prediction and gives the outlet excess; excesses of the last 50 ms are kept. -/
def State.takeCoolant (s : State) (coolIn coolOut : Int) : State :=
  let y := s.predictOutlet coolIn coolOut
  s.modTherm fun t => { t with
    predicted := some y, predictedAt := s.elapsed
    excess := (s.elapsed, microK coolOut - y) :: t.excess.filter fun x => s.elapsed < x.1 + 5010000 }

/-- Readings of one sample. -/
def State.takeReadings (s : State) (tmax : Int) (where_ : Byte) (coolIn coolOut : Int) : State :=
  (s.takeCoolant coolIn coolOut).modTherm fun t => { t with
    tempMax := tmax, whereDie := where_.toNat, coolIn := coolIn, coolOut := coolOut, sampled := true }

/-- One sample of the sensors, in 1/16 °C. -/
def execThermalSample (tmax : Int) (where_ : Byte) (coolIn coolOut : Int) (s : State) : Res :=
  if !s.alive then .next s
  else if 115 * 16 ≤ tmax then .next s.hardTrip
  else
    let s1 := s.takeReadings tmax where_ coolIn coolOut
    if s.boot.trivet then .next s1
    else if 105 * 16 ≤ tmax then .next (s1.powerTrivet 1 3)
    else .next (if s.running then s1.inletTest.throttleStart else s1)

/-- One step slower each 1 ms at 95 °C or more; one step faster each 10 ms below 90 °C, until the throttle no longer holds
the point back. -/
def execThermalThrottleStep (s : State) : Res :=
  let t := s.therm
  let since := s.elapsed - t.throttleAt
  if !(s.running && t.throttle) then .next s
  else if 95 * 16 ≤ t.tempMax && 100000 ≤ since then
    .next (s.modTherm fun t => { t with throttleOp := min 15 (t.throttleOp + 1), throttleAt := s.elapsed }).adjustOp
  else if t.tempMax < 90 * 16 && 1000000 ≤ since then
    let q := t.throttleOp - 1
    let s1 := s.modTherm fun t => { t with throttleOp := q, throttleAt := s.elapsed }
    if q ≤ max s.requestedOp s.pwr.loopOp then
      .next ((s1.modTherm fun t => { t with throttle := false, throttleOp := 0 }).throttleEvent 1).adjustOp
    else .next s1.adjustOp
  else .next s

/-! ### Flow and Simmer (R304-R306) -/

/-- Pulses follow one another by 50,000 ticks at 2,000 Hz. -/
def pulseTicks : Nat := 50000

/-- A pulse of 100 µs or more on FLOW_PULSE; a shorter one is rejected and is no row. One that follows the last counted pulse at a
rate above 2,000 Hz is missed (16_pins_and_mechanics.md Table 16.4; log 125). Pulses of the last 10 ms are kept, newest first. -/
def execFlowPulse (s : State) : Res :=
  s.when (s.alive && s.therm.pulses.head?.all fun x => x + pulseTicks ≤ s.elapsed) (s.modTherm fun t => { t with pulses := s.elapsed :: t.pulses.filter fun x => s.elapsed < x + 1000000 })

def State.simmerEvent (s : State) (left : Nat) : State :=
  s.event srcCoolant 0x0052 (leBytes 1 left ++ leBytes 1 s.pwr.simmerCause ++ leBytes 2 s.flowTenths)

/-- Simmer: OP15, no fill. -/
def State.enterSimmer (s : State) (cause : Nat) : State :=
  if s.pwr.simmer then s
  else
    let s1 := s.modPwr fun p => { p with simmer := true, simmerCause := cause, fill := false, goodSince := none }
    ((s1.simmerEvent 0).journalAction 0x42 (leBytes 1 cause)).adjustOp

/-- The low-flow warning. -/
def State.flowWarning (s : State) : State :=
  let low := s.flowReady && decide (s.flow < 100 * s.therm.flowWarn)
  if low = s.therm.lowFlow then s
  else (s.modTherm fun t => { t with lowFlow := low }).event srcCoolant 0x0050
    (leBytes 1 (if low then 0 else 1) ++ zeros 1 ++ leBytes 2 s.flowTenths)

/-- The outlet excess has risen faster than 2 K/s, 2 millionths of a kelvin in 100 ticks, since the newest reading that is
50 ms old (R305). -/
def Therm.excessRising (t : Therm) : Bool :=
  match t.excess with
  | [] => false
  | new :: rest => match rest.find? fun x => x.1 + 5000000 ≤ new.1 with
    | some old => decide (2 * ((new.1 - old.1 : Nat) : Int) < 100 * (new.2 - old.2))
    | none => false

/-- The outlet excess is below 1 K (R306). -/
def Therm.excessSmall (t : Therm) : Bool := decide (((t.excess.head?).map (·.2)).getD 0 < 1000000)

/-- The flow measured and the outlet excess at a reading of the coolant sensors, in 1/16 °C, are judged (R304-R306); the
coolant registers keep the last 100 µs sample. -/
def execFlowCheck (coolIn coolOut : Int) (s : State) : Res :=
  if !s.working then .next s
  else
    let s := s.takeCoolant coolIn coolOut
    let s1 := if s.running then s.flowWarning else s
    let below := s.flowReady && decide (s.flow < 2000)
    let since := if below then some (s.therm.lowSince.getD s.elapsed) else none
    let good := (!s.flowReady || decide (100 * s.therm.flowWarn ≤ s.flow)) && s.therm.excessSmall
    let s2 := (s1.modTherm fun t => { t with lowSince := since }).modPwr fun p =>
      { p with goodSince := if p.simmer && good then some (p.goodSince.getD s.elapsed) else none }
    if below && (since.getD s.elapsed) + 5000000 ≤ s.elapsed then .next (s2.enterSimmer 1)
    else if s.therm.excessRising then .next (s2.enterSimmer 2)
    else .next s2

/-- The conditions of R306 have held for 10 s; the loops resume from OP15. -/
def execSimmerExit (s : State) : Res :=
  match s.pwr.goodSince with
  | some t =>
    s.when (s.working && s.pwr.simmer && t + 1000000000 ≤ s.elapsed)
      (((s.modPwr fun p => { p with simmer := false, goodSince := none, loopOp := 15 }).simmerEvent 1).journalAction 0x43
        (leBytes 1 s.pwr.simmerCause))
  | none => .next s

end Sys2Proof.Machine
end

