-- ==== Sys2Proof/Machine/Health.lean ====
section
/-! DEFINITION. Safety, repair, wear, trace and dump (13_safety_repair_wear.md R309-R336). -/

namespace Sys2Proof.Machine

/-! ### Known-answer rounds and logic self-test (R312-R315) -/

/-- A core of an open job's partition. -/
def State.inPartition (s : State) (core : Nat) : Bool := s.jobs.any fun j => j.rects.any fun r => r.has core

/-- A failed round: counted, reported, and the core failed. -/
def State.katFailCore (s : State) (core unit : Nat) : State :=
  ((s.modHealth fun h => { h with katFail := satAdd 32 h.katFail 1 }).event (srcDie (s.grid.dieOf (coreCol core))) 0x0061
    (leBytes 2 core ++ leBytes 1 unit)).failCore core

/-- One round on a core, to which six known-answer tiles go in class 3 (R112, R312), or on a Mandoline, Colander or digest
unit. -/
def execKatRound (target : KatTarget) (pass : Bool) (unit : Nat) (s : State) : Res :=
  match target with
  | .core c =>
    let due := ((s.core? c).map (·.katDue)).getD false
    if !(s.running && s.grid.hasCore c && (due || s.inPartition c)) then .next s
    else
      let s1 := s.modFab fun f => { f with cores := f.cores.map fun x => if x.idx == c then { x with katDue := false } else x }
      let s2 := Nat.repeat (fun s : State => s.managerPacket 3 c) 6 s1
      .next (if pass then s2 else s2.katFailCore c unit)
  | .unit kind die =>
    if !(s.running && 3 ≤ kind && kind ≤ 5 && die ≤ 3) || pass then .next s
    else .next ((s.modHealth fun h => { h with katFail := satAdd 32 h.katFail 1 }).unitOut kind die)

/-- A position that Whisk may test in service: a spare, or a core outside every open partition. -/
def State.testable (s : State) (die row pos : Nat) : Bool :=
  !s.grid.failed.contains (die, row, pos) && match s.grid.coreAt die row pos with
    | some c => !s.inPartition c
    | none => true

def execLbistCoreRun (die row pos : Nat) (pass : Bool) (s : State) : Res :=
  s.when (s.running && die < 4 && row < 80 && pos < 82 && s.testable die row pos && !pass) (s.failPos die row pos)

/-! ### Memory checking and scrub (R316-R318, R376) -/

/-- A scrub pass over one physical core's SRAM, spare or not (R316): byte offsets of the words corrected and of those that
cannot be; it also meets the changed words that no access has reached. -/
def execSramScrub (core : CorePos) (corrected uncorrectable : List Nat) (s : State) : Res :=
  let ⟨die, row, pos⟩ := core
  let core := s.grid.coreAt die row pos
  if !(s.working && 6 ≤ s.boot.stage && die < 4 && row < 80 && pos < 82 && !s.grid.failed.contains (die, row, pos)) then .next s
  else
    let inside := fun (o : Nat) => decide (o < sramBytes)
    let clean := fun (o : Nat) => match core with
      | some c => !s.mem.poison.contains (eccBase (sramKey c + o))
      | none => true
    let ws := match core with
      | some c => s.mem.upsets.filter fun u => sramKey c ≤ u.1 && u.1 < sramKey c + sramBytes
      | none => []
    let good := corrected.filter inside ++ (s.upsetOffs ws false).map (· % sramBytes)
    let bad := (uncorrectable.filter fun o => inside o && clean o) ++ (s.upsetOffs ws true).map (· % sramBytes)
    .next ((s.settleUpsets ws).sramWords die row pos core good bad (bankWorn good))

/-- Patrol scrub of one HBM row: HBM offsets of the words corrected and of those that cannot be; it also meets the row's
changed words that no access has reached. -/
def execHbmPatrolScrub (stack pc row : Nat) (corrected uncorrectable : List Nat) (pcFailed : Bool) (s : State) : Res :=
  if !(s.working && 8 ≤ s.boot.stage && stack < 24 && pc < 32) then .next s
  else
    let here := fun (o : Nat) => s.rangeOk (mkKey 0 o) 1 && hbmStack o == stack && hbmPc o == pc
    let ws := s.mem.upsets.filter fun u => spaceOf u.1 == 0 && here (offOf u.1) && Config.hbmRow (offOf u.1) == row
    let good := corrected.filter here ++ s.upsetOffs ws false
    let bad := (uncorrectable.filter fun o => here o && !s.mem.poison.contains (eccBase (mkKey 0 o))) ++ s.upsetOffs ws true
    let s1 := (s.settleUpsets ws).hbmWords stack pc row good bad
    .next (if pcFailed then s1.modGrid fun g => g.losePc stack pc else s1)

/-- Soft repair of a row that needs it; `spares` spare rows are left in its bank before it. The data, and the poison
marks, stay as they are. -/
def execHbmRowRepair (stack pc bank row spares : Nat) (s : State) : Res :=
  if !(s.working && 8 ≤ s.boot.stage && s.health.hbmDue.contains (stack, pc, row)) then .next s
  else
    let s1 := s.modHealth fun h =>
      { h with hbmDue := h.hbmDue.filter fun d => d != (stack, pc, row)
               hbmDay := h.hbmDay.filter fun d => !(d.1 == stack && d.2.1 == pc && d.2.2.1 == row) }
    let ev := fun (s : State) (left : Nat) =>
      s.event (srcStack stack) 0x0066 (leBytes 1 pc ++ zeros 3 ++ leBytes 4 row ++ leBytes 1 left)
    if spares = 0 then .next (ev s1 0)
    else
      let s2 := (s1.modGrid fun g => { g with hbmRows := g.hbmRows ++ [(stack, pc, bank, row)] }).modHealth fun h =>
        { h with hbm := addCnt h.hbm stack 0 0 1 }
      .next ((ev s2 (spares - 1)).journalAction 0x62 (leBytes 1 stack ++ leBytes 1 pc ++ leBytes 1 bank ++ leBytes 2 row))

/-- Patrol scrub of a DDR channel: DDR offsets of the words corrected and of those that cannot be; it also meets the channel's
changed words that no access has reached. -/
def execDdrPatrolScrub (channel : Nat) (corrected uncorrectable : List Nat) (s : State) : Res :=
  if !(s.working && 8 ≤ s.boot.stage && channel < 16) then .next s
  else
    let here := fun (o : Nat) => s.rangeOk (mkKey 1 o) 1 && s.grid.ddrChannel o == some channel && s.ddrZeroedAt o
    let ws := s.mem.upsets.filter fun u => spaceOf u.1 == 1 && here (offOf u.1)
    let good := corrected.filter here ++ s.upsetOffs ws false
    let bad := (uncorrectable.filter fun o => here o && !s.mem.poison.contains (eccBase (mkKey 1 o))) ++ s.upsetOffs ws true
    .next ((s.settleUpsets ws).ddrWords channel good bad)

/-! ### Remap and lockstep (R321, R324) -/

/-- A moved core has changed its occupant: its next launch loads its configurations and clears its SRAM; until then what
its SRAM holds is open. -/
def State.moveCore (s : State) (core : Nat) : State :=
  let s1 := s.scribble (sramKey core) sramBytes
  match s1.core? core with
  | some _ => s1.modFab fun f => { f with cores := f.cores.map fun x => if x.idx == core then { x with occupant := some 0 } else x }
  | none => s1.modFab fun f => { f with cores := f.cores ++ [Core.fresh core (some 0) 0 0 none 0 [] []] }

/-- No invocation is left on the cores that move. -/
def State.movedQuiet (s : State) (m : Remap) : Bool :=
  m.moved.all fun c => ((s.core? c).bind (·.inv)).isNone

/-- The new map is set, written to the cores that move (class 5 of R112), and the hold ends. -/
def execCoreRemap (die row pos : Nat) (s : State) : Res :=
  match s.grid.remaps.find? fun m => m.die == die && m.row == row && m.pos == pos with
  | none => .next s
  | some m =>
    if !(s.running && s.movedQuiet m) then .next s
    else
      let s1 := s.modGrid fun g => { g with remaps := g.remaps.filter fun x => x.die != die }
      let s2 := (m.moved.filter s1.grid.hasCore).foldl (fun s c => (s.moveCore c).managerPacket 5 c) s1
      let s3 := ((s2.writeSpares).remapEvents die m.rows 1).modHealth fun h => { h with remaps := satAdd 32 h.remaps 1 }
      .next ((s3.event (srcDie die) 0x0062
        (leBytes 1 row ++ leBytes 1 die ++ leBytes 1 pos ++ leBytes 1 (s3.grid.sparesOf die row))).journalAction 0x60
          (leBytes 1 die ++ leBytes 1 row ++ leBytes 1 pos))

/-- A pair that runs: CP0 from stage 1, the others from stage 9 (R17). A mismatch of CP0 leaves only its cause. -/
def execLockstepMismatch (pair : BitVec 3) (s : State) : Res :=
  if !(s.working && (pair == 0 || s.boot.stage == 9)) then .next s
  else if pair = 0 then .next (s.enterTrivet 2)
  else
    .next (((s.event srcSafety 0x0069 (leBytes 1 pair.toNat)).journalAction 0x64 (leBytes 1 pair.toNat)).enterTrivet 2)

/-! ### Commands (R313, R319, R327, R328) -/

def startSelftest (mask : Byte) (id : Nat) (s : State) : State :=
  if mask = 0 then s.finish id .ok (leBytes 4 0)
  else s.modHealth fun h => { h with selftest := h.selftest ++ [(id, mask.toNat)] }

def checkSelftest (mask : Byte) (_s : State) : Option Status :=
  firstFail [(decide (mask.toNat < 8), .badParam)]

def execSelftest (e : Env) (mask : Byte) (s : State) : Res :=
  command (.selftest e mask) e (checkSelftest mask) (fun _ => false) (startSelftest mask) s

/-- A lane of a port that failed its loopback (R259). -/
def State.loopbackFail (s : State) (l : Nat × Nat) : State :=
  s.modPort l.1 fun x => { x with laneFail := x.laneFail ||| 2 ^ l.2 }

/-- The oldest SELFTEST has covered its resources: failed positions, and failed lanes of ports DISABLED or DOWN. -/
def execSelftestComplete (failures : List (Nat × Nat × Nat)) (lanes : List (Nat × Nat)) (s : State) : Res :=
  match s.health.selftest with
  | [] => .next s
  | (cmd, mask) :: rest =>
    if !s.running then .next s
    else
      let fs := if mask % 4 = 0 then [] else failures.filter fun f =>
        decide (f.1 < 4) && decide (f.2.1 < 80) && decide (f.2.2 < 82) && s.testable f.1 f.2.1 f.2.2
      let ls := if bit mask 2 then lanes.filter fun l =>
        decide (l.1 < 12) && decide (l.2 < 9) && ((s.port l.1).st == .disabled || (s.port l.1).st == .down) else []
      let s1 := s.modHealth fun h => { h with selftest := rest }
      let s2 := fs.foldl (fun s f => s.failPos f.1 f.2.1 f.2.2) s1
      .next ((ls.foldl State.loopbackFail s2).finish cmd .ok (leBytes 4 (fs.length + ls.length)))

/-- A write that fails leaves the previous record (R327). -/
def startRepairCommit (write : Bool) (id : Nat) (s : State) : State :=
  let result := leBytes 2 s.grid.retiredAll ++ leBytes 1 s.grade
  if !write then s.finish id .ok result
  else
    let (fails, s1) := s.flashFails
    if fails then s1.finish id .hwFault else s1.writeRepair.finish id .ok result

def execRepairCommit (e : Env) (write : Bool) (s : State) : Res :=
  command (.repairCommit e write) e (fun _ => none) (fun _ => false) (startRepairCommit write) s

/-- The new interval applies from the next round: the one in progress keeps its length (R313). -/
def startKatCfg (ms : U32) (id : Nat) (s : State) : State :=
  (s.modHealth fun h => { h with katInterval := ms.toNat }).finish id .ok

def checkKatCfg (ms : U32) (_s : State) : Option Status :=
  firstFail [(decide (10 ≤ ms.toNat ∧ ms.toNat ≤ 1000), .badParam)]

def execKatCfg (e : Env) (ms : U32) (s : State) : Res :=
  command (.katCfg e ms) e (checkKatCfg ms) (fun _ => false)
    (startKatCfg ms) s

def startScrubCfg (hbmS ddrS : U32) (id : Nat) (s : State) : State :=
  (s.modHealth fun h => { h with hbmS := if hbmS = 0 then h.hbmS else hbmS.toNat,
                                 ddrS := if ddrS = 0 then h.ddrS else ddrS.toNat }).finish id .ok

def checkScrubCfg (hbmS : U32) (ddrS : U32) (_s : State) : Option Status :=
  firstFail [(fieldOk hbmS.toNat 10 60, .badParam), (fieldOk ddrS.toNat 30 300, .badParam)]

def execScrubCfg (e : Env) (hbmS ddrS : U32) (s : State) : Res :=
  command (.scrubCfg e hbmS ddrS) e
    (checkScrubCfg hbmS ddrS)
    (fun _ => false) (startScrubCfg hbmS ddrS) s

/-! ### Health report (R334, Table 13.10) -/

def MemCnt.hbmBytes (c : MemCnt) : List Byte :=
  leBytes 4 c.corrected ++ leBytes 2 c.uncorrectable ++ leBytes 1 c.repaired ++ zeros 1

def MemCnt.ddrBytes (c : MemCnt) : List Byte := leBytes 4 c.corrected ++ leBytes 2 c.uncorrectable ++ zeros 2

def Port.healthBytes (x : Port) : List Byte :=
  leBytes 8 (x.eye + x.laneFail * 2 ^ 8 + x.replaysAll * 2 ^ 24)

/-- An entry of OUT. -/
def outEntry (e : Element) : List Byte :=
  leBytes 4 (e.index % 2 ^ 15 + e.kind * 2 ^ 15 + (if e.kind = 0 then e.dir * 2 ^ 30 else 0))

def State.healthReport (s : State) : List Byte :=
  let g := s.grid
  let h := s.health
  leBytes 4 0x31544C48 ++ leBytes 2 1 ++ leBytes 1 s.grade ++ leBytes 1 s.boot.shipGrade ++ leBytes 2 g.width ++
    ((List.range 4).flatMap fun d => leBytes 1 (g.dieWidth d)) ++
    ((List.range 4).flatMap fun d => leBytes 1 (if g.valid then g.spareLeft d else 0)) ++
    leBytes 2 g.elements.length ++ zeros 4 ++ leBytes 8 s.faultReg ++ s.fab.totals.fabric ++ s.fab.totals.arith ++
    leBytes 8 h.sramCe ++ leBytes 8 h.sramUe ++ h.hbm.flatMap MemCnt.hbmBytes ++ h.ddr.flatMap MemCnt.ddrBytes ++
    ((List.range 12).flatMap fun n => (s.port n).healthBytes) ++ leBytes 8 h.wear.toNat ++ leBytes 8 (h.eolReg s.elapsed) ++
    leBytes 4 (sat 32 h.rounds) ++ leBytes 4 h.katFail ++ leBytes 4 h.sieve ++ leBytes 4 h.remaps ++ zeros 32 ++
    g.elements.flatMap outEntry

def startHealthQuery (e : Env) (dst : U64) (len : U32) (id : Nat) (s : State) : State :=
  let bs := s.healthReport.take len.toNat
  (s.writeBytes (s.keyAt e dst.toNat len.toNat false true) bs).finish id .ok (leBytes 4 bs.length)

def checkHealthQuery (e : Env) (dst : U64) (len : U32) (s : State) : Option Status :=
  firstFail (s.bufferChecks e dst.toNat len.toNat 0)

def execHealthQuery (e : Env) (dst : U64) (len : U32) (s : State) : Res :=
  command (.healthQuery e dst len) e (checkHealthQuery e dst len) (fun _ => len == 0)
    (startHealthQuery e dst len) s

/-! ### Wear (R329, R330) -/

def forecastNext (v : Nat) : Nat := bits v 23 0
def forecastC (v : Nat) : Nat := bits v 47 24

/-- A forecast as EOL_FORECAST holds it, its AGE apart: no confidence before 7 days of history, 0 days to grade C once there,
0xFF_FFFF beyond 3,650 days (Table 13.8). -/
def State.heldForecast (s : State) (v : U64) (hours : Nat) : U64 :=
  let n := v.toNat
  let far := fun (d : Nat) => if 3650 < d then 0xFFFFFF else d
  let c := if 2 ≤ s.grade then 0 else far (forecastC n)
  BitVec.ofNat 64 (far (forecastNext n) + c * 2 ^ 24 + (if hours < 168 then 0 else bits n 63 56 * 2 ^ 56))

/-- Spares consumed per die: positions that have failed. -/
def Grid.sparesUsed (g : Grid) : List Nat := (List.range 4).map fun d => (g.failed.filter fun f => f.1 == d).length

/-- What one hourly measurement records beside WEAR_INDEX (R329). -/
def State.wearRec (s : State) : WearRec :=
  let h := s.health
  { spares := s.grid.sparesUsed
    hbm := (List.range 24).map fun i => (h.hbm.getD i ⟨0, 0, 0⟩).corrected - h.hbmBase.getD i 0
    ddr := (List.range 16).map fun i => (h.ddr.getD i ⟨0, 0, 0⟩).corrected - h.ddrBase.getD i 0
    eye := (List.range 12).map fun n => (s.port n).eye }

/-- Fall of one pair's stressed-to-reference ratio since shipment, in 0.01 % of the ratio at shipment (R329; log 117). -/
def ratioFall (pair stressed reference : Nat) : Nat :=
  let (s0, r0) := Config.shipPair pair
  sat 16 (10000 * (s0 * reference - stressed * r0) / (s0 * reference))

/-- WEAR_INDEX: per die the largest fall among its 64 pairs, whose frequencies stand in the order of the dies (Table 13.7). -/
def wearIndex (stressed reference : List Nat) : U64 :=
  let die := fun (d : Nat) => ((List.range 64).map fun k =>
    ratioFall (64 * d + k) (stressed.getD (64 * d + k) 0) (reference.getD (64 * d + k) 0)).foldl max 0
  BitVec.ofNat 64 (die 0 + die 1 * 2 ^ 16 + die 2 * 2 ^ 32 + die 3 * 2 ^ 48)

/-- The hourly measurement, which gives the frequencies of the ring-oscillator pairs, and the forecast made from the trends
(R329, R330); which formula makes it is not in the manual (log 107). -/
def execWearMeasure (stressed reference : List Nat) (s : State) : Res :=
  if !(s.running && s.health.wearAt + hourTicks ≤ s.elapsed) then .next s
  else
    let hours := s.health.hours + 1
    let hist := s.wearRec :: s.health.wearHist
    let v := s.heldForecast (Config.wearForecast (hist.map (·.spares)) ((List.range 4).map s.grid.spareLeft)) hours
    let n := v.toNat
    let old := s.health.eol.toNat
    let s1 := s.modHealth fun h =>
      { h with wear := wearIndex stressed reference, eol := v, eolAt := some s.elapsed, hours := hours, wearAt := s.elapsed, wearHist := hist
               hbmBase := h.hbm.map (·.corrected), ddrBase := h.ddr.map (·.corrected) }
    let fell := (decide (forecastNext n < 30) && decide (30 ≤ forecastNext old)) ||
      (decide (forecastC n < 90) && decide (90 ≤ forecastC old))
    .next (if fell then
      s1.event srcSafety 0x006A (leBytes 4 (forecastNext n) ++ leBytes 4 (forecastC n) ++ leBytes 1 (bits n 63 56))
    else s1)

/-- Sum, place by place, of what the hourly measurements of a day recorded. -/
def daySum (n : Nat) (rows : List (List Nat)) : List Byte :=
  (List.range n).flatMap fun i => leBytes 4 ((rows.map fun r => r.getD i 0).foldl (· + ·) 0)

/-- One wear log entry: the measurements since the entry before it (R347). -/
def State.wearEntry (s : State) : List Byte :=
  let h := s.health
  let day := h.wearHist.take (h.hours - h.logHours)
  padTo 256 (leBytes 8 h.hours ++ leBytes 8 h.wear.toNat ++ leBytes 8 (h.eolReg s.elapsed) ++
    ((List.range 4).flatMap fun d => leBytes 1 (s.grid.spareLeft d)) ++ daySum 24 (day.map (·.hbm)) ++
    daySum 16 (day.map (·.ddr)) ++ ((List.range 12).flatMap fun n => leBytes 1 (((h.wearHist.head?).map (·.eye.getD n 0)).getD 0)))

/-- The wear log is kept in one place; its record is written anew with the last 4,096 entries. -/
def State.appendWear (s : State) (entry : List Byte) : State :=
  let old := ((s.flashRecord 4).map (·.drop 32)).getD []
  let body := old ++ entry
  let seq := if (s.flashRecord 4).isSome then s.flashSeq 0x100000 + 1 else 1
  s.writeBytes (mkKey 5 0x100000) (flashSealed 4 seq (body.drop (body.length - 4096 * 256)))

/-- The daily write, after 24 hourly measurements: the log entry, and the repair record where it has changed (R326, R330). -/
def execWearLogWrite (s : State) : Res :=
  if !(s.running && s.health.logHours + 24 ≤ s.health.hours) then .next s
  else
    let s1 := (s.appendWear s.wearEntry).modHealth fun h => { h with logHours := h.hours }
    .next (if s1.grid.repairBytes == s1.repairBody then s1 else s1.writeRepair)

/-! ### TRACE_CFG and DUMP (R335, R336) -/

def checkTraceCfg (buf : U64) (size mask : U32) (s : State) : Option Status :=
  firstFail [(buf.toNat % 4096 == 0, .badAlign),
    ([0, 1, 3].contains (spaceOf (keyOf buf.toNat)) && (s.gaRange buf.toNat 1 true).isSome, .badParam),
    (size.toNat % 4096 == 0 && decide (size.toNat ≤ 2 ^ 30), .badParam),
    (size == 0 || (s.gaRange buf.toNat size.toNat true).isSome, .badParam),
    (decide (mask.toNat < 2 ^ 12), .badParam)]

def startTraceCfg (buf : U64) (size mask : U32) (id : Nat) (s : State) : State :=
  (s.modHealth fun h => { h with traceBase := buf.toNat, traceSize := size.toNat, traceMask := mask.toNat, traceSeq := 1 }).finish
    id .ok

def execTraceCfg (e : Env) (buf : U64) (size mask : U32) (s : State) : Res :=
  command (.traceCfg e buf size mask) e (checkTraceCfg buf size mask) (fun _ => size == 0) (startTraceCfg buf size mask) s

def WeightState.code : WeightState → Nat
  | .empty => 0 | .partLoaded => 1 | .loaded => 2 | .replacing => 3

def SrvState.code : SrvState → Nat
  | .serving => 1 | .draining => 2 | .stopped => 3

/-- The context record of Table 13.14. -/
def Ctx.dumpRecord (c : Ctx) : List Byte :=
  let v := c.serving
  let blocked := v.bind (·.blockedSince)
  padTo 64 (leBytes 2 c.id ++ leBytes 1 c.job ++ leBytes 1 c.weight.code ++ leBytes 1 (if c.resident then 0 else 1) ++
    leBytes 1 ((v.map (·.st.code)).getD 0) ++
    leBytes 1 (boolBit c.pinned 0 + boolBit c.hostRouted 1 + boolBit blocked.isSome 2) ++ leBytes 1 c.cfgs.length ++
    leBytes 4 ((v.map (·.reqs.length)).getD 0) ++
    leBytes 4 ((v.map fun v => (v.reqs.map (·.pages.length)).foldl (· + ·) 0).getD 0) ++
    leBytes 2 ((c.adapters.map (·.id)).eraseDups.length) ++ zeros 2 ++ leBytes 4 ((v.map (·.step)).getD 0) ++
    leBytes 8 (if blocked.isSome then (v.map (·.blockedTick)).getD 0 else 0))

/-- A loaded configuration of a context dump. -/
def Cfg.dumpRecord (g : Cfg) : List Byte :=
  padTo 16 (leBytes 2 g.handle ++ leBytes 2 g.epoch ++ leBytes 2 g.image.stations.length ++
    leBytes 1 (boolBit (!g.active.isEmpty) 0 + boolBit (g.image.cores.any fun c => !g.active.contains c) 1))

/-- Tiles held, four bits a queue. -/
def tileCounts (qs : List (List Tile)) : Nat :=
  (List.range 8).foldl (fun n i => n + (qs.getD i []).length % 16 * 16 ^ i) 0

/-- The core record of Table 13.14; a core at its reset value holds nothing. -/
def State.coreRecord (s : State) (core : Nat) : List Byte :=
  let x := (s.core? core).getD (Core.fresh core none 0 0 none 0 [] [])
  let occ := (x.occupant.bind fun u => (s.ctxs.find? fun c => c.uid == u).map (·.id)).getD 0x3FF
  let used := (s.core? core).isSome
  padTo 64 (leBytes 4 core ++ leBytes 2 occ ++ leBytes 1 x.pc ++
    leBytes 1 (boolBit x.inv.isSome 0 + boolBit (used && x.ended) 1 + boolBit (s.fab.chans.any fun h => h.src == core && h.spilling) 2 +
      boolBit (s.coreHeld core) 3) ++
    leBytes 2 x.epoch ++ zeros 2 ++ leBytes 4 (tileCounts (x.iqs ++ x.oqs)) ++ x.syncs.flatMap (leBytes 2) ++
    x.loops.flatMap (leBytes 2) ++ x.tickets.flatMap (leBytes 4) ++
    x.accs.flatMap fun a => leBytes 2 (a.vrows % 64 + a.vcols % 64 * 64 + boolBit a.poison 15))

/-- Registers of kind 0: the blocks in offset order, then every pair that exists, in queue order. -/
def State.dumpRegs (s : State) : List (Nat × Nat) :=
  s.blockRegs ++ ((List.range 2048).filterMap s.pair?).flatMap QPair.regs

/-- The body of a snapshot. -/
def State.dumpBody (s : State) (e : Env) (kind core : Nat) : List Byte :=
  match kind with
  | 0 => s.dumpRegs.flatMap fun r => leBytes 8 r.1 ++ leBytes 8 r.2
  | 1 => match s.ctx? e.ctx.toNat with
    | some c => c.dumpRecord ++ c.cfgs.flatMap Cfg.dumpRecord
    | none => []
  | _ => s.coreRecord core

/-- Header and body (Table 13.13). -/
def State.dumpBytes (s : State) (e : Env) (kind core : Nat) : List Byte :=
  let body := s.dumpBody e kind core
  leBytes 4 0x31504D44 ++ leBytes 1 kind ++ zeros 1 ++ leBytes 2 1 ++ leBytes 4 (32 + body.length) ++ zeros 4 ++
    leBytes 8 s.now ++ zeros 8 ++ body

def checkDump (e : Env) (dst : U64) (len : U32) (kind : Byte) (core : U32) (s : State) : Option Status :=
  let coreOk := if kind = 2 then s.grid.hasCore core.toNat else core == 0
  firstFail [(kind != 1 || e.ctx != 0x3FF, .badContext), ((s.addr e dst.toNat len.toNat false true).isSome, .badParam),
    (len == 0 || !(decide (kind.toNat ≤ 2) && coreOk) || decide ((s.dumpBytes e kind.toNat core.toNat).length ≤ len.toNat), .badSize),
    (decide (kind.toNat ≤ 2), .badParam), (coreOk, .badParam)]

def startDump (e : Env) (dst : U64) (len : U32) (kind : Byte) (core : U32) (id : Nat) (s : State) : State :=
  let bs := s.dumpBytes e kind.toNat core.toNat
  if len.toNat < bs.length then s.finish id .badSize
  else (s.writeBytes (s.keyAt e dst.toNat len.toNat false true) bs).finish id .ok (leBytes 4 bs.length)

def execDump (e : Env) (dst : U64) (len : U32) (kind : Byte) (core : U32) (s : State) : Res :=
  command (.dump e dst len kind core) e (checkDump e dst len kind core) (fun _ => len == 0) (startDump e dst len kind core) s

end Sys2Proof.Machine
end

