-- ==== Sys2Proof/Machine/Exchange.lean ====
section
/-! DEFINITION. The two exchanges of a routing point with EXCH set (10_experts.md R256, R257): their launches. Where the
activation rows lie, their width and the order inside a slice are not in the manual: slices hold free bytes, YROW bytes a
row (log 51). -/

namespace Sys2Proof.Machine

/-- Members of the group that the module knows: the owners of the experts and itself, by chip number. -/
def State.exchChips (s : State) (r : Routing) : List Nat :=
  ((s.ownChip :: r.experts.map (·.owner)).eraseDups).mergeSort fun a b => a ≤ b

/-- A slice of free bytes to another member. -/
def State.sendRows (s : State) (c : Coll) (job chip len : Nat) : State :=
  match s.link.originEntry job chip with
  | none => s.countDrop
  | some sl => (if len = 0 then [(0, 0)] else pieces len).foldl (fun s p =>
    let (bs, s1) := s.drawBytes p.2
    s1.originate (s1.mkPkt sl chip 0 (.slice c.group c.rank c.opcode c.launch p.1 len p.2) bs [])) s

/-- Rows that go to a member: those of its experts in the dispatch; in the return, one for each row that came from it. -/
def RPoint.exchRows (p : RPoint) (r : Routing) (chip : Nat) (ret : Bool) : Nat :=
  if ret then (p.landed.filter fun x => x.2.1 == chip).length else (p.rowsOf r chip).length

/-- One exchange opens: slices to the members, its own taken at once; a Colander that is late sends none. -/
def State.openExchange (s : State) (c : Ctx) (i : Inv) (p : RPoint) (r : Routing) (ret : Bool) : State :=
  let chips := s.exchChips r
  let launch := i.launch + if ret then r.retOff else r.dispOff
  let deadline := if !ret then i.launch + r.retOff
    else if i.deadline != 0 then i.deadline else i.launch + r.retOff + r.period
  let rank := (chips.findIdx? (· == s.ownChip)).getD 0
  let coll : Coll := ⟨none, r.group, 0x0903, 0, rank, 0, 0, chips.map fun ch => ⟨ch, 0, 0, 0, 0⟩, launch, deadline, [], []⟩
  let sends := chips.map fun ch => ⟨ch, 0, p.exchRows r ch ret * r.yrow, 0, 0⟩
  let coll := if !ret && !p.released then coll else { coll with lease := s.leaseOf { coll with members := sends } c.job }
  let s1 := (s.modLink fun l => { l with colls := l.colls ++ [coll] }).modPoint i.id p.program fun p =>
    { p with exch := if ret then 3 else 1, late := if ret then p.late else !p.released }
  if !ret && !p.released then s1.deliverHeld r.group
  else
    let s2 := (chips.filter fun ch => ch != s.ownChip).foldl (fun s ch =>
      s.sendRows coll c.job ch (p.exchRows r ch ret * r.yrow)) s1
    let len := if ret then p.exchRows r s.ownChip ret * r.yrow else 0
    let (bs, s4) := s2.drawBytes len
    -- rows that were not dispatched do not come back
    let s5 := match (if ret && p.late then none else s4.coll? r.group) with
      | some k => s4.takeSlice k rank 0 len bs []
      | none => s4
    s5.deliverHeld r.group

/-- What is due for one point at the present tick. -/
def State.exchangeDue (s : State) (inv program : Nat) : State :=
  match s.pointAt inv program with
  | none => s
  | some (c, i, _, p, r) =>
    if !r.exch then s
    else if p.exch = 0 && i.launch + r.dispOff ≤ s.now && (s.coll? r.group).isNone then s.openExchange c i p r false
    else if p.exch = 1 && i.launch + r.retOff ≤ s.now then
      match s.coll? r.group with
      -- what has not been sent by the deadline is abandoned (11_links_and_systems.md R282)
      | some k => (s.dropSlices r.group).endColl k
      | none => s
    else if p.exch = 2 && i.launch + r.retOff ≤ s.now && (s.coll? r.group).isNone then s.openExchange c i p r true
    else s

/-- Exchanges due at a tick, invocation by invocation; a dispatch that ends at its deadline lets the return open. -/
def State.exchangeTick (s : State) : State :=
  let pts := s.fab.invs.flatMap fun i => i.points.map fun p => (i.id, p.program)
  pts.foldl (fun s x => (s.exchangeDue x.1 x.2).exchangeDue x.1 x.2) s

end Sys2Proof.Machine
end

