-- ==== Sys2Proof/Machine/Serving.lean ====
section
/-! DEFINITION. Serving (09_serving.md R223-R237): SRV_START, policies, requests, composition of steps, acceptance of tokens,
retirement. -/

namespace Sys2Proof.Machine

/-! ### The descriptor (Tables 9.4, 9.5) -/

def SrvDesc.of (bs : List Byte) : SrvDesc :=
  let f := fieldAt bs
  { dec := f 4 2, pre := f 6 2, maxseq := f 8 2, spec := f 10 1, threshold := f 11 1 == 1, nmax := f 12 1, smax := f 13 1,
    tpp := f 14 2, maxreq := f 16 4, chunkMax := f 20 4, thresh := f 24 4, vocab := f 28 4, slots := f 32 8, chunks := f 40 8,
    verify := f 48 8, prob := f 56 8, masks := f 64 8, kvpool := f 72 8, kvpages := f 80 4, maxpages := f 84 4, pages := f 88 8,
    ring := f 96 8, ringN := f 104 4, vector := f 108 1 % 64, vecEn := bit (f 108 1) 7, darg := f 112 8, parg := f 120 8,
    dres := f 128 8, pres := f 136 8 }

/-- ML: bytes of a mask row. -/
def SrvDesc.maskLen (d : SrvDesc) : Nat := alignUp (ceilDiv d.vocab 8) 64

/-- 0 < THRESH ≤ 1. -/
def threshOk (x : Nat) : Bool :=
  match fp32 x with
  | .fin s m _ => !s && m != 0 && !((fp32 0x3F800000).ltFin (fp32 x))
  | _ => false

/-- First of a list of checks that fails: its number. -/
def failedAt : List (Bool × Nat) → Option Nat
  | [] => none
  | (ok, n) :: rest => if ok then failedAt rest else some n

/-- 0x0090: the byte offset of the first field that fails. -/
def srvFieldFail (bs : List Byte) : Option Nat :=
  let f := fieldAt bs
  let d := SrvDesc.of bs
  failedAt [(f 0 4 == 0x31565253, 0), (decide (1 ≤ d.maxseq ∧ d.maxseq ≤ 4096), 8), (d.spec ≤ 7, 10), (f 11 1 ≤ 1, 11),
    (d.nmax ≤ 24, 12), (d.smax ≤ 24, 13), (1 ≤ d.tpp, 14), (decide (1 ≤ d.maxreq ∧ d.maxreq ≤ 65536), 16),
    (decide (256 ≤ d.chunkMax ∧ d.chunkMax ≤ 8192), 20), (if d.threshold then threshOk d.thresh else d.thresh == 0, 24),
    (decide (2 ≤ d.vocab ∧ d.vocab ≤ 2 ^ 24), 28), (d.threshold || d.prob == 0, 56),
    (decide (1 ≤ d.kvpages ∧ d.kvpages ≤ 2 ^ 24), 80), (decide (1 ≤ d.maxpages ∧ d.maxpages ≤ 65536), 84),
    (isPow2 d.ringN && decide (16 ≤ d.ringN ∧ d.ringN ≤ 65536), 104), (!bit (f 108 1) 6, 108), (allZero (slice bs 109 3), 109),
    (allZero (slice bs 144 48), 144)]

/-- 0x0091: the byte offset of the first area that fails. -/
def State.srvAreaFail (s : State) (c : Ctx) (d : SrvDesc) : Option Nat :=
  let area := fun (a len align : Nat) (rd wr : Bool) => a % align == 0 && (len == 0 || (s.translate c a len rd wr).isSome)
  let im := fun (h : Nat) => (c.cfgs.find? fun g => g.handle == h).map (·.image)
  let args := fun (h : Nat) => ((im h).map fun x => 8 * x.argWords).getD 0
  let res := fun (h : Nat) => ((im h).map Image.resultBytes).getD 64
  failedAt [(area d.slots (64 * d.maxseq) 64 true true, 32), (area d.chunks 2048 64 true true, 40),
    (area d.verify (256 * d.maxseq) 64 true false, 48), (!d.threshold || area d.prob (32 * d.maxseq) 64 true false, 56),
    (area d.masks (d.maskLen * d.maxseq) 64 true true, 64),
    (area d.kvpool (65536 * d.kvpages) 65536 true true && ((c.region? d.kvpool).map fun r => spaceOf r.target) == some 0, 72),
    (area d.pages (4 * d.maxpages * d.maxseq) 64 true true, 88), (area d.ring (32 * d.ringN) 64 false true, 96),
    (area d.darg (args d.dec) 64 true false, 112), (area d.parg (args d.pre) 64 true false, 120),
    (area d.dres (res d.dec) 64 false true, 128), (area d.pres (res d.pre) 64 false true, 136)]

/-- Rows of a station all satisfy a condition. -/
def Station.rowsAll (st : Station) (p : Nat → Bool) : Bool := (List.range st.rect.nrows).all fun i => p (st.rect.row0 + i)

/-- 0x0093: the first station outside its rows. -/
def Ctx.srvRowFail (c : Ctx) (d : SrvDesc) : Option Nat :=
  let stations := fun (h : Nat) => ((c.cfgs.find? fun g => g.handle == h).map (·.image.stations)).getD []
  match (stations d.dec).findIdx? fun st => !st.rowsAll fun r => r < 8 + d.nmax || (72 - d.smax ≤ r && r < 80) with
  | some i => some i
  | none => ((stations d.pre).findIdx? fun st => !st.rowsAll fun r => 8 ≤ r && r < 72).map (65536 + ·)

/-- The first failure of a descriptor, code by code (log 47). -/
def State.srvFail (s : State) (c : Ctx) (bs : List Byte) : Option (Nat × Nat) :=
  let d := SrvDesc.of bs
  let loaded := fun (h : Nat) => c.cfgs.any fun g => g.handle == h
  match srvFieldFail bs with
  | some n => some (0x0090, n)
  | none => match s.srvAreaFail c d with
    | some n => some (0x0091, n)
    | none =>
      if !(d.dec != d.pre && loaded d.dec && loaded d.pre) then some (0x0092, 0)
      else (c.srvRowFail d).map fun n => (0x0093, n)

/-- A serving state fresh from SRV_START: default policy, the ring from SEQ 1; request IDs go on. -/
def Serving.fresh (d : SrvDesc) (nextReq : Nat) : Serving :=
  { desc := d, st := .serving, reqs := [], nextReq, step := 0, cur := none, eN := 0, eS := 0, chunk := min 2048 d.chunkMax,
    nMin := 0, nMax := d.nmax, sMin := 0, sMax := d.smax, interval := 16, sinceInterval := 0, hist := [], seq := 0,
    blockedSince := none, blockedTick := 0, runnableSince := none, stopCmd := none, stopNow := false, waitFrom := none,
    retired := 0, told := [],
    dirty := [] }

def checkSrvStart (e : Env) (desc : U64) (s : State) : Option Status := firstFail (s.ptrChecks e desc.toNat 192)

/-- SRV_START is accepted on a LOADED context and, as Table 8.1 allows it (08_weights.md R186), on a REPLACING one, though R223
names only LOADED (DEDUCED, log 111). -/
def startSrvStart (e : Env) (desc : U64) (id : Nat) (s : State) : State :=
  match s.ctx? e.ctx.toNat with
  | none => s.finish id .badContext
  | some c =>
    if !((c.weight == .loaded || c.weight == .replacing) && c.resident && !s.moving c.id && !c.isServing) then
      s.finish id .wrongState
    else
      let k := s.keyAt e desc.toNat 192 true false
      let s := s.touch k 192
      let bs := s.readBytes k 192
      match s.srvFail c bs with
      | some (code, item) => s.finish id .checkFailed (checkResult code item)
      | none =>
        if c.srvStale (SrvDesc.of bs) then s.finish id .checkFailed (checkResult 0x0003 0) else
        let v := Serving.fresh (SrvDesc.of bs) ((c.serving.map (·.nextReq)).getD 1)
        (s.modCtx c.id fun c => ({ c with serving := some v } : Ctx).activateServing v).finish id .ok

def execSrvStart (e : Env) (desc : U64) (s : State) : Res :=
  command (.srvStart e desc) e (checkSrvStart e desc) (fun _ => false) (startSrvStart e desc) s

/-! ### SRV_POLICY (R227) -/

def startSrvPolicy (e : Env) (chunk : U16) (nMin nMax sMin sMax : Byte) (interval : U16) (id : Nat) (s : State) : State :=
  match (s.ctx? e.ctx.toNat).bind (·.serving) with
  | none => s.finish id .wrongState
  | some v =>
    let i := interval.toNat
    if !(v.st == .serving && chunk.toNat ≤ v.desc.chunkMax && nMax.toNat ≤ v.desc.nmax && sMax.toNat ≤ v.desc.smax) then
      s.finish id .wrongState
    else
      (s.modServing e.ctx.toNat fun v => { v with
        chunk := chunk.toNat, nMin := nMin.toNat, nMax := nMax.toNat, sMin := sMin.toNat, sMax := sMax.toNat, interval := i,
        sinceInterval := if v.interval = i then v.sinceInterval else 0 }).finish id .ok

def checkSrvPolicy (chunk : U16) (nMin : Byte) (nMax : Byte) (sMin : Byte) (sMax : Byte) (_s : State) : Option Status :=
  firstFail [(decide (256 ≤ chunk.toNat ∧ chunk.toNat ≤ 8192), .badParam),
      (nMin.toNat ≤ 24 && nMax.toNat ≤ 24 && sMin.toNat ≤ 24 && sMax.toNat ≤ 24, .badParam),
      (nMin.toNat ≤ nMax.toNat && sMin.toNat ≤ sMax.toNat, .badParam)]

def execSrvPolicy (e : Env) (chunk : U16) (nMin nMax sMin sMax : Byte) (interval : U16) (s : State) : Res :=
  command (.srvPolicy e chunk nMin nMax sMin sMax interval) e
    (checkSrvPolicy chunk nMin nMax sMin sMax) (fun _ => false)
    (startSrvPolicy e chunk nMin nMax sMin sMax interval) s

/-! ### Requests (R228, R234, R235) -/

/-- 0x0098: the byte offset that fails (log 47). -/
def State.reqFail (s : State) (c : Ctx) (v : Serving) (bs : List Byte) : Option Nat :=
  let plen := fieldAt bs 8 4
  let maxNew := fieldAt bs 12 4
  failedAt [((s.translate c (fieldAt bs 0 8) (4 * max 1 plen) true false).isSome, 0),
    (decide (1 ≤ plen ∧ plen ≤ 1048576), 8), (decide (1 ≤ maxNew ∧ maxNew ≤ 65536), 12),
    ((s.translate c (fieldAt bs 16 8) (4 * max 1 maxNew) false true).isSome, 16), (allZero (slice bs 40 24), 40),
    (v.pagesFor (plen + maxNew + 8) ≤ v.desc.maxpages, 8)]

/-- Number `k` in the sequence of request IDs: from 1 upwards, without 0. -/
def reqIdOf (k : Nat) : Nat := (k - 1) % (2 ^ 32 - 1) + 1

/-- The next number whose ID no live request holds. -/
def Serving.freeReq (v : Serving) : Nat :=
  ((List.range (v.reqs.length + 1)).map (v.nextReq + ·)).find? (fun k => !(v.reqs.any fun r => r.id == reqIdOf k)) |>.getD v.nextReq

/-- The ID has been given to a request. -/
def Serving.known (v : Serving) (id : Nat) : Bool := id != 0 && (id < v.nextReq || 2 ^ 32 - 1 < v.nextReq)

def Ctx.currentVersion (c : Ctx) (id : Nat) : Option Nat :=
  (c.adapters.find? fun a => a.id == id && a.st == .current).map (·.version)

def checkReqAdmit (e : Env) (desc deadline : U64) (s : State) : Option Status :=
  firstFail (s.ptrChecks e desc.toNat 64 ++ [(deadline == 0 || s.now < deadline.toNat, .deadline)])

/-- The token a request has emitted last before it has emitted any is not stated: a free value (log 49). -/
def startReqAdmit (e : Env) (desc deadline : U64) (adapter : U32) (hostStep : Bool) (id : Nat) (s : State) : State :=
  match s.ctx? e.ctx.toNat with
  | none => s.finish id .badContext
  | some c => match c.serving with
    | none => s.finish id .wrongState
    | some v =>
      let ver := c.currentVersion adapter.toNat
      if v.st != .serving || (adapter != 0xFFFFFFFF && ver.isNone) then s.finish id .wrongState
      else
        let k := s.keyAt e desc.toNat 64 true false
        let s := s.touch k 64
        let bs := s.readBytes k 64
        match s.reqFail c v bs with
        | some n => s.finish id .checkFailed (checkResult 0x0098 n)
        | none =>
          if v.desc.maxreq ≤ v.reqs.length then s.finish id .noRoom
          else
            let k := v.freeReq
            let (last, s1) := s.draw
            let bound := if adapter = 0xFFFFFFFF then none else ver.map fun n => (adapter.toNat, n)
            let r : Req :=
            { id := reqIdOf k, prompt := fieldAt bs 0 8, plen := fieldAt bs 8 4, maxNew := fieldAt bs 12 4,
              out := fieldAt bs 16 8, stops := (List.range 4).map (fun i => fieldAt bs (24 + 4 * i) 4),
              deadline := deadline.toNat, adapter := bound, hostStep, cond := .waiting, slot := none, pages := [], kvlen := 0,
              prefilled := 0, emitted := 0, last := last.toNat % 2 ^ 32, drafts := [], steps := 0, maskValid := false,
              replaced := false, cancel := none }
            ((s1.modServing c.id fun v => { v with reqs := v.reqs ++ [r], nextReq := k + 1 }).finish id .ok
              (leBytes 4 r.id ++ leBytes 4 ((bound.map (·.2)).getD 0))).rebalance c.job

def execReqAdmit (e : Env) (desc deadline : U64) (adapter : U32) (hostStep : Bool) (s : State) : Res :=
  command (.reqAdmit e desc deadline adapter hostStep) e (checkReqAdmit e desc deadline) (fun _ => false)
    (startReqAdmit e desc deadline adapter hostStep) s

def State.modReq (s : State) (ctx req : Nat) (f : Req → Req) : State :=
  s.modServing ctx fun v => { v with reqs := v.reqs.map fun r => if r.id == req then f r else r }

/-- A request outside any step retires, with what follows. -/
def State.retireNow (s : State) (ctx req : Nat) (st : Status) : State :=
  let job := ((s.ctx? ctx).map (·.job)).getD 0
  ((s.retire ctx req st false).stopIfDrained ctx).rebalance job

/-- An ID that no request of the context has had is BAD_PARAM, judged with the field at fetch (Table 3.8 stage 4; log 124). -/
def State.reqKnown (s : State) (e : Env) (req : U32) : Bool :=
  ((s.ctx? e.ctx.toNat).bind (·.serving)).any fun v => v.known req.toNat

def checkReqCancel (e : Env) (req : U32) (s : State) : Option Status := firstFail [(s.reqKnown e req, .badParam)]

/-- REQ_CANCEL: at once, or at the end of the step the request takes part in; a request that another REQ_CANCEL waits for
is refused WRONG_STATE (log 48). -/
def startReqCancel (e : Env) (req : U32) (id : Nat) (s : State) : State :=
  match (s.ctx? e.ctx.toNat).bind fun c => c.serving.map fun v => (c, v) with
  | none => s.finish id .badParam
  | some (c, v) =>
    if !v.known req.toNat then s.finish id .badParam
    else match v.reqs.find? fun r => r.id == req.toNat with
      | none => s.finish id .wrongState
      | some r =>
        if r.cancel.isSome then s.finish id .wrongState
        else
          let s1 := s.modReq c.id r.id fun r => { r with cancel := some id }
          if v.inStep.contains r.id then s1 else s1.retireNow c.id r.id .cancelled

def execReqCancel (e : Env) (req : U32) (s : State) : Res :=
  command (.reqCancel e req) e (checkReqCancel e req) (fun _ => false) (startReqCancel e req) s

def execRequestDeadline (ctx req : Nat) (s : State) : Res :=
  match (s.ctx? ctx).bind (·.serving) with
  | none => .next s
  | some v => match v.reqs.find? fun r => r.id == req with
    | some r => s.when (s.running && r.deadline != 0 && r.deadline ≤ s.now && !v.inStep.contains req)
        (s.retireNow ctx req .deadline)
    | none => .next s

/-- STEP_ANSWER of a request (R235); its ID and length have been judged at fetch, too, where a context may have served on with
another ML since (log 124). -/
def State.answerReq (s : State) (c : Ctx) (v : Serving) (req step key len id : Nat) : State :=
  if !v.known req then s.finish id .badParam
  else match v.reqs.find? fun r => r.id == req with
    | none => s.finish id .wrongState
    | some r =>
      if !(r.hostStep && r.cond == .awaiting && r.steps == step) then s.finish id .wrongState
      else if v.desc.maskLen < len then s.finish id .badSize
      else
        let row := v.desc.masks + v.desc.maskLen * r.slot.getD 0
        let s1 := match c.translate row v.desc.maskLen true true with
          | some k => s.writeMarked k (padTo v.desc.maskLen (s.readBytes key len)) (s.poisonOffsets key len)
          | none => s
        ((s1.modReq c.id req fun r => { r with cond := .decoding, maskValid := true }).finish id .ok).rebalance c.job

def startStepAnswer (e : Env) (req step : U32) (answer : U64) (len : U32) (id : Nat) (s : State) : State :=
  match s.ctx? e.ctx.toNat with
  | none => s.finish id .badContext
  | some c =>
    let k := s.keyAt e answer.toNat len.toNat true false
    let s := s.touch k len.toNat
    if req = 0 then s.answerRoute c step.toNat k len.toNat id
    else match c.serving with
      | none => s.finish id .badParam
      | some v => s.answerReq c v req.toNat step.toNat k len.toNat id

/-- The request ID, the answer's address and, for a request, its length against ML are fields of stage 4 (log 124). -/
def checkStepAnswer (e : Env) (req : U32) (answer : U64) (len : U32) (s : State) : Option Status :=
  let ml := (((s.ctx? e.ctx.toNat).bind (·.serving)).map (·.desc.maskLen)).getD 0
  firstFail [(req == 0 || s.reqKnown e req, .badParam), ((s.addr e answer.toNat len.toNat true false).isSome, .badParam),
    (req == 0 || len.toNat ≤ ml, .badSize)]

def execStepAnswer (e : Env) (req step : U32) (answer : U64) (len : U32) (s : State) : Res :=
  command (.stepAnswer e req step answer len) e
    (checkStepAnswer e req answer len) (fun _ => len == 0)
    (startStepAnswer e req step answer len) s

/-! ### SRV_STOP (R237) -/

def State.retireAll (s : State) (ctx : Nat) (st : Status) : State :=
  let live := ((((s.ctx? ctx).bind (·.serving)).map (·.reqs)).getD []).map (·.id)
  live.foldl (fun s r => s.retire ctx r st false) s

/-- A second SRV_STOP while one waits is refused (log 48). -/
def startSrvStop (e : Env) (drain : Bool) (id : Nat) (s : State) : State :=
  match (s.ctx? e.ctx.toNat).bind fun c => c.serving.map fun v => (c, v) with
  | none => s.finish id .wrongState
  | some (c, v) =>
    if v.st == .stopped || v.stopCmd.isSome then s.finish id .wrongState
    else
      let s1 := s.modServing c.id fun v => { v with st := .draining, stopCmd := some id, retired := 0, stopNow := !drain }
      let s2 := if !drain && v.cur.isNone then s1.retireAll c.id .cancelled else s1
      (s2.stopIfDrained c.id).rebalance c.job

def execSrvStop (e : Env) (drain : Bool) (s : State) : Res :=
  command (.srvStop e drain) e (fun _ => none) (fun _ => false) (startSrvStop e drain) s

/-! ### Composition (R224-R226, R229, R230) -/

/-- K_s of a request (R231). -/
def Serving.ks (v : Serving) (r : Req) : Nat := if r.hostStep then 0 else min v.desc.spec r.drafts.length

/-- Pages a decoding slot still needs for the step. -/
def Serving.need (v : Serving) (r : Req) : Nat := v.pagesFor (r.kvlen + v.ks r + 1) - r.pages.length

def sumNat (l : List Nat) : Nat := l.foldl (· + ·) 0

/-- An edge's extension (R226): `n` steps since the interval's start, bounds, durations of the last steps. -/
def newExt (interval n lo hi cur : Nat) (hist : List (Option Nat × Option Nat)) : Nat :=
  let last := hist.take interval
  let ds := last.filterMap (·.1)
  let ps := last.filterMap (·.2)
  let clamp := fun (x : Nat) => max lo (min hi x)
  if interval = 0 then lo
  else if n = 0 || n % interval != 0 then clamp cur
  else if ps.isEmpty then hi
  else if ds.isEmpty then lo
  else
    -- D = Σds / |ds|, P = Σps / |ps|
    let d := 8 * sumNat ds * ps.length
    let p := sumNat ps * ds.length
    if 9 * p < d then clamp (cur + 4) else if d < 7 * p then clamp (cur - 4) else clamp cur

/-- The extension for the step to come, with its event. -/
def State.setExt (s : State) (ctx : Nat) : State :=
  match (s.ctx? ctx).bind fun c => c.serving.map fun v => (c, v) with
  | none => s
  | some (c, v) =>
    let n := newExt v.interval v.sinceInterval v.nMin v.nMax v.eN v.hist
    let m := newExt v.interval v.sinceInterval v.sMin v.sMax v.eS v.hist
    let s1 := s.modServing ctx fun v => { v with eN := n, eS := m }
    if n = v.eN && m = v.eS then s1 else s1.event (srcJob c.job) 0x0014 (leBytes 2 ctx ++ leBytes 1 n ++ leBytes 1 m)

/-- Decoding requests, most recently admitted first. -/
def Serving.decoders (v : Serving) : List Req := (v.reqs.filter fun r => r.cond == .decoding && !r.replaced).reverse

/-- Members left after pausing while the pages of all are short (log 48). -/
def Serving.unpaused (v : Serving) : List Req → List Req
  | [] => []
  | q :: qs => if sumNat ((q :: qs).map v.need) ≤ v.freePages then q :: qs else v.unpaused qs

/-- The decoding members of a step, in admission order; while every member is paused the latest retires NO_ROOM. -/
def State.pickDec (ctx : Nat) : Nat → State → State × List Nat
  | 0, s => (s, [])
  | fuel + 1, s =>
    match (s.ctx? ctx).bind (·.serving) with
    | none => (s, [])
    | some v =>
      let dec := v.decoders
      let go := v.unpaused dec
      match dec with
      | [] => (s, [])
      | q :: _ => if go.isEmpty then State.pickDec ctx fuel (s.retire ctx q.id .noRoom false) else (s, (go.map (·.id)).reverse)

/-- Give a request `n` more pages; which of the free ones is not stated. -/
def State.givePages (s : State) (ctx req : Nat) : Nat → State
  | 0 => s
  | n + 1 =>
    let t := s.givePages ctx req n
    match (t.ctx? ctx).bind (·.serving) with
    | none => t
    | some v =>
      let held := v.pagesHeld
      match t.choose ((List.range v.desc.kvpages).filter fun i => !held.contains i) with
      | (some p, t1) => t1.modReq ctx req fun r => { r with pages := r.pages ++ [p] }
      | (none, t1) => t1

/-- Chunk records of a step: request, first position, tokens. Requests in admission order, none overtaken. -/
def State.pickChunks (ctx : Nat) : List Nat → Nat → List (Nat × Nat × Nat) → State → State × List (Nat × Nat × Nat)
  | [], _, acc, s => (s, acc)
  | q :: qs, budget, acc, s =>
    if budget = 0 || 64 ≤ acc.length then (s, acc)
    else match (s.ctx? ctx).bind (·.serving) with
      | none => (s, acc)
      | some v => match v.reqs.find? fun r => r.id == q with
        | none => State.pickChunks ctx qs budget acc s
        | some r =>
          let n := min budget (r.plen - r.prefilled)
          if r.cond == .prefill then State.pickChunks ctx qs (budget - n) (acc ++ [(q, r.prefilled, n)]) s
          else
            let pages := v.pagesFor (r.plen + 8)
            match v.freeSlots with
            | [] => (s, acc)
            | slot :: _ =>
              if v.freePages < pages then (s, acc)
              else
                let s1 := (s.modReq ctx q fun r => { r with cond := .prefill, slot := some slot }).givePages ctx q pages
                State.pickChunks ctx qs (budget - n) (acc ++ [(q, r.prefilled, n)]) s1

/-- −1 as INT32. -/
def minus1 : Nat := 0xFFFFFFFF

/-- The slot record of a request (Table 9.7). -/
def Ctx.slotRecord (c : Ctx) (r : Req) (step : Option Nat) : List Byte :=
  let ks := step.getD 0
  let flags := (if step.isSome then 1 else 0) + (if r.maskValid then 2 else 0) + (if r.cond == .prefill then 4 else 0)
  let abase := match r.adapter with
    | some (i, n) => ((c.adapters.find? fun a => a.id == i && a.version == n).map (·.abase)).getD 0
    | none => 0
  leBytes 4 r.id ++ leBytes 1 flags ++ leBytes 1 ks ++ zeros 2 ++ leBytes 4 r.kvlen ++ leBytes 4 r.last ++
    (List.range 7).flatMap (fun i => leBytes 4 (if i < ks then r.drafts.getD i minus1 else minus1)) ++
    leBytes 4 ((r.adapter.map (·.1)).getD 0xFFFFFFFF) ++ leBytes 8 abase ++ leBytes 4 ((r.adapter.map (·.2)).getD 0) ++ zeros 4

/-- Slot records, chunk records and page lists in memory. -/
def State.writeRecords (s : State) (ctx : Nat) (dec : List (Nat × Nat)) (chunks : List (Nat × Nat × Nat)) : State :=
  match (s.ctx? ctx).bind fun c => c.serving.map fun v => (c, v) with
  | none => s
  | some (c, v) =>
    let at_ := fun (s : State) (a : Nat) (bs : List Byte) => match c.translate a bs.length false true with
      | some k => s.writeBytes k bs
      | none => s
    let holder := fun (i : Nat) => v.reqs.find? fun r => r.slot == some i
    let s1 := (List.range v.desc.maxseq).foldl (fun s i => at_ s (v.desc.slots + 64 * i) (match holder i with
      | some r => c.slotRecord r ((dec.find? fun d => d.1 == r.id).map (·.2))
      | none => zeros 64)) s
    let s2 := (List.range 64).foldl (fun s i => at_ s (v.desc.chunks + 32 * i) (match chunks[i]? with
      | some (q, first, n) => match v.reqs.find? fun r => r.id == q with
        | some r => leBytes 4 q ++ leBytes 4 (r.slot.getD 0) ++ leBytes 4 first ++ leBytes 4 n ++
            leBytes 8 (r.prompt + 4 * first) ++ zeros 8
        | none => zeros 32
      | none => zeros 32)) s1
    (List.range v.desc.maxseq).foldl (fun s i =>
      let held := ((holder i).map (·.pages)).getD []
      at_ s (v.desc.pages + 4 * v.desc.maxpages * i)
        ((List.range v.desc.maxpages).flatMap fun j => leBytes 4 (held.getD j minus1))) s2

/-- Rim and lent rows (R225). -/
def Serving.lent (v : Serving) (row : Nat) : Bool := row < 8 + v.eN || 72 - v.eS ≤ row

/-- Gated stations of DEC and of PRE. -/
def Serving.gatedIn (v : Serving) (im : Image) (pre : Bool) : List Nat :=
  (List.range im.stations.length).filter fun i => match im.station? i with
    | some st => !st.rowsAll fun r => v.lent r != pre
    | none => false

/-- The invocations of a composed step; they wait since the previous step's end (R217). -/
def State.launchStep (s : State) (ctx : Nat) (dec : List (Nat × Nat)) (chunks : List (Nat × Nat × Nat)) : State :=
  match (s.ctx? ctx).bind fun c => c.serving.map fun v => (c, v) with
  | none => s
  | some (c, v) =>
    let since := v.waitFrom.getD s.elapsed
    let add := fun (s : State) (pre : Bool) => match s.cfg? c.id (if pre then v.desc.pre else v.desc.dec) with
      | some g =>
        let (s1, n) := s.addInv fun n => Inv.make n ctx g (if pre then .prefill ctx else .decode ctx)
          (if pre then v.desc.parg else v.desc.darg) (if pre then v.desc.pres else v.desc.dres) 0 since false
          (v.gatedIn g.image pre)
        (s1, some n)
      | none => (s, none)
    let (s1, d) := if dec.isEmpty then (s, none) else add s false
    let (s2, p) := if chunks.isEmpty then (s1, none) else add s1 true
    (s2.modServing ctx fun v => { v with
      cur := some { launch := none, dec, chunks, decInv := d, preInv := p, decDone := none, preDone := none, old := false }
      waitFrom := none, blockedSince := none }).modCtx ctx fun c => c.activateServing v

/-- Requests whose deadline has passed retire before a step is composed. -/
def State.retireDue (s : State) (ctx : Nat) : State :=
  match (s.ctx? ctx).bind (·.serving) with
  | none => s
  | some v => (v.reqs.filter fun r => r.deadline != 0 && r.deadline ≤ s.now).foldl (fun s r => s.retire ctx r.id .deadline false) s

/-- Live requests of a context. -/
def State.liveReqs (s : State) (ctx : Nat) : Nat := (((s.ctx? ctx).bind (·.serving)).map (·.reqs.length)).getD 0

def State.compose (s : State) (ctx : Nat) : State :=
  let s1 := (s.retireDue ctx).setExt ctx
  let n := s1.liveReqs ctx + 1
  let (s2, ids) := State.pickDec ctx n s1
  match (s2.ctx? ctx).bind fun c => c.serving.map fun v => (c, v) with
  | none => s2
  | some (c, v) =>
    let dec := (v.reqs.filter fun r => ids.contains r.id).map fun r => (r.id, v.ks r)
    let s3 := (v.reqs.filter fun r => ids.contains r.id).foldl (fun s r => s.givePages ctx r.id (v.need r)) s2
    let queue := (v.reqs.filter fun r => (r.cond == .waiting || r.cond == .prefill) && !r.replaced).map (·.id)
    let (s4, chunks) := State.pickChunks ctx queue v.chunk [] s3
    if dec.isEmpty && chunks.isEmpty then
      -- blocked (R219)
      ((s4.modServing ctx fun v => { v with blockedSince := some (v.blockedSince.getD s.elapsed), waitFrom := none
                                            blockedTick := if v.blockedSince.isSome then v.blockedTick else s.now }).stopIfDrained
        ctx).rebalance c.job
    else
      let s5 := (s4.writeRecords ctx dec chunks).launchStep ctx dec chunks
      -- requests have retired (R220)
      if s4.liveReqs ctx < s.liveReqs ctx then s5.rebalance c.job else s5

/-- A step may be composed: between steps, resident, weights in force, not yielding, routes whole (log 48), its configurations
laid out for the grid as it is (R210). -/
def State.composable (s : State) (c : Ctx) : Bool :=
  c.isServing && c.resident && !s.moving c.id && !s.yielding c.id && (c.weight == .loaded || c.weight == .replacing) &&
    match c.serving with
    | some v => v.cur.isNone && !c.srvStale v.desc && (c.cfgs.filter fun g => g.handle == v.desc.dec || g.handle == v.desc.pre).all fun g =>
        !(g.holds.any s.holdFailed)
    | none => false

def execStepCompose (ctx : Nat) (s : State) : Res :=
  match s.ctx? ctx with
  | some c => s.when (s.running && s.composable c) (s.compose ctx)
  | none => .next s

/-! ### The end of a step (R231-R236) -/

/-- Accepted drafts (R232). -/
def Serving.accepted (v : Serving) (r : Req) (ks : Nat) (ver prob : List Nat) : Nat :=
  ((List.range ks).takeWhile fun i =>
    if v.desc.threshold then
      !(fp32 (prob.getD i 0)).isNan && !((fp32 (prob.getD i 0)).lt (fp32 v.desc.thresh))
    else r.drafts.getD i 0 == ver.getD i 0).length

/-- Tokens up to the first stop token. -/
def cutStop (stops : List Nat) : List Nat → List Nat
  | [] => []
  | t :: ts => if stops.contains t then [t] else t :: cutStop stops ts

/-- What a step gave a decoding request: tokens emitted, the request after them, and whether it is finished. -/
def Serving.emit (v : Serving) (r : Req) (ks : Nat) (ver prob : List Nat) : List Nat × Req × Bool :=
  let a := v.accepted r ks ver prob
  let stops := r.stops.filter (· != minus1)
  let ts := (cutStop stops (r.drafts.take a ++ [ver.getD a 0])).take (r.maxNew - r.emitted)
  let r1 := { r with
    kvlen := r.kvlen + ts.length, emitted := r.emitted + ts.length, last := ts.getLast?.getD r.last
    drafts := ((ver.drop (8 + 7 * a)).take 7).take v.desc.spec }
  (ts, r1, ts.any stops.contains || r.maxNew ≤ r1.emitted)

/-- Little-endian 32-bit words of a context address. -/
def State.readWords (s : State) (c : Ctx) (a n : Nat) : List Nat :=
  match c.translate a (4 * n) true false with
  | some k => (List.range n).map fun i => s.readNat (k + 4 * i) 4
  | none => List.replicate n 0

def State.poisonedArea (s : State) (c : Ctx) (a n : Nat) : Bool :=
  match c.translate a n true false with
  | some k => s.poisonedIn k n
  | none => false

/-- Pages that positions `from_` to `stop - 1` of a request lie in. -/
def Serving.touched (v : Serving) (r : Req) (from_ stop : Nat) : List Nat :=
  (r.pages.take (v.pagesFor stop)).drop (from_ / max 1 v.desc.tpp)

def Serving.addDirty (v : Serving) (ps : List Nat) : Serving := { v with dirty := ps.foldl insSorted v.dirty }

/-- A request goes on after its step, or awaits an answer with a step query (R235). -/
def State.goOn (s : State) (ctx : Nat) (r : Req) : State :=
  if r.hostStep then
    (s.modReq ctx r.id fun r => { r with cond := .awaiting }).ring ctx r.id 1 0 0 0 r.steps
  else s.modReq ctx r.id fun r => { r with cond := .decoding }

/-- The VERIFY row, and with a threshold the PROB row, of a decoding request. -/
def State.decReads (s : State) (ctx : Nat) (m : Nat × Nat) : List (Nat × Nat) :=
  match (s.ctx? ctx).bind fun c => c.serving.map fun v => (c, v) with
  | none => []
  | some (c, v) =>
    let slot := ((v.reqs.find? fun r => r.id == m.1).bind (·.slot)).getD 0
    ([(v.desc.verify + 256 * slot, 256)] ++ if v.desc.threshold then [(v.desc.prob + 32 * slot, 32)] else []).filterMap
      fun a : Nat × Nat => (c.translate a.1 a.2 true false).map fun k => (k, a.2)

/-- One decoding request at the end of its step. -/
def State.endDec (s0 : State) (ctx : Nat) (st : Status) (m : Nat × Nat) : State :=
  let s := s0.touchAll (s0.decReads ctx m)
  match (s.ctx? ctx).bind fun c => c.serving.map fun v => (c, v) with
  | none => s
  | some (c, v) => match v.reqs.find? fun r => r.id == m.1 with
    | none => s
    | some r0 =>
      let slot := r0.slot.getD 0
      let r := { r0 with steps := r0.steps + if st.success then 1 else 0 }
      let s0 := s.modServing ctx fun v =>
        { v.addDirty (v.touched r (r.kvlen) (r.kvlen + m.2 + 1)) with reqs := v.reqs.map fun x => if x.id == r.id then r else x }
      let bad := st == .okPoisoned && (s.poisonedArea c (v.desc.verify + 256 * slot) 256 ||
        (v.desc.threshold && s.poisonedArea c (v.desc.prob + 32 * slot) 32))
      if bad then s0.retire ctx r.id .hwFault true
      else if r.deadline != 0 && r.deadline ≤ s.now then s0.retire ctx r.id .deadline false
      else if r.cancel.isSome then s0.retire ctx r.id .cancelled false
      else if !st.success then
        if r.replaced then s0.retire ctx r.id .modelReplaced false
        else if v.stopNow then s0.retire ctx r.id .cancelled false else s0
      else
        let (ts, r1, fin) := v.emit r m.2 (s.readWords c (v.desc.verify + 256 * slot) 64)
          (if v.desc.threshold then s.readWords c (v.desc.prob + 32 * slot) 8 else [])
        let s1 := (s0.writeWords c (r.out + 4 * r.emitted) ts).modReq ctx r.id fun _ => r1
        if fin then s1.retire ctx r.id .ok false
        else if r.replaced then s1.retire ctx r.id .modelReplaced false
        else if v.stopNow then s1.retire ctx r.id .cancelled false
        else s1.goOn ctx r1

/-- One request with a chunk at the end of its step. -/
def State.endChunk (s : State) (ctx : Nat) (st : Status) (m : Nat × Nat × Nat) : State :=
  match (s.ctx? ctx).bind (·.serving) with
  | none => s
  | some v => match v.reqs.find? fun r => r.id == m.1 with
    | none => s
    | some r =>
      let s0 := s.modServing ctx fun v => v.addDirty (v.touched r m.2.1 (m.2.1 + m.2.2))
      if st == .okPoisoned then s0.retire ctx r.id .hwFault true
      else if r.deadline != 0 && r.deadline ≤ s.now then s0.retire ctx r.id .deadline false
      else if r.cancel.isSome then s0.retire ctx r.id .cancelled false
      else if r.replaced then s0.retire ctx r.id .modelReplaced false
      else if v.stopNow then s0.retire ctx r.id .cancelled false
      else if !st.success then s0
      else
        let r1 := { r with prefilled := m.2.1 + m.2.2, kvlen := m.2.1 + m.2.2 }
        let s1 := s0.modReq ctx r.id fun _ => r1
        if r1.plen ≤ r1.prefilled then s1.goOn ctx r1 else s1

/-- Members in slot order. -/
def Serving.bySlot (v : Serving) (ms : List (Nat × Nat)) : List (Nat × Nat) :=
  let slot := fun (m : Nat × Nat) => ((v.reqs.find? fun r => r.id == m.1).bind (·.slot)).getD 0
  ms.mergeSort fun a b => slot a ≤ slot b

/-! #### The mirror (11_links_and_systems.md R284) -/

/-- A mirror packet of one of this module's contexts. -/
def State.isMirror (s : State) (p : Pkt) (ctx : Nat) : Bool :=
  p.src == s.ownChip && match p.desc with
  | .mirror c _ _ _ _ => c == ctx
  | _ => false

/-- Pieces of a commit that have not left: they are abandoned; whether there were any. -/
def State.dropMirror (s : State) (ctx : Nat) : State × Bool :=
  let any := s.link.ports.any fun x => x.waiting.any fun w => s.isMirror w.pkt ctx
  (s.modLink fun l => { l with ports := l.ports.map fun x =>
    { x with waiting := x.waiting.filter fun w => !s.isMirror w.pkt ctx } }, any)

/-- Packets of one piece of the image, of whole 64-byte lines, with the poison of the words they come from. -/
def State.piecePkts (s : State) (c : Ctx) (m : Mirror) (sl step : Nat) (commit : Bool) (piece : Nat × List Byte × List Nat) :
    List Pkt :=
  (pieces (alignUp piece.2.1.length 64)).map fun p =>
    s.mkPkt sl m.buddy m.xtag (.mirror c.id step (piece.1 + p.1) p.2 commit) (slice piece.2.1 p.1 p.2)
      ((piece.2.2.filter fun o => p.1 ≤ o && o < p.1 + p.2).map (· - p.1))

/-- After the end of a step its image goes to the buddy; a commit still unsent is abandoned for this one. -/
def State.mirrorStep (s : State) (ctx : Nat) (clear : List Nat) : State :=
  match (s.ctx? ctx).bind fun c => c.mirror.bind fun m => c.serving.map fun v => (c, m, v) with
  | none => s
  | some (c, m, v) =>
    if !m.ready then s
    else
      let (s1, late) := s.dropMirror ctx
      let s2 := if late then s1.event (srcJob c.job) 0x0025 (leBytes 2 ctx ++ zeros 2 ++ leBytes 4 ((m.pendingStep).getD 0)) else s1
      let dirty := if late then v.dirty else v.dirty.filter fun p => !clear.contains p
      let v1 := { v with dirty := dirty }
      let area := ((c.evictRegion 1).map (·.length)).getD 0
      let s2 := s2.touchAll (s2.mirrorStepReads c v1)
      let ps := s2.mirrorPieces c v1 area v.step
      let pkts := (ps.mapIdx fun i p => s2.piecePkts c m 0 v.step (i + 1 == ps.length) p).flatten
      -- packets of an earlier commit that wait to be sent again are sent with this one's
      let again := ((s2.transfer? m.xtag).bind (·.retryAt)).isSome
      (s2.sendMirror c.job m.buddy pkts).modCtx ctx fun c => { c with
        mirror := c.mirror.map fun m => { m with pendingStep := some v.step, sent := (if again then m.sent else []) ++ pkts }
        serving := c.serving.map fun v => { v with dirty := dirty } }

/-- Both invocations have completed: every member's outcome, then the counts of the step. -/
def State.endStep (s : State) (c : Ctx) (v : Serving) (r : StepRec) : State :=
  let ctx := c.id
  let before := v.dirty
  let dst := (r.decDone.map (·.1)).getD .ok
  let pst := (r.preDone.map (·.1)).getD .ok
  -- pages written before this step and not again stay dirty only while their commit is unsent
  let s0 := s.modServing ctx fun v => { v with dirty := [] }
  let s1 := (v.bySlot r.dec).foldl (fun s m => s.endDec ctx dst m) s0
  let s2 := r.chunks.foldl (fun s m => s.endChunk ctx pst m) s1
  let s3 := if v.stopNow then s2.retireAll ctx .cancelled else s2
  let fresh := (((s3.ctx? ctx).bind (·.serving)).map (·.dirty)).getD []
  -- the image of the step holds its times too, so that a takeover goes on with the extensions of R226
  let s4 := s3.modServing ctx fun v => { v with
    cur := none, dirty := before.foldl insSorted fresh, sinceInterval := v.sinceInterval + 1
    hist := ((r.decDone.map (·.2), r.preDone.map (·.2)) :: v.hist).take 65535 }
  let s5 := s4.mirrorStep ctx (before.filter fun p => !fresh.contains p)
  let s6 := s5.modServing ctx fun v => { v with step := v.step + 1, waitFrom := some s.elapsed }
  (s6.stopIfDrained ctx).rebalance c.job

def execStepEnd (ctx : Nat) (s : State) : Res :=
  match (s.ctx? ctx).bind fun c => c.serving.bind fun v => v.cur.map fun r => (c, v, r) with
  | none => .next s
  | some (c, v, r) =>
    s.when (s.running && (r.decInv.isNone || r.decDone.isSome) && (r.preInv.isNone || r.preDone.isSome)) (s.endStep c v r)

end Sys2Proof.Machine
end

