-- ==== Sys2Proof/Machine/Weights.lean ====
section
/-! DEFINITION. Weights (08_weights.md R186-R207): manifests and their checks, loading, staging, verifying, replacement in
place, adapter versions. -/

namespace Sys2Proof.Machine

/-! ### Manifests (R188, R189) -/

structure Manifest where
  (kind nshard nlayer deadline status : Nat)
  shards : List ShardEnt
  layers : List LayerEnt
  /-- SHA-384 of the shard table -/
  digest : BitVec 384
  deriving DecidableEq, Repr

def ShardEnt.of (bs : List Byte) : ShardEnt :=
  { src := fieldAt bs 0 8, srcLen := fieldAt bs 8 8, dst := fieldAt bs 16 8, stage := fieldAt bs 24 8,
    desc := BitVec.ofNat 64 (fieldAt bs 32 8), ready := fieldAt bs 40 8, readyVal := fieldAt bs 48 8, layer := fieldAt bs 56 2,
    remote := bit (fieldAt bs 58 1) 0, digest := digestAt bs 64 }

def LayerEnt.of (bs : List Byte) : LayerEnt := ⟨fieldAt bs 0 2, fieldAt bs 2 2, fieldAt bs 4 2, fieldAt bs 6 2⟩

/-- Destination length of a shard, at least one byte (R177); a decode's is known only from its stream. -/
def ShardEnt.outLen (x : ShardEnt) : Nat := (Desc.of x.desc.toNat).dstLen x.srcLen

/-- Ranges a shard writes: destination, and staging range of kind 1. -/
def Ctx.shardRanges (c : Ctx) (kind : Nat) (x : ShardEnt) : List (Nat × Nat) :=
  let n := max 1 x.outLen
  ((if kind = 1 then [x.dst, x.stage] else [x.dst]).filterMap fun a => c.translate a n false true).map fun k => (k, n)

/-- Live destination ranges of a context's valid shards, weights and adapters (R187). -/
def Ctx.liveRanges (c : Ctx) : List (Nat × Nat) :=
  ((c.shards ++ c.adapters.flatMap (·.shards)).filter (·.valid)).map fun x => (x.base, x.len)

/-- Live ranges that other contexts own: a resting context owns nothing in HBM, unless its restore is under way. -/
def State.othersRanges (s : State) (ctx : Nat) : List (Nat × Nat) :=
  (s.ctxs.filter fun d => d.id != ctx).flatMap fun d => d.liveRanges.filter fun r =>
    d.resident || s.restoring d.id || spaceOf r.1 != 0

/-- 0x0070 (Table 8.5): header fields, and tables that can be read (log 45). -/
def State.headerOk (s : State) (c : Ctx) (man : Nat) (bs : List Byte) (kinds : List Nat) : Bool :=
  let kind := fieldAt bs 6 1
  let ns := fieldAt bs 8 4
  let nl := fieldAt bs 12 2
  let os := fieldAt bs 32 4
  let ol := fieldAt bs 36 4
  fieldAt bs 0 4 == 0x31464E4D && fieldAt bs 4 2 == 1 && fieldAt bs 7 1 == 0 && fieldAt bs 14 2 == 0 &&
    allZero (slice bs 40 24) && kinds.contains kind && 1 ≤ ns && ns ≤ 8192 &&
    (if kind = 1 then 1 ≤ nl && nl ≤ 16384 else nl == 0) && os % 64 == 0 && ol % 64 == 0 && (nl != 0 || ol == 0) &&
    (s.translate c (man + os) (128 * ns) true false).isSome &&
    (nl == 0 || (s.translate c (man + ol) (8 * nl) true false).isSome)

/-- 0x0071: the fields of a shard entry. -/
def shardFieldsOk (kind : Nat) (bs : List Byte) : Bool :=
  let x := ShardEnt.of bs
  let raw := x.desc.toNat
  let d := Desc.of raw
  fieldAt bs 58 1 < 2 && allZero (slice bs 59 5) && allZero (slice bs 112 16) && (kind == 1 || x.layer == 0) &&
    8 ≤ x.srcLen && x.srcLen ≤ 2 ^ 30 && x.srcLen % 8 == 0 && d.ok raw && d.mode ≤ 2 && d.lenOk x.srcLen &&
    x.outLen ≤ 2 ^ 30 && (kind == 1) == (x.stage != 0) && x.ready % 8 == 0

/-- 0x0072: its ranges. -/
def State.shardRangesOk (s : State) (c : Ctx) (kind : Nat) (x : ShardEnt) : Bool :=
  let n := max 1 x.outLen
  let dstOk := fun (a : Nat) => match c.translate a n false true with
    | some k => spaceOf k < 2
    | none => false
  (if x.remote then !s.ownGa x.src && spaceOf (keyOf x.src) < 2 else (s.translate c x.src x.srcLen true false).isSome) &&
    dstOk x.dst && (kind != 1 || dstOk x.stage) && (x.ready == 0 || (s.translate c x.ready 8 true false).isSome)

/-- 0x0073: overlap inside the manifest with an earlier entry or itself, with another context, or of a staging range with
the context's live ranges (R187). -/
def State.shardOwnOk (s : State) (c : Ctx) (kind : Nat) (prev : List (Nat × Nat)) (x : ShardEnt) : Bool :=
  let mine := c.shardRanges kind x
  !rangesMeet mine prev && !rangesMeet (mine.take 1) (mine.drop 1) && !rangesMeet mine (s.othersRanges c.id) &&
    !rangesMeet (mine.drop 1) c.liveRanges

/-- The first failing shard entry. -/
def State.shardsFail (s : State) (c : Ctx) (kind : Nat) (layers : List LayerEnt) :
    Nat → List (Nat × Nat) → List (List Byte) → Option (Nat × Nat)
  | _, _, [] => none
  | i, prev, b :: bs =>
    let x := ShardEnt.of b
    if !shardFieldsOk kind b then some (0x0071, i)
    else if !s.shardRangesOk c kind x then some (0x0072, i)
    else if !s.shardOwnOk c kind prev x then some (0x0073, i)
    else if kind == 1 && !(layers.any fun l => l.layer == x.layer) then some (0x0075, i)
    else s.shardsFail c kind layers (i + 1) (prev ++ c.shardRanges kind x) bs

/-- 0x0074: the first failing layer entry. -/
def Ctx.layersFail (c : Ctx) : Nat → Option Nat → List LayerEnt → Option (Nat × Nat)
  | _, _, [] => none
  | i, last, l :: ls =>
    let stations := ((c.cfgs.find? fun g => g.handle == l.handle).map fun g => g.image.stations.length).getD 0
    if (match last with
        | some p => p ≤ l.layer
        | none => true) && 1 ≤ l.count && l.first + l.count ≤ stations then
      c.layersFail (i + 1) (some l.layer) ls
    else some (0x0074, i)

/-- A manifest read and checked, or the failing code and item. -/
def State.readManifest (s : State) (c : Ctx) (man : Nat) (kinds : List Nat) : Except (Nat × Nat) Manifest :=
  let bs := s.readBytes ((c.translate man 64 true false).getD 0) 64
  if !s.headerOk c man bs kinds then .error (0x0070, 0)
  else
    let kind := fieldAt bs 6 1
    let ns := fieldAt bs 8 4
    let nl := fieldAt bs 12 2
    let ks := (c.translate (man + fieldAt bs 32 4) (128 * ns) true false).getD 0
    let kl := (c.translate (man + fieldAt bs 36 4) (8 * nl) true false).getD 0
    let raw := (List.range ns).map fun i => s.readBytes (ks + 128 * i) 128
    let layers := (List.range nl).map fun i => LayerEnt.of (s.readBytes (kl + 8 * i) 8)
    match s.shardsFail c kind layers 0 [] raw with
    | some f => .error f
    | none => match c.layersFail 0 none layers with
      | some f => .error f
      | none => .ok { kind, nshard := ns, nlayer := nl, deadline := fieldAt bs 16 8, status := fieldAt bs 24 8,
                      shards := raw.map ShardEnt.of, layers, digest := sha384 (s.readBytes ks (128 * ns)) }

/-- What a weight command of a context reads: its manifest's header, the tables of one that holds, its shard mask. -/
def State.touchManifest (s : State) (ctx man mask : Nat) (kinds : List Nat) : State :=
  match s.ctx? ctx with
  | none => s
  | some c =>
    let s1 := s.touchAll ((c.translate man 64 true false).toList.map fun k => (k, 64))
    let bs := s1.readBytes ((c.translate man 64 true false).getD 0) 64
    let ns := fieldAt bs 8 4
    let tables := if s.headerOk c man bs kinds then
      [(man + fieldAt bs 32 4, 128 * ns), (man + fieldAt bs 36 4, 8 * fieldAt bs 12 2)] else []
    let areas := tables ++ if mask = 0 then [] else [(mask, ceilDiv ns 8)]
    s1.touchAll (areas.filterMap fun a => (c.translate a.1 a.2 true false).map fun k => (k, a.2))

/-- KIND as stage 6 reads it. -/
def State.manifestKind (s : State) (c : Ctx) (man : Nat) : Nat := s.readNat ((c.translate man 64 true false).getD 0 + 6) 1

/-! ### Shard masks (R195) -/

/-- Names of a mask over `n` shards: every shard with address 0; none when the mask cannot be read whole (log 45). -/
def State.maskNames (s : State) (c : Ctx) (mask n : Nat) : Option (Nat → Bool) :=
  if mask = 0 then some fun _ => true
  else match c.translate mask (ceilDiv n 8) true false with
    | some k => some fun i => bit (s.readByte (k + i / 8)).toNat (i % 8)
    | none => if n = 0 then some fun _ => false else none

/-- 0x0076: the first bit at or beyond NSHARD. -/
def strayBit (names : Nat → Bool) (mask n : Nat) : Option Nat :=
  if mask = 0 then none else ((List.range (8 * ceilDiv n 8)).filter fun i => n ≤ i).find? names

/-- A shard mask that can be read and has no bit set, which counts as zero (03_commands_and_events.md R54). -/
def State.maskEmpty (s : State) (c : Ctx) (mask n : Nat) : Bool :=
  mask != 0 && 1 ≤ n && n ≤ 8192 && match c.translate mask (ceilDiv n 8) true false with
    | some k => allZero (s.readBytes k (ceilDiv n 8))
    | none => false

/-- Zero test of WGT_LOAD; NSHARD is the manifest's. -/
def zeroWgtLoad (e : Env) (manifest mask : U64) (s : State) : Bool :=
  (s.ctx? e.ctx.toNat).any fun c => match c.translate manifest.toNat 64 true false with
    | some k => s.maskEmpty c mask.toNat (s.readNat (k + 8) 4)
    | none => false

/-- Zero test of WGT_VERIFY. -/
def zeroWgtVerify (e : Env) (mask : U64) (s : State) : Bool :=
  (s.ctx? e.ctx.toNat).any fun c => s.maskEmpty c mask.toNat c.shards.length

/-! ### Weight commands in progress -/

def State.modOp (s : State) (ctx cmd : Nat) (f : WgtOp → WgtOp) : State :=
  s.modCtx ctx fun c => { c with wgt := c.wgt.map fun w => if w.cmd == cmd then f w else w }

def State.wgtOp? (s : State) (ctx cmd : Nat) : Option WgtOp :=
  (s.ctx? ctx).bind fun c => c.wgt.find? fun w => w.cmd == cmd

/-- The context takes a WGT_LOAD, WGT_REPLACE or WGT_VERIFY (R186, R187). -/
def State.weightFree (s : State) (c : Ctx) : Bool :=
  c.resident && !s.moving c.id && !c.verifying && c.wgt.all fun w => w.kind == 2

/-- The earlier of two deadlines that count when non-zero (R192). -/
def effective (a b : Nat) : Nat := if a = 0 then b else if b = 0 then a else min a b

/-- How a named shard begins: at once without a ready word. -/
def ShardEnt.begin (x : ShardEnt) : ShardSt := if x.ready = 0 then .ready else .waiting

def setProg (w : WgtOp) (i : Nat) (st : ShardSt) : WgtOp := { w with prog := w.prog.set i st }

/-- The lowest-indexed failed shard. -/
def WgtOp.firstFailed (w : WgtOp) : Option (Nat × Status) :=
  (List.range w.prog.length).findSome? fun i => match w.prog.getD i .unnamed with
    | .failed st => some (i, st)
    | _ => none

/-- The records a command fills: live shards, staged shards, or those of an adapter version. -/
def Ctx.recsOf (c : Ctx) (w : WgtOp) : List ShardRec :=
  match w.kind with
  | 0 => c.shards
  | 2 => ((c.adapters.find? fun a => a.id == w.adapter && a.version == w.version).map (·.shards)).getD []
  | _ => c.staged

def Ctx.modRecs (c : Ctx) (w : WgtOp) (f : List ShardRec → List ShardRec) : Ctx :=
  match w.kind with
  | 0 => { c with shards := f c.shards }
  | 2 => { c with adapters := c.adapters.map fun a =>
      if a.id == w.adapter && a.version == w.version then { a with shards := f a.shards } else a }
  | _ => { c with staged := f c.staged }

/-- Weight state by the live shards (R194). -/
def Ctx.weightNow (c : Ctx) : WeightState :=
  if !c.shards.isEmpty && c.shards.all (·.valid) then .loaded
  else if c.shards.any (·.valid) then .partLoaded else .empty

/-- Transfers of a weight command end; its shards carry `cmd * 8192 + index`. -/
def State.dropShards (s : State) (ctx cmd : Nat) : State :=
  s.modLink fun l => { l with transfers := l.transfers.filter fun t => match t.kind with
    | .shard x n => !(x == ctx && n / 8192 == cmd)
    | _ => true }

/-- Destination key and length of a shard. -/
def Ctx.shardDst (c : Ctx) (w : WgtOp) (x : ShardEnt) : Nat × Nat :=
  let a := if w.kind = 1 || w.kind = 3 then x.stage else x.dst
  ((c.translate a (max 1 x.outLen) false true).getD 0, x.outLen)

/-! ### The barrier of WGT_REPLACE (R198, R202) -/

/-- B is fixed: the context is REPLACING, a step that has begun is old, and without KEEP_KV requests outside a step
retire. -/
def State.fixBarrier (s : State) (ctx cmd : Nat) : State :=
  match s.wgtOp? ctx cmd with
  | none => s
  | some w =>
    let s1 := (s.modOp ctx cmd fun w => { w with barrier := some s.now }).modCtx ctx fun c =>
      { c with weight := .replacing
               serving := c.serving.map fun v => { v with cur := v.cur.map fun r => { r with old := true } } }
    if w.keepKv then s1
    else
      let s2 := s1.modServing ctx fun v => { v with reqs := v.reqs.map fun r => { r with replaced := true } }
      match (s2.ctx? ctx).bind (·.serving) with
      | some v =>
        let gone := (v.reqs.filter fun r => !v.inStep.contains r.id).map (·.id)
        let s3 := (gone.foldl (fun s r => s.retire ctx r .modelReplaced false) s2).stopIfDrained ctx
        -- requests have retired (09_serving.md R220)
        if gone.isEmpty then s3 else s3.rebalance (((s.ctx? ctx).map (·.job)).getD 0)
      | none => s2

/-! ### Ends (R194, R204) -/

def State.removeOp (s : State) (ctx cmd : Nat) : State :=
  (s.modCtx ctx fun c => { c with wgt := c.wgt.filter fun w => w.cmd != cmd }).dropShards ctx cmd

/-- A command leaves with a status: counts of valid or staged shards, first failing shard. -/
def State.endLoad (s : State) (ctx : Nat) (w : WgtOp) (st : Status) : State :=
  match s.ctx? ctx with
  | none => s
  | some c =>
    let n := if w.kind = 2 then 0 else ((c.recsOf w).filter (·.valid)).length
    let first := match w.firstFailed with
      | some (i, _) => i
      | none => 0xFFFFFFFF
    let s1 := s.removeOp ctx w.cmd
    let s2 := match w.kind with
      | 0 => s1.modCtx ctx fun c => { c with weight := c.weightNow }
      | 2 => s1.modCtx ctx fun c => ({ c with adapters := c.adapters.filter fun a =>
          !(a.id == w.adapter && a.version == w.version) } : Ctx).freeAdapters
      | _ => s1
    s2.finish w.cmd st (leBytes 4 n ++ leBytes 4 first)

/-- An adapter version becomes current (R204, Table 8.8). -/
def State.adapterCurrent (s : State) (ctx : Nat) (w : WgtOp) : State :=
  let s1 := (s.removeOp ctx w.cmd).modCtx ctx fun c => ({ c with
    maxVersions := (c.maxVersions.filter fun m => m.1 != w.adapter) ++ [(w.adapter, w.version)]
    adapters := c.adapters.map fun (a : Adapter) =>
      if a.id == w.adapter && a.version == w.version then { a with st := .current }
      else if a.id == w.adapter && a.st == .current then { a with st := .superseded } else a } : Ctx).freeAdapters
  let held := ((s1.ctx? ctx).map fun c => (c.adapters.filter fun a => a.id == w.adapter).length).getD 0
  s1.finish w.cmd .ok (leBytes 4 w.version ++ leBytes 4 held)

/-- No named shard is open any more: the command ends, or a replacement reaches its barrier. -/
def State.settleOp (s : State) (ctx cmd : Nat) : State :=
  match s.wgtOp? ctx cmd with
  | none => s
  | some w =>
    if !(w.shardsIn ShardSt.open_).isEmpty || w.noRoom || w.barrier.isSome then s
    else match w.firstFailed with
      | some (_, st) => s.endLoad ctx w st
      | none => match w.kind with
        | 2 => s.adapterCurrent ctx w
        | 3 => s.fixBarrier ctx cmd
        | _ => s.endLoad ctx w .ok

/-- Open shards are given up: entries, transfers, and what they were writing (R192). -/
def State.giveUp (s : State) (ctx cmd : Nat) (st : Status) : State :=
  match s.ctx? ctx, s.wgtOp? ctx cmd with
  | some c, some w =>
    let s1 := (w.shardsIn (· == .inFlight)).foldl (fun s i => match w.shards[i]? with
      | some x => let (k, n) := c.shardDst w x; s.scribble k n
      | none => s) s
    let s2 := (w.shardsIn ShardSt.open_).foldl (fun s i =>
      (s.shardEntry c w i st.code 0 0 0).modOp ctx cmd fun w => setProg w i (.failed st)) s1
    s2.dropShards ctx cmd
  | _, _ => s

/-- A failed Mandoline or digest unit ends the command (R314); shards it had not finished are abandoned. -/
def State.abortOp (s : State) (ctx cmd : Nat) : State :=
  let s1 := s.giveUp ctx cmd .cancelled
  match s1.wgtOp? ctx cmd with
  | some w => s1.endLoad ctx w .hwFault
  | none => s1

/-! ### WGT_LOAD, WGT_REPLACE, ADAPTER_LOAD -/

/-- Discard what is recorded under another shard table (R195), or make room for the records. -/
def Ctx.prepare (c : Ctx) (m : Manifest) : Ctx :=
  if m.kind = 0 then
    if c.loadDigest == some m.digest && c.shards.length == m.nshard then c
    else { c with shards := c.emptyRecs false m.shards, loadDigest := some m.digest, weight := .empty }
  else if m.kind = 1 then
    if c.stageDigest == some m.digest && c.staged.length == m.nshard then c
    else { c with staged := c.emptyRecs true m.shards, stageDigest := some m.digest }
  else c

/-- A weight command enters; a deadline already reached fails every named shard (R192). -/
def State.beginOp (s : State) (ctx : Nat) (w : WgtOp) : State :=
  let w := { w with order := s.mem.nextUid }
  let s1 := (s.modMem fun m => { m with nextUid := m.nextUid + 1 }).modCtx ctx fun c => { c with wgt := c.wgt ++ [w] }
  let s2 := if w.deadline != 0 && w.deadline ≤ s.now && !w.noRoom then s1.giveUp ctx w.cmd .shardMissing else s1
  s2.settleOp ctx w.cmd

def Manifest.op (m : Manifest) (cmd kind deadline : Nat) (names : Nat → Bool) : WgtOp :=
  { cmd, kind, adapter := 0, version := 0, shards := m.shards,
    prog := m.shards.mapIdx fun i x => if names i then x.begin else .unnamed, layers := m.layers, status := m.status,
    deadline := effective m.deadline deadline, tableDigest := m.digest, keepKv := false, order := 0, noRoom := false,
    barrier := none, layersDone := 0, overwriting := false, poisoned := false }

def checkWgtLoad (e : Env) (manifest mask : U64) (s : State) : Option Status :=
  firstFail (s.ptrChecks e manifest.toNat 64 ++ [(mask == 0 || (s.addr e mask.toNat 1 true false).isSome, .badParam)])

/-- Stage 6 of WGT_LOAD (Table 8.1): kinds 0 and 1 by the state; another kind is a failing header (log 45). -/
def State.loadAllowed (s : State) (c : Ctx) (kind : Nat) : Bool :=
  s.weightFree c && match c.weight with
    | .empty | .partLoaded => kind != 1
    | .loaded => kind != 0
    | .replacing => false

/-- A mask that names nothing is zero (R54); it is known once the header and the mask have been read. -/
def startWgtLoad (e : Env) (manifest mask deadline : U64) (id : Nat) (s0 : State) : State :=
  let s := s0.touchManifest e.ctx.toNat manifest.toNat mask.toNat [0, 1]
  match s.ctx? e.ctx.toNat with
  | none => s.finish id .badContext
  | some c =>
    if zeroWgtLoad e manifest mask s then s.finish id .okEmpty
    else if !s.loadAllowed c (s.manifestKind c manifest.toNat) then s.finish id .wrongState
    else match s.readManifest c manifest.toNat [0, 1] with
      | .error (code, item) => s.finish id .checkFailed (checkResult code item)
      | .ok m => match s.maskNames c mask.toNat m.nshard with
        | none => s.finish id .badParam
        | some names => match strayBit names mask.toNat m.nshard with
          | some b => s.finish id .checkFailed (checkResult 0x0076 b)
          | none => (s.modCtx c.id fun c => c.prepare m).beginOp c.id (m.op id m.kind deadline.toNat names)

def execWgtLoad (e : Env) (manifest mask deadline : U64) (s : State) : Res :=
  command (.wgtLoad e manifest mask deadline) e (checkWgtLoad e manifest mask) (fun _ => false)
    (startWgtLoad e manifest mask deadline) s

def checkManifest (e : Env) (manifest : U64) (s : State) : Option Status := firstFail (s.ptrChecks e manifest.toNat 64)

/-- Every shard that the manifest's header and shard table name is staged. -/
def State.allStaged (s : State) (c : Ctx) (man : Nat) : Bool :=
  let bs := s.readBytes ((c.translate man 64 true false).getD 0) 64
  let n := fieldAt bs 8 4
  c.staged.length == n && c.staged.all (·.valid) && match c.translate (man + fieldAt bs 32 4) (128 * n) true false with
    | some k => c.stageDigest == some (sha384 (s.readBytes k (128 * n)))
    | none => false

/-- With AT_TICK every shard has to be staged at stage 6, before the manifest is checked (R189, R198). -/
def startWgtReplace (e : Env) (manifest : U64) (keepKv : Bool) (deadline : U64) (id : Nat) (s0 : State) : State :=
  let s := s0.touchManifest e.ctx.toNat manifest.toNat 0 [1]
  match s.ctx? e.ctx.toNat with
  | none => s.finish id .badContext
  | some c =>
    if !(c.weight == .loaded && s.weightFree c && (!e.atTick || s.allStaged c manifest.toNat)) then s.finish id .wrongState
    else match s.readManifest c manifest.toNat [1] with
      | .error (code, item) => s.finish id .checkFailed (checkResult code item)
      | .ok m =>
        let c1 := c.prepare m
        let w := m.op id 3 deadline.toNat fun i => !((c1.staged.getD i ⟨i, 0, 0, 0, false, none⟩).valid)
        (s.modCtx c.id fun c => c.prepare m).beginOp c.id { w with keepKv := keepKv }

def execWgtReplace (e : Env) (manifest : U64) (keepKv : Bool) (deadline : U64) (s : State) : Res :=
  command (.wgtReplace e manifest keepKv deadline) e (checkManifest e manifest) (fun _ => false)
    (startWgtReplace e manifest keepKv deadline) s

/-- Adapter IDs a context holds or loads. -/
def Ctx.adapterIds (c : Ctx) : List Nat :=
  (c.adapters.map (·.id) ++ (c.wgt.filter fun w => w.kind == 2).map (·.adapter)).eraseDups

def startAdapterLoad (e : Env) (manifest : U64) (adapter version : U32) (deadline : U64) (id : Nat) (s0 : State) : State :=
  let s := s0.touchManifest e.ctx.toNat manifest.toNat 0 [2]
  match s.ctx? e.ctx.toNat with
  | none => s.finish id .badContext
  | some c =>
    let a := adapter.toNat
    let v := version.toNat
    let known := ((c.maxVersions.find? fun m => m.1 == a).map (·.2)).getD 0
    if !((c.weight == .loaded || c.weight == .replacing) && c.resident && !s.moving c.id &&
        !(c.wgt.any fun w => w.kind == 2 && w.adapter == a) && known < v) then s.finish id .wrongState
    else match s.readManifest c manifest.toNat [2] with
      | .error (code, item) => s.finish id .checkFailed (checkResult code item)
      | .ok m =>
        if !c.adapterIds.contains a && 64 ≤ c.adapterIds.length then s.finish id .noRoom
        else
          let recs := c.emptyRecs false m.shards
          let room := c.adapterRoom a (recs.map fun x => (x.base, x.len))
          let s1 := if room then
              s.modCtx c.id fun c => { c with adapters := c.adapters ++ [⟨a, v, .loading, ((m.shards.head?).map (·.dst)).getD 0, recs⟩] }
            else s
          s1.beginOp c.id { m.op id 2 deadline.toNat fun _ => true with adapter := a, version := v, noRoom := !room }

def checkAdapterLoad (e : Env) (manifest : U64) (version : U32) (s : State) : Option Status :=
  firstFail (s.ptrChecks e manifest.toNat 64 ++
      [(decide (1 ≤ version.toNat ∧ version.toNat ≤ 0xFFFFFFFE), Status.badParam)])

def execAdapterLoad (e : Env) (manifest : U64) (adapter version : U32) (deadline : U64) (s : State) : Res :=
  command (.adapterLoad e manifest adapter version deadline) e
    (checkAdapterLoad e manifest version) (fun _ => false)
    (startAdapterLoad e manifest adapter version deadline) s

/-- A load that waits for room reaches its deadline (R205). -/
def execAdapterRoomDeadline (ctx adapter : Nat) (s : State) : Res :=
  match (s.ctx? ctx).bind fun c => c.wgt.find? fun w => w.kind == 2 && w.adapter == adapter && w.noRoom with
  | some w => s.when (s.running && w.deadline != 0 && w.deadline ≤ s.now) ((s.removeOp ctx w.cmd).finish w.cmd .noRoom)
  | none => .next s

/-- ADAPTER_RETIRE is a weight command: a context that rests or moves refuses it (R187, R207; DEDUCED, log 149). -/
def startAdapterRetire (e : Env) (adapter version : U32) (id : Nat) (s : State) : State :=
  match s.ctx? e.ctx.toNat with
  | none => s.finish id .badContext
  | some c =>
    let mine := fun (a : Adapter) => a.id == adapter.toNat && a.version == version.toNat && a.st != .loading
    if !(c.resident && !s.moving c.id && c.adapters.any mine) then s.finish id .wrongState
    else
      let n := c.boundTo adapter.toNat version.toNat
      let upd := fun (a : Adapter) => if mine a then { a with st := .retired } else a
      (s.modCtx c.id fun c => ({ c with adapters := c.adapters.map upd } : Ctx).freeAdapters).finish id .ok (leBytes 4 n)

def execAdapterRetire (e : Env) (adapter version : U32) (s : State) : Res :=
  command (.adapterRetire e adapter version) e (fun _ => none) (fun _ => false) (startAdapterRetire e adapter version) s

/-! ### WGT_VERIFY (R196) -/

/-- What a verification reads of its shard mask. -/
def State.touchMask (s : State) (ctx mask : Nat) : State :=
  match s.ctx? ctx with
  | some c => if mask = 0 then s else
    s.touchAll ((c.translate mask (ceilDiv c.shards.length 8) true false).toList.map fun k => (k, ceilDiv c.shards.length 8))
  | none => s

/-- A digest unit that a verification needs has failed (13_safety_repair_wear.md R314). -/
def State.verifyUnitFailed (s : State) (c : Ctx) (names : Nat → Bool) : Bool :=
  c.shards.any fun x => names x.index && x.valid && s.unitFailed 5 (mandolineOf x.base x.base)

/-- A mask that names nothing is zero (R54); it is known once it has been read. -/
def startWgtVerify (e : Env) (mask : U64) (id : Nat) (s0 : State) : State :=
  let s := s0.touchMask e.ctx.toNat mask.toNat
  match s.ctx? e.ctx.toNat with
  | none => s.finish id .badContext
  | some c =>
    if zeroWgtVerify e mask s then s.finish id .okEmpty
    else if !(c.weight != .replacing && s.weightFree c) then s.finish id .wrongState
    else match s.maskNames c mask.toNat c.shards.length with
      | none => s.finish id .badParam
      | some names =>
        if s.verifyUnitFailed c names then s.finish id .hwFault
        else
          let ix := (c.shards.filter fun x => names x.index && x.valid).map (·.index)
          (s.modCtx c.id fun c => { c with verifying := true }).modRec id fun r => { r with xfer := some (.verify c.id ix) }

def checkWgtVerify (e : Env) (mask : U64) (s : State) : Option Status :=
  firstFail [(mask == 0 || (s.addr e mask.toNat 1 true false).isSome, .badParam)]

def execWgtVerify (e : Env) (mask : U64) (s : State) : Res :=
  command (.wgtVerify e mask) e
    (checkWgtVerify e mask) (fun _ => false)
    (startWgtVerify e mask) s

/-- The shard no longer reads as its resident digest, or reads poisoned. -/
def State.shardBad (s : State) (x : ShardRec) : Bool :=
  s.poisonedIn x.base x.len || sha384 (s.readBytes x.base x.len) != x.digest

/-- The shards have been read, unless a digest unit has failed meanwhile. -/
def State.endVerify (s : State) (id ctx : Nat) (ix : List Nat) : State :=
  match s.ctx? ctx with
  | none => s.finish id .cancelled
  | some c =>
    if s.verifyUnitFailed c ix.contains then (s.modCtx ctx fun c => { c with verifying := false }).finish id .hwFault
    else
      let bad := (c.shards.filter fun x => ix.contains x.index && s.shardBad x).map (·.index)
      let first := bad.head?.getD 0xFFFFFFFF
      let s1 := s.modCtx ctx fun c => { c with
        verifying := false
        shards := c.shards.map fun (x : ShardRec) => if bad.contains x.index then { x with valid := false } else x
        weight := if bad.isEmpty then c.weight else .partLoaded }
      s1.finish id (if bad.isEmpty then .ok else .shardCorrupt) (leBytes 4 ix.length ++ leBytes 4 first)

/-! ### Shards (R191-R193) -/

/-- A weight command of a context with one of its shards, where that is in a state. -/
def Ctx.opShard (c : Ctx) (cmd shard : Nat) (st : ShardSt) : Option (WgtOp × ShardEnt) :=
  (c.wgt.find? fun w => w.cmd == cmd && w.barrier.isNone && !w.noRoom && w.prog[shard]? == some st).bind fun w =>
    (w.shards[shard]?).map fun x => (w, x)

def execShardReadyPoll (ctx : Nat) (shard : ShardRef) (s : State) : Res :=
  match s.ctx? ctx with
  | none => .next s
  | some c => match c.opShard shard.cmd shard.shard .waiting with
    | none => .next s
    | some (_, x) => match c.translate x.ready 8 true false with
      | some k =>
        let t := s.touch k 8
        .next (if !s.running then s else if t.readNat k 8 == x.readyVal then
          t.modOp ctx shard.cmd fun w => setProg w shard.shard .ready else t)
      | none => .next s

/-- The Mandoline instance of a shard; a remote source counts as HBM. -/
def Ctx.shardUnit (c : Ctx) (w : WgtOp) (x : ShardEnt) : Nat :=
  mandolineOf (if x.remote then 0 else (c.translate x.src x.srcLen true false).getD 0) (c.shardDst w x).1

/-- Instances of the shards of a command in a state. -/
def Ctx.unitsOf (c : Ctx) (w : WgtOp) (st : ShardSt) : List (Nat × Nat) :=
  (w.shardsIn (· == st)).filterMap fun i => (w.shards[i]?).map fun x => (i, c.shardUnit w x)

/-- A remote shard without a route stays ready. -/
def State.shardRoute (s : State) (c : Ctx) (x : ShardEnt) : Option Nat :=
  if x.remote then s.link.originEntry c.job (chipOf x.src) else some 0

/-- Ready shards of a command that could start on an instance. -/
def State.readyOn (s : State) (c : Ctx) (w : WgtOp) (u : Nat) : List Nat :=
  if w.noRoom || w.barrier.isSome || 8 ≤ (w.shardsIn (· == .inFlight)).length then []
  else ((c.unitsOf w .ready).filter fun p => p.2 == u &&
    ((w.shards[p.1]?).bind fun x => s.shardRoute c x).isSome).map (·.1)

def State.inFlightOn (s : State) (u : Nat) : Nat :=
  (s.ctxs.flatMap fun c => c.wgt.flatMap fun w => (c.unitsOf w .inFlight).filter fun p => p.2 == u).length

/-- Limits and order of R193. -/
def State.mayStart (s : State) (c : Ctx) (w : WgtOp) (shard u : Nat) : Bool :=
  (s.readyOn c w u).head? == some shard && s.inFlightOn u < 2 && !s.prefetchWaits u &&
    s.ctxs.all fun d => d.wgt.all fun v => w.order ≤ v.order || (s.readyOn d v u).isEmpty

/-- The Mandoline or the digest unit of an instance's die has failed (13_safety_repair_wear.md R314). -/
def State.shardUnitFailed (s : State) (u : Nat) : Bool := s.unitFailed 3 u || s.unitFailed 5 u

def execShardStart (ctx : Nat) (shard : ShardRef) (s : State) : Res :=
  match s.ctx? ctx with
  | none => .next s
  | some c => match c.opShard shard.cmd shard.shard .ready with
    | none => .next s
    | some (w, x) =>
      let u := c.shardUnit w x
      if !(s.running && s.mayStart c w shard.shard u) then .next s
      else if s.shardUnitFailed u then .next (s.abortOp ctx w.cmd)
      else
        let s1 := (s.modOp ctx w.cmd fun w => setProg w shard.shard .inFlight).modCtx ctx fun c =>
          c.modRecs w fun rs => rs.modify shard.shard fun r => { r with valid := false }
        match s.shardRoute c x with
        | some slice =>
          if x.remote then .next (s1.startTransfer none (.shard ctx (w.cmd * 8192 + shard.shard)) slice (chipOf x.src) 0 x.src
            (alignUp x.srcLen 64) 0)
          else .next s1
        | none => .next s1

/-- What a shard's source gave: bytes and poisoned offsets; none while a remote source still arrives. -/
def State.shardData (s : State) (c : Ctx) (w : WgtOp) (shard : Nat) (x : ShardEnt) : Option (List Byte × List Nat) :=
  if x.remote then
    match s.link.transfers.find? fun t => t.kind == .shard c.id (w.cmd * 8192 + shard) with
    | some t =>
      if t.moved < t.len then none
      else
        let ps := t.parts.mergeSort fun a b => a.1 ≤ b.1
        some ((ps.flatMap fun p => p.2.1).take x.srcLen,
          (ps.flatMap fun p => p.2.2.map (p.1 + ·)).filter fun o => o < x.srcLen)
    | none => none
  else (c.translate x.src x.srcLen true false).map fun k => (s.readBytes k x.srcLen, s.poisonOffsets k x.srcLen)

/-- What becomes of a shard: failure with its CHECK code and whether bytes were written before, or what is written. -/
def Ctx.shardOutcome (c : Ctx) (w : WgtOp) (x : ShardEnt) (bs : List Byte) (ps : List Nat) :
    Except (Nat × Bool) (Nat × ConvOut) :=
  let raw := x.desc.toNat
  let d := Desc.of raw
  if !ps.isEmpty || sha384 bs != x.digest then .error (0, d.mode != 2)
  else match d.run raw bs ps with
    | .error (code, _) => .error (code, false)
    | .ok o =>
      match c.translate (if w.kind = 1 || w.kind = 3 then x.stage else x.dst) o.bytes.length false true with
      | some k => .ok (k, o)
      | none => .error (0, false)

/-- The shard's record: its source is a resting copy when it is read bit for bit (R184). -/
def Ctx.shardRec (c : Ctx) (shard : Nat) (x : ShardEnt) (k : Nat) (o : ConvOut) : ShardRec :=
  { index := shard, base := k, len := o.bytes.length, digest := sha384 o.bytes, valid := true,
    copy := if (Desc.of x.desc.toNat).mode = 0 && !x.remote then
      (c.translate x.src x.srcLen true false).map fun a => (a, x.srcLen) else none }

/-- The shard's bytes have come, and it becomes valid or fails. -/
def State.takeShard (s : State) (c : Ctx) (w : WgtOp) (shard : Nat) (x : ShardEnt) (bs : List Byte) (ps : List Nat) : State :=
  let s0 := s.modLink fun l => { l with transfers := l.transfers.filter fun t => t.kind != .shard c.id (w.cmd * 8192 + shard) }
  match c.shardOutcome w x bs ps with
  | .error (code, wrote) =>
    let s1 := if wrote then (let (k, n) := c.shardDst w x; s0.scribble k n) else s0
    (s1.shardEntry c w shard Status.shardCorrupt.code code 0 0).modOp c.id w.cmd fun w =>
      setProg w shard (.failed .shardCorrupt)
  | .ok (k, o) =>
    let s1 := ((s0.writeMarked k o.bytes o.marks).countConv o).shardEntry c w shard 0 0 o.sat o.nanOut
    (s1.modCtx c.id fun c => c.modRecs w fun rs => rs.set shard (c.shardRec shard x k o)).modOp c.id w.cmd fun w =>
      setProg w shard .valid

/-- The words of a local source are read: changed ones are met (13_safety_repair_wear.md R316-R318). -/
def State.touchShard (s : State) (c : Ctx) (x : ShardEnt) : State :=
  match (if x.remote then none else c.translate x.src x.srcLen true false) with
  | some k => s.touch k x.srcLen
  | none => s

def execShardComplete (ctx : Nat) (shard : ShardRef) (s : State) : Res :=
  match s.ctx? ctx with
  | none => .next s
  | some c => match c.opShard shard.cmd shard.shard .inFlight with
    | none => .next s
    | some (w, x) =>
      let s1 := s.touchShard c x
      match s1.shardData c w shard.shard x with
      | none => .next s
      | some (bs, ps) =>
        s.when s.running (if s1.shardUnitFailed (c.shardUnit w x) then s1.abortOp ctx shard.cmd
          else (s1.takeShard c w shard.shard x bs ps).settleOp ctx shard.cmd)

/-- The effective deadline of the oldest overdue command passes. -/
def execWeightDeadline (ctx : Nat) (s : State) : Res :=
  match (s.ctx? ctx).bind fun c => c.wgt.find? fun w =>
      !w.noRoom && w.barrier.isNone && w.deadline != 0 && w.deadline ≤ s.now && !(w.shardsIn ShardSt.open_).isEmpty with
  | some w => s.when s.running ((s.giveUp ctx w.cmd .shardMissing).settleOp ctx w.cmd)
  | none => .next s

/-! ### Overwriting layers (R200-R203) -/

/-- An invocation has ended on the stations of a layer. -/
def State.layerPassed (s : State) (w : WgtOp) (layer : Nat) (i : Inv) : Bool :=
  match s.imageOf i.ctx i.handle with
  | some im => w.layers.all fun l => l.layer != layer || l.handle != i.handle ||
      ((List.range l.count).all fun k => (((im.station? (l.first + k)).map fun st => st.rect.cores).getD []).all fun core =>
        !i.cores.contains core || s.coreEnded i core)
  | none => true

/-- An invocation is old: launched before B, or of a step that began before B (R199). -/
def Ctx.isOld (c : Ctx) (i : Inv) (b : Nat) : Bool :=
  match i.owner with
  | .decode _ | .prefill _ => ((c.serving.bind (·.cur)).map (·.old)).getD false
  | _ => i.phase == .running && i.launch < b

/-- Layer whose overwrite may start now. -/
def State.nextLayer (s : State) (c : Ctx) : Option (WgtOp × Nat) :=
  (c.wgt.find? fun w => w.kind == 3 && w.barrier.isSome && !w.overwriting).bind fun w =>
    (w.layerOrder[w.layersDone]?).bind fun layer =>
      let b := w.barrier.getD 0
      let old := s.fab.invs.filter fun i => i.ctx == c.id && c.isOld i b
      if b ≤ s.now && old.all fun i =>
          if i.phase == .running then s.layerPassed w layer i
          else !(w.layers.any fun l => l.layer == layer && l.handle == i.handle) then some (w, layer)
      else none

def execLayerOverwriteStart (ctx : Nat) (s : State) : Res :=
  match (s.ctx? ctx).bind s.nextLayer with
  | some (w, _) => s.when s.running (s.modOp ctx w.cmd fun w => { w with overwriting := true })
  | none => .next s

/-- One shard of a layer is copied; a mismatch poisons its destination. -/
def State.overwriteShard (s : State) (c : Ctx) (w : WgtOp) (x : ShardEnt) (r : ShardRec) : State :=
  match c.translate x.dst r.len false true with
  | none => s
  | some k =>
    let bs := s.readBytes r.base r.len
    if s.poisonedIn r.base r.len || sha384 bs != r.digest then
      (s.writeMarked k bs (List.range r.len)).modOp c.id w.cmd fun w => { w with poisoned := true }
    else s.writeBytes k bs

/-- The live records a finished replacement leaves: staged digests at the destinations, resting copies in the staging
ranges (log 46). -/
def Ctx.replacedRecs (c : Ctx) (w : WgtOp) : List ShardRec :=
  c.staged.map fun (r : ShardRec) =>
    let k := ((w.shards[r.index]?).bind fun x => c.translate x.dst r.len false true).getD 0
    { r with base := k, copy := some (r.base, r.len) }

/-- The last layer is done (R203). -/
def State.endReplace (s : State) (ctx cmd : Nat) : State :=
  match s.wgtOp? ctx cmd with
  | none => s
  | some w =>
    let s1 := s.modCtx ctx fun c => { c with
      weight := .loaded, shards := c.replacedRecs w, staged := [], stageDigest := none, loadDigest := some w.tableDigest,
      wgt := c.wgt.filter fun x => x.cmd != cmd }
    s1.finish cmd (if w.poisoned then .okPoisoned else .ok) (leBytes 4 w.shards.length ++ leBytes 4 0xFFFFFFFF)

/-- A memory path failed: the context is torn down and EMPTY (R203). -/
def State.replaceFault (s : State) (ctx cmd : Nat) : State :=
  let s1 := s.modCtx ctx fun c => { c with
    weight := .empty, shards := c.shards.map fun (x : ShardRec) => { x with valid := false }, staged := [], stageDigest := none,
    loadDigest := none, wgt := c.wgt.filter fun x => x.cmd != cmd }
  (s1.tearDown ctx .fault).finish cmd .hwFault

def execLayerOverwriteDone (ctx : Nat) (pathFault : Bool) (s : State) : Res :=
  match s.ctx? ctx with
  | none => .next s
  | some c => match c.wgt.find? fun w => w.kind == 3 && w.overwriting with
    | none => .next s
    | some w =>
      if !s.running then .next s
      else if pathFault then .next (s.replaceFault ctx w.cmd)
      else
        let layer := w.layerOrder.getD w.layersDone 0
        let of := c.staged.filter fun r => ((w.shards[r.index]?).map (·.layer)) == some layer
        let s0 := s.touchAll (of.map fun r => (r.base, r.len))
        let s1 := of.foldl (fun s r => match w.shards[r.index]? with
          | some x => s.overwriteShard c w x r
          | none => s) s0
        let s2 := s1.modOp ctx w.cmd fun w => { w with overwriting := false, layersDone := w.layersDone + 1 }
        .next (if w.layersDone + 1 < w.layerOrder.length then s2 else s2.endReplace ctx w.cmd)

end Sys2Proof.Machine
end

