-- ==== Sys2Proof/Machine/InvRows.lean ====
section
/-! DEFINITION. Launch, completion and deadline of invocations (04_stations_and_streams.md R81, R94; 09_serving.md R216, R217,
R224) and prefetch entries (07_memory_tiers.md R172, R175). -/

namespace Sys2Proof.Machine

/-! ### Launch -/

/-- The waiting invocations that launch at one tick with an invocation: those of its step, or itself (R224). -/
def State.launchGroup (s : State) (i : Inv) : List Inv :=
  match i.owner with
  | .decode _ | .prefill _ => s.fab.invs.filter fun j => j.ctx == i.ctx && j.phase == .waiting && match j.owner with
      | .decode _ | .prefill _ => true
      | _ => false
  | _ => [i]

/-- The step of a serving context is in flight from its launch tick. -/
def State.noteLaunch (s : State) (i : Inv) : State :=
  match i.owner with
  | .decode ctx | .prefill ctx => s.modServing ctx fun v => { v with cur := v.cur.map fun r => { r with launch := some s.now } }
  | _ => s

/-- An invocation whose configuration a wavefront displaces completes WRONG_STATE (05_fabric.md R127). -/
def execInvocationLaunch (inv : Nat) (s : State) : Res :=
  match s.inv? inv with
  | none => .next s
  | some i =>
    if !(s.running && i.phase == .waiting) then .next s
    else if s.displacedNow i.ctx i.handle then .next (s.endInv inv .wrongState false)
    else
      let g := s.launchGroup i
      if !(g.all s.launchable) then .next s
      else .next (g.foldl (fun s j => (s.launchRead j).noteLaunch j) s)

/-! ### Completion -/

/-- The core has ended the invocation and its output has left it. -/
def State.coreComplete (s : State) (i : Inv) (im : Image) (core : Nat) : Bool :=
  s.coreEnded i core && match s.core? core with
    | some x => x.inv != some i.id || (match im.station? x.station with
        | some st => s.coreDrained x st im
        | none => true)
    | none => true

/-- Every core has ended, queues have emptied, write-mode engines have finished, started prefetch entries have completed,
and every routing point has written its fields (R81, R175; 10_experts.md R252). -/
def State.invComplete (s : State) (i : Inv) : Bool :=
  match s.imageOf i.ctx i.handle with
  | some im => i.cores.all (s.coreComplete i im) && i.started.all (·.2) && i.points.all fun p => p.released && match im.routing? p.program with
      | some r => !r.exch || p.exch == 4
      | none => true
  | none => false

def execInvocationComplete (inv : Nat) (s : State) : Res :=
  match s.inv? inv with
  | some i => s.when (s.running && i.phase == .running && s.invComplete i) (s.endInv inv i.endStatus false)
  | none => .next s

/-- Its deadline passes: the invocation is stopped, the context goes on. -/
def execInvocationDeadline (inv : Nat) (s : State) : Res :=
  match s.inv? inv with
  | some i => s.when (s.running && i.deadline != 0 && i.deadline ≤ s.now) (s.endInv inv .deadline true)
  | none => .next s

/-! ### Prefetch entries -/

/-- A failed Mandoline ends the invocation HW_FAULT (13_safety_repair_wear.md R314); of a serving step it is a fault, which
tears the context down (09_serving.md R236). -/
def State.unitFault (s : State) (i : Inv) : State :=
  let s1 := s.endInv i.id .hwFault true
  match i.owner with
  | .decode ctx | .prefill ctx => s1.tearDown ctx .fault
  | _ => s1

def execPrefetchEntryStart (inv : Nat) (s : State) : Res :=
  match s.inv? inv with
  | none => .next s
  | some i => match i.nextPrefetch, s.imageOf i.ctx i.handle, s.ctx? i.ctx with
    | some (n, p), some im, some c =>
      if !(s.running && i.phase == .running && s.prefetchReady i im p) then .next s
      else match c.prefetchKeys p with
        | some (a, b) =>
          if s.unitFailed 3 (mandolineOf a b) then .next (s.unitFault i)
          else .next ((s.modInv inv fun i => { i with started := i.started ++ [(n, false)], nextEntry := n + 1 }).trace 11 i.ctx
            (leBytes 2 n ++ leBytes 1 0))
        | none => .next s
    | _, _, _ => .next s

/-- One on S7 of the invocation's cores of a station, up to the counter's largest value (R82). -/
def State.signalGate (s : State) (inv station : Nat) : State :=
  let upd := fun (x : Core) => if x.inv == some inv && x.station == station then x.signal 7 1 else x
  s.modFab fun f => { f with cores := f.cores.map upd }

/-- Signals in list order, up to the first entry that has not completed. -/
def State.signalEntries (s : State) (inv : Nat) : Nat → State
  | 0 => s
  | fuel + 1 =>
    match s.inv? inv with
    | none => s
    | some i => match i.plist[i.signalled]? with
      | none => s
      | some p =>
        let go := fun (s : State) => (s.modInv inv fun i => { i with signalled := i.signalled + 1 }).signalEntries inv fuel
        if !i.serves p then go s
        else if i.started.contains (i.signalled, true) then go (if p.gate = 0xFFFF then s else s.signalGate inv p.gate)
        else s

/-- The entry's data are written, poison carried along; a decode that fails leaves the destination as it is (log 52). -/
def State.prefetchMove (s : State) (c : Ctx) (p : Prefetch) : State :=
  match c.prefetchKeys p with
  | some (a, _) => match s.runDesc p.desc.toNat a p.len with
    | .ok o => match c.translate p.dst o.bytes.length false true with
      | some k => (s.writeMarked k o.bytes o.marks).countConv o
      | none => s
    | .error _ => s
  | none => s

/-- The entry is complete, and signals follow in list order. -/
def State.prefetchDone (s : State) (c : Ctx) (i : Inv) (entry : Nat) (p : Prefetch) : State :=
  let s1 := (s.prefetchMove c p).modInv i.id fun i =>
    { i with started := i.started.map fun x => if x == (entry, false) then (entry, true) else x }
  (s1.signalEntries i.id (i.plist.length + 1)).trace 11 i.ctx (leBytes 2 entry ++ leBytes 1 1)

/-- The source is read first: words found changed there may end the invocation. -/
def execPrefetchEntryComplete (inv entry : Nat) (s : State) : Res :=
  match s.inv? inv with
  | none => .next s
  | some i => match i.plist[entry]?, s.ctx? i.ctx with
    | some p, some c =>
      if !(s.running && i.phase == .running && i.started.contains (entry, false)) then .next s
      else match c.prefetchKeys p with
        | some (a, b) =>
          let s1 := s.touch a p.len
          if (s1.inv? inv).isNone then .next s1
          else if s1.unitFailed 3 (mandolineOf a b) then .next (s1.unitFault i)
          else .next (s1.prefetchDone c i entry p)
        | none => .next (s.prefetchDone c i entry p)
    | _, _ => .next s

/-! ### PREFETCH_LIST_SET (07_memory_tiers.md R174) -/

def checkPrefetchListSet (e : Env) (list : U64) (n : U32) (s : State) : Option Status :=
  firstFail (s.ptrChecks e list.toNat (64 * n.toNat))

/-- An entry of LENGTH 0 does nothing: it is checked, and takes no place in the list (log 28). -/
def startPrefetchListSet (e : Env) (list : U64) (n : U32) (clear : Bool) (id : Nat) (s0 : State) : State :=
  let k := s0.keyAt e list.toNat (64 * n.toNat) true false
  let s := s0.touch k (64 * n.toNat)
  match s.ctx? e.ctx.toNat with
  | none => s.finish id .badContext
  | some c =>
    let raw := (List.range n.toNat).map fun i => s.readBytes (k + 64 * i) 64
    let old := if clear then [] else c.prefetch
    match raw.findSome? (s.prefetchFail c) with
    | some st => s.finish id st
    | none =>
      let new := (raw.map Prefetch.of).filter fun p => p.len != 0
      if prefetchMax < old.length + new.length then s.finish id .noRoom
      else (s.setCtx { c with prefetch := old ++ new }).finish id .ok (leBytes 4 n.toNat)

def execPrefetchListSet (e : Env) (list : U64) (n : U32) (clear : Bool) (s : State) : Res :=
  command (.prefetchListSet e list n clear) e (checkPrefetchListSet e list n) (fun _ => n == 0)
    (startPrefetchListSet e list n clear) s

end Sys2Proof.Machine
end

