-- ==== Sys2Proof/Machine/Launch.lean ====
section
/-! DEFINITION. Fetch from the SQs (03_commands_and_events.md R41-R49), the tick and tick-launched commands (02_timer.md
R20, R31-R34), and the end of the data movement of a memory command (07_memory_tiers.md R170). -/

namespace Sys2Proof.Machine

def noCheck (_ : State) : Option Status := none

def noZero (_ : State) : Bool := false

/-- What an opcode's row does, in its three parts: its own checks of stages 4 and 5, its zero test (R54), its start. -/
def opParts (i : Instr) : Option ((State → Option Status) × (State → Bool) × (Nat → State → State)) :=
  match i with
  | .nop _ => some (noCheck, noZero, startNop)
  | .devQuery _ => some (noCheck, noZero, startDevQuery)
  | .qpCreate _ sqBase cqBase sqDepth cqDepth vector vecEn job =>
    some ((checkQpCreate sqBase cqBase sqDepth cqDepth job), noZero, (startQpCreate sqBase cqBase sqDepth cqDepth vector vecEn job))
  | .qpDestroy e qid => some ((checkQpDestroy e qid), noZero, (startQpDestroy e qid))
  | .journalRead _ dest first maxn =>
    some ((checkJournalRead dest maxn), (fun _ => maxn == 0), (startJournalRead dest first maxn))
  | .barrier e bid members => some ((checkBarrier members), (fun _ => members == 0), (startBarrier e bid members))
  | .cfgLoad e image len => some ((checkImage e image len), (fun _ => len == 0), (startCfgLoad e image len))
  | .cfgCheck e image len => some ((checkImage e image len), (fun _ => len == 0), (startCfgCheck e image len))
  | .cfgUnload e handle => some (noCheck, noZero, (startCfgUnload e handle))
  | .cfgActivate e handle => some (noCheck, noZero, (startCfgActivate e handle))
  | .invoke e handle args result deadline => some (noCheck, noZero, (startInvoke e handle args result deadline))
  | .invokeList e list n => some ((checkInvokeList e list n), (fun _ => n == 0), (startInvokeList e list n))
  | .preempt e force => some (noCheck, noZero, (startPreempt e force))
  | .selftest _ mask => some ((checkSelftest mask), noZero, (startSelftest mask))
  | .repairCommit _ write => some (noCheck, noZero, (startRepairCommit write))
  | .katCfg _ ms => some ((checkKatCfg ms), noZero, (startKatCfg ms))
  | .scrubCfg _ hbmS ddrS => some ((checkScrubCfg hbmS ddrS), noZero, (startScrubCfg hbmS ddrS))
  | .healthQuery e dst len => some ((checkHealthQuery e dst len), (fun _ => len == 0), (startHealthQuery e dst len))
  | .traceCfg _ buf size mask => some ((checkTraceCfg buf size mask), (fun _ => size == 0), (startTraceCfg buf size mask))
  | .dump e dst len kind core => some ((checkDump e dst len kind core), (fun _ => len == 0), (startDump e dst len kind core))
  | .fwLoad e image len => some ((checkFwLoad e image len), (fun _ => len == 0), (startFwLoad e image len))
  | .idQuery _ => some (noCheck, noZero, startIdQuery)
  | .attest e dst len nonce => some ((checkAttest e dst len), (fun _ => len == 0), (startAttest e dst nonce len))
  | .flashRecordRead e type dst maxLen =>
    some ((checkFlashRecordRead e type dst maxLen), (fun _ => maxLen == 0), (startFlashRecordRead e type dst maxLen))
  | .jobOpen e desc nrect dlen => some ((checkJobOpen e desc nrect dlen), noZero, (startJobOpen e desc nrect dlen))
  | .jobClose _ job force => some ((fun _ => checkJobClose job), noZero, (startJobClose job force))
  | .ctxCreate e job table nregion hostRouted pin =>
    some ((checkCtxCreate e job table nregion), noZero, (startCtxCreate e job table nregion hostRouted pin))
  | .ctxDestroy e force => some (noCheck, noZero, (startCtxDestroy e force))
  | .ctxPin e op => some ((checkCtxPin op), noZero, (startCtxPin e op))
  | .ctxEvict e space => some ((checkCtxEvict space), noZero, (startCtxEvict e space))
  | .ctxRestore e => some (noCheck, noZero, (startCtxRestore e))
  | .linkTrain _ mask => some ((checkLinkTrain mask), noZero, (startLinkTrain mask))
  | .linkExpectSet _ port farChip farPort digest =>
    some ((checkLinkExpectSet port farPort), noZero, (startLinkExpectSet port farChip farPort digest))
  | .linkQuery _ port => some ((checkLinkQuery port), noZero, (startLinkQuery port))
  | .routeLoad e table n slice => some ((checkRouteLoad e table n slice), (fun _ => n == 0), (startRouteLoad e table n slice))
  | .portOwnerSet _ port owner => some ((checkPortOwnerSet port), noZero, (startPortOwnerSet port owner))
  | .put e src dst len deadline => some ((checkPut e src dst len), (fun _ => len == 0), (startPut e src dst len deadline))
  | .get e src dst len deadline => some ((checkGet e src dst len), (fun _ => len == 0), (startGet e src dst len deadline))
  | .exchange e desc deadline group => some ((checkColl e desc), noZero, (startColl 0x0903 e desc deadline group))
  | .reduceScatter e desc deadline group => some ((checkColl e desc), noZero, (startColl 0x0904 e desc deadline group))
  | .allGather e desc deadline group => some ((checkColl e desc), noZero, (startColl 0x0905 e desc deadline group))
  | .mirrorSet e buddy enable => some ((checkMirrorSet buddy enable), noZero, (startMirrorSet e buddy enable))
  | .memConvert e src dst len desc =>
    some ((checkMemConvert e src dst len desc), (fun _ => len == 0), (startMemConvert e src dst len desc))
  | .prefetchListSet e list n clear =>
    some ((checkPrefetchListSet e list n), (fun _ => n == 0), (startPrefetchListSet e list n clear))
  | .memAlloc _ size space job alignLog2 =>
    some ((fun _ => checkMemAlloc size space job alignLog2), noZero, (startMemAlloc size space job alignLog2))
  | .memFree _ ga => some ((checkMemFree ga), noZero, startMemFree)
  | .memCopy e src dst len => some ((checkMemCopy e src dst len), (fun _ => len == 0), (startMemCopy e src dst len))
  | .memFill e dst len pattern => some ((checkMemFill e dst len), (fun _ => len == 0), (startMemFill e dst len pattern))
  | .pwrLimits _ sustain peak window lost timeout =>
    some ((fun _ => checkPwrLimits peak window lost timeout), noZero, (startPwrLimits sustain peak window lost timeout))
  | .phaseTableSet e table n => some ((checkPhaseTableSet e table n), (fun _ => n == 0), (startPhaseTableSet e table n))
  | .keepwarmSet _ floor ramp => some ((checkKeepwarmSet floor ramp), noZero, (startKeepwarmSet floor ramp))
  | .mgrHeartbeat _ seq => some (noCheck, noZero, (startMgrHeartbeat seq))
  | .pwrQuery _ => some (noCheck, noZero, startPwrQuery)
  | .srvStart e desc => some ((checkSrvStart e desc), noZero, (startSrvStart e desc))
  | .srvPolicy e chunk nMin nMax sMin sMax interval =>
    some ((checkSrvPolicy chunk nMin nMax sMin sMax), noZero, (startSrvPolicy e chunk nMin nMax sMin sMax interval))
  | .reqAdmit e desc deadline adapter hostStep =>
    some ((checkReqAdmit e desc deadline), noZero, (startReqAdmit e desc deadline adapter hostStep))
  | .reqCancel e req => some ((checkReqCancel e req), noZero, (startReqCancel e req))
  | .stepAnswer e req step answer len =>
    some ((checkStepAnswer e req answer len), (fun _ => len == 0), (startStepAnswer e req step answer len))
  | .srvStop e drain => some (noCheck, noZero, (startSrvStop e drain))
  | .tmrMasterSet _ role master init =>
    some ((fun _ => checkTmrMasterSet role init), noZero, (startTmrMasterSet role master init))
  | .tmrQuery _ => some (noCheck, noZero, startTmrQuery)
  | .tmrAlarm _ slot op first period => some ((checkTmrAlarm slot op first period), noZero, (startTmrAlarm slot op first period))
  | .wgtLoad e manifest mask deadline => some ((checkWgtLoad e manifest mask), noZero, (startWgtLoad e manifest mask deadline))
  | .wgtReplace e manifest keepKv deadline =>
    some ((checkManifest e manifest), noZero, (startWgtReplace e manifest keepKv deadline))
  | .adapterLoad e manifest adapter version deadline =>
    some ((checkAdapterLoad e manifest version), noZero, (startAdapterLoad e manifest adapter version deadline))
  | .adapterRetire e adapter version => some (noCheck, noZero, (startAdapterRetire e adapter version))
  | .wgtVerify e mask => some ((checkWgtVerify e mask), noZero, (startWgtVerify e mask))
  | _ => none

/-! ### SQ_FETCH (R41-R44) -/

/-- Queues from which a command may be fetched now. -/
def State.eligible (s : State) : List Nat :=
  (s.q.pairs.filter fun p => s.canFetch p.id && p.sqHead != p.sqTail).map (·.id)

/-- Round-robin: the lowest eligible queue above the last one served, else the lowest. -/
def State.nextQueue (s : State) : Option Nat :=
  let qs := s.eligible
  let above := qs.filter (s.q.rr < ·)
  (if above.isEmpty then qs else above).min?

/-- Fetch the entry at SQ_HEAD, whose bytes are checked as they are read: an entry that cannot be read puts the pair in error; an undefined opcode completes
BAD_OPCODE. -/
def State.fetchFrom (s : State) (p : QPair) : State :=
  let k := keyOf (p.sqBase.toNat + 64 * p.sqHead)
  let s := if p.sqOwn && s.rangeOk k 64 then s.touch k 64 else s
  let s0 := s.modQ fun q => { q with rr := p.id }
  if !p.sqOwn || !s.rangeOk k 64 || s.poisonedIn k 64 then s0.pairError p.id 2 0
  else
    let s1 := s0.modPair p.id fun p => { p with sqHead := (p.sqHead + 1) % p.sqDepth }
    match decodePacket p.id (s.readBytes k 64) with
    | (e, none) => s1.takeIn .sqFetch e (some .badOpcode)
    | (e, some i) =>
      let chk := match opParts i with
        | some (c, _, _) => c s
        | none => none
      s1.takeIn i e (s.fetchStatus (opcodeOf i) e chk)

def execSqFetch (s : State) : Res :=
  match s.nextQueue.bind s.pair? with
  | some p => .next (s.fetchFrom p)
  | none => .next s

/-! ### Launches and the tick (R20, R31-R34) -/

/-- Waiting commands whose launch tick has come, in the order of their fetch. -/
def State.dueRecs (s : State) : List CmdRec :=
  s.q.recs.filter fun r => r.phase == .waiting && r.env.launch.toNat ≤ s.now

/-- One waiting command launches, or is found late. -/
def State.launchRec (s : State) (id : Nat) : State :=
  match s.rec? id with
  | some r =>
    if r.phase == .waiting then
      match opParts r.cmd with
      | some (_, zero, start) => s.launch r (zero s) start
      | none => s
    else s
  | none => s

/-- The oldest due command of a queue. -/
def execTickLaunch (q : U16) (s : State) : Res :=
  match s.dueRecs.find? fun r => r.env.q == q with
  | some r => s.when s.working (s.launchRec r.id)
  | none => .next s

/-- A known-answer interval ends; the next one has the length that KAT_INTERVAL now gives (R312, R313). -/
def State.katTick (s : State) : State :=
  if s.running && s.health.katAt + 100000 * s.health.katCur ≤ s.elapsed then
    s.modHealth fun h => { h with rounds := h.rounds + 1, katAt := s.elapsed, katCur := h.katInterval }
  else s

/-- One tick of the count; what falls due at it happens. In Trivet only the count goes on. -/
def execTimerTick (s : State) : Res :=
  if !s.alive then .next s
  else if !s.working then .next (s.modTmr fun t => { t with count := (t.count + 1) % 2 ^ 64, elapsed := t.elapsed + 1 })
  else
    let s1 := s.tickCount
    let s2 := (s1.dueRecs.map (·.id)).foldl State.launchRec s1
    .next s2.lateBarriers.exchangeTick.identityTick.phaseTick.katTick

/-! ### COMMAND_TRANSFER_END (R170-R172, R177, R184, R206) -/

/-- What a transfer reads: the words there are checked (13_safety_repair_wear.md R316-R318). -/
def State.xferReads (s : State) (x : Xfer) : List (Nat × Nat) :=
  match x with
  | .copy src _ len | .convert src _ len _ => [(src, len)]
  | .fill _ _ _ => []
  | .evict ctx space => ((s.ctx? ctx).bind fun c => (c.evictRegion space).map fun r =>
      (s.evictPieces c space r.target).1.map fun p => (p.home, p.len)).getD []
  | .restore ctx => ((s.ctx? ctx).map fun c => c.toRestore.map fun p => (p.at_, p.stored)).getD []
  | .verify ctx ix => ((s.ctx? ctx).map fun c =>
      (c.shards.filter fun x => ix.contains x.index).map fun x => (x.base, x.len)).getD []

/-- The transfer of a command that still runs ends. -/
def State.endXfer (s : State) (r : CmdRec) (x : Xfer) : State :=
  match x with
  | .copy src dst len => s.endCopy r.id src dst len
  | .fill dst len pattern => s.endFill r.id dst len pattern
  | .convert src dst len desc => s.endConvert r src dst len desc
  | .evict ctx space => s.endEvict r.id ctx space
  | .restore ctx => s.endRestore r.id ctx
  | .verify ctx ix => s.endVerify r.id ctx ix

/-- A command in progress and its transfer. -/
def State.xferOf (s : State) (rec : Nat) : Option (CmdRec × Xfer) :=
  (s.rec? rec).bind fun r => if r.phase == .running then r.xfer.map fun x => (r, x) else none

/-- What is read is checked first, which may end the command. -/
def execCommandTransferEnd (rec : Nat) (s : State) : Res :=
  match s.xferOf rec with
  | some (_, x) =>
    let s1 := s.touchAll (s.xferReads x)
    s.when s.running (match s1.xferOf rec with
      | some (r, x) => s1.endXfer r x
      | none => s1)
  | none => .next s

end Sys2Proof.Machine
end

