-- ==== Sys2Proof/Machine/Side.lean ====
section
/-! DEFINITION. The sideband over I3C (14_boot_and_identity.md R351, Table 14.13): MCTP control, register reads, and what
is not supported. Codes of MCTP control messages are those of DSP0236 (log 54). -/

namespace Sys2Proof.Machine

/-- The endpoint answers: out of reset, Trivet included, from stage 3, once it has its dynamic address. -/
def State.sideOpen (s : State) : Bool := s.alive && 3 ≤ s.boot.stage && s.side.dynAddr.isSome

def execDynamicAddressAssignment (addr : BitVec 7) (s : State) : Res :=
  s.when (s.alive && 3 ≤ s.boot.stage) (s.modSide fun d => { d with dynAddr := some addr.toNat })

/-- An MCTP control response: message type 0x00, command, completion code, data. -/
def State.mctpControl (s : State) (command completion : Nat) (data : List Byte) : State :=
  s.send (.mctp (leBytes 1 0 ++ leBytes 1 command ++ leBytes 1 completion ++ data))

def execSetEndpointId (eid : Byte) (s : State) : Res :=
  s.when s.sideOpen ((s.modSide fun d => { d with eid := eid.toNat }).mctpControl 0x01 0 [0, eid, 0])

def execGetEndpointId (s : State) : Res :=
  s.when s.sideOpen (s.mctpControl 0x02 0 (leBytes 1 s.side.eid ++ [0, 0]))

def execGetMctpVersionSupport (s : State) : Res :=
  s.when s.sideOpen (s.mctpControl 0x04 0 [1, 0x00, 0xF1, 0xF3, 0xF1])

/-- The message types of R351. -/
def execGetMessageTypeSupport (s : State) : Res :=
  s.when s.sideOpen (s.mctpControl 0x05 0 [3, 0x00, 0x05, 0x7E])

/-- A vendor-defined response after its message type: vendor ID, command, completion, sixteen bytes (Table 14.13). -/
def State.vendorReply (s : State) (command completion : Nat) (a b : Nat) : State :=
  s.send (.mctp (leBytes 1 0x7E ++ leBytes 2 Config.pciVendorId.toNat ++ leBytes 1 command ++ leBytes 1 completion ++
    leBytes 8 a ++ leBytes 8 b))

/-- A register the sideband reads: blocks ID, Timer, Power, Thermal, Health and Links. -/
def State.sideReadable (s : State) (off : Nat) : Bool := s.hasReg off && !(evcBase ≤ off && off < timerBase)

/-- RC fields are read without clearing. -/
def execSidebandReadRegister (off : U32) (s : State) : Res :=
  s.when s.sideOpen
    (if s.sideReadable off.toNat then s.vendorReply 0x01 0 (s.regValue off.toNat) 0 else s.vendorReply 0x01 1 0 0)

def execSidebandReadBootStatus (s : State) : Res :=
  s.when s.sideOpen (s.vendorReply 0x02 0 s.boot.stageReg s.boot.errorReg)

/-- A request outside R350 and R351. Messages of another type are discarded. -/
def execUnsupportedRequest (r : BadRequest) (s : State) : Res :=
  match r with
  | .spdm via _ => s.spdmAnswer via fun s => s.send (.spdm via "ERROR" spdmUnsupported [])
  | .mctpControl c => s.when (s.sideOpen && !([0x01, 0x02, 0x04, 0x05].contains c.toNat)) (s.mctpControl c.toNat 0x05 [])
  | .vendor c => s.when (s.sideOpen && !([0x01, 0x02].contains c.toNat)) (s.vendorReply c.toNat 2 0 0)
  | .otherType _ => .next s

end Sys2Proof.Machine
end

