-- ==== Sys2Proof/Machine/Registers.lean ====
section
/-! DEFINITION. Host register accesses (15_registers.md R352-R354, R360, R363, R364): writes to any register, and reads
that clear. -/

namespace Sys2Proof.Machine

/-- A write of a size R353 refuses: dropped, with an event. -/
def State.strayWrite (s : State) (bar off : Nat) : State :=
  s.event srcSafety 0x0003 (leBytes 1 bar ++ zeros 3 ++ leBytes 4 off)

/-- The next state an operation gives; these never stop. -/
def State.take (s : State) (f : State → Res) : State :=
  match f s with
  | .next t => t
  | _ => s

/-- An 8-byte write to a Power register (Table 12.4): held values are clamped. -/
def State.writePower (s : State) (off v : Nat) : State :=
  match off - powerBase with
  | 0x000 => s.writeCap .peak v
  | 0x008 => s.modPwr fun p => { p with window := clampTo 100 1000 (v % 65536) }
  | 0x010 => s.writeCap .sustain v
  | 0x018 => s.modPwr fun p => { p with floor := clampTo 0 4000 (v % 65536) }
  | 0x020 => s.modPwr fun p => { p with ramp := clampTo 0 100000 (v % 2 ^ 32) }
  | 0x038 => (s.modPwr fun p => { p with timeout := heldTimeout (v % 2 ^ 32) }).watchOff
  | 0x040 => s.writeCap .lostMgr v
  | o =>
    if 0x100 ≤ o then
      let e := v % 512
      -- OP_FLOOR below OP_PREF is held as OP_PREF (R292)
      let held := e % 16 + max (e % 16) (e / 16 % 16) * 16 + e / 256 * 256
      s.modPwr fun p => { p with phases := p.phases.set ((o - 0x100) / 8) (BitVec.ofNat 64 held) }
    else s

/-- A write to a Health register, clamped (R332). -/
def State.writeHealth (s : State) (off v : Nat) : State :=
  match off - healthBase with
  | 0x008 => s.modHealth fun h => { h with katInterval := clampTo 10 1000 (v % 65536) }
  | 0x010 => s.modHealth fun h => { h with ddrS := clampTo 30 300 (bits v 31 16), hbmS := clampTo 10 60 (v % 65536) }
  | _ => s

/-- A write to a Links register: RETRAIN of LINK_STATUS (Table 11.3). -/
def State.writeLinks (s : State) (off v : Nat) : State :=
  if off < linksBlock + 0x60 && bit v 63 then s.retrain ((off - linksBlock) / 8) else s

/-- A write to an event controller register. -/
def State.writeEvc (s : State) (off : Nat) (v : U64) : State :=
  let o := off - evcBase
  if o = 0x000 || o = 0x008 then s.take (execEvcPendWrite (BitVec.ofNat 1 (o / 8)) v)
  else if o = 0x010 || o = 0x018 then s.take (execEvcMaskWrite (BitVec.ofNat 1 ((o - 0x010) / 8)) v)
  else if 0x100 ≤ o && o < 0x180 then s.take (execEvcRouteWrite (BitVec.ofNat 4 ((o - 0x100) / 8)) v)
  else if o = 0x200 then s.modEvc fun e => { e with ringBase := v &&& 0xFFFFFFFFFFFFF000, ringOwn := s.ownGa v.toNat }
  else if o = 0x208 then s.take (execEvcRingSizeWrite v)
  else s

/-- A write to a Queues register: only those of pair 0 take one, and its bases only while ENABLE is clear (R39). -/
def State.writeQueues (s : State) (off : Nat) (v : U64) : State :=
  let open_ := ((s.pair? 0).map fun p => !p.enable).getD false
  match off - queuesBase with
  | 0x00 => if open_ then s.modPair 0 fun p => { p with sqBase := v &&& 0xFFFFFFFFFFFFF000, sqOwn := s.ownGa v.toNat } else s
  | 0x08 => if open_ then s.modPair 0 fun p => { p with cqBase := v &&& 0xFFFFFFFFFFFFF000, cqOwn := s.ownGa v.toNat } else s
  | 0x10 => if v.getLsbD 63 then s.take (execQp0Enable v) else s.take (execQp0Disable v)
  | _ => s

/-- An aligned 8-byte write to BAR0. Writes to the Power, Thermal, Health and Links blocks are journaled, and dropped
before stage 9 (R354); writes to offsets that name no register are ignored. -/
def State.writeBar0 (s : State) (off : Nat) (v : U64) : State :=
  let n := v.toNat
  if queuesBase ≤ off && off < evcBase then s.writeQueues off v
  else if inComponent off then s.writeComponent off v
  else if !s.hasReg off then s
  else if off < queuesBase then s
  else if off < timerBase then s.writeEvc off v
  else if off < powerBase then
    if off = timerBase + 0x020 then s.take (execTmrHoldoverLimitWrite v) else s
  else if off < thermalBase then s.hostWrite off n fun s => s.writePower off n
  else if off < healthBase then
    s.hostWrite off n fun s => if off = thermalBase + 0x020 then s.writeCoolant n else s
  else if off < linksBlock then s.hostWrite off n fun s => s.writeHealth off n
  else s.hostWrite off n fun s => s.writeLinks off n

/-- An aligned write of 4 or 8 bytes to BAR2: a doorbell (R363) or the MSI-X table (R364). -/
def State.writeBar2 (s : State) (off size : Nat) (v : U64) : State :=
  let w := if size = 4 then v &&& 0xFFFFFFFF else v
  if off < 0x4000 then (if off % 8 = 0 then s.take (execSqTailDoorbell (BitVec.ofNat 16 (off / 8)) w) else s)
  else if 0x10000 ≤ off && off < 0x14000 then
    (if off % 8 = 0 then s.take (execCqHeadDoorbell (BitVec.ofNat 16 ((off - 0x10000) / 8)) w) else s)
  else if 0x20000 ≤ off && off < 0x20000 + 16 * cxlFunction.msixVectors then
    let o := off - 0x20000
    let a : MsixAccess := if size = 4 then .dword (BitVec.ofNat 6 (o / 16)) (BitVec.ofNat 2 (o / 4 % 4)) (w.setWidth 32)
      else .qword (BitVec.ofNat 6 (o / 16)) (o / 8 % 2 == 1) w
    s.take (execMsixVectorUnmask a)
  else s

/-- Offsets of the doorbell banks that name no queue pair: writes there, of any size, are ignored (R363). -/
def noDoorbell (off : Nat) : Bool := (0x4000 ≤ off && off < 0x10000) || (0x14000 ≤ off && off < 0x20000)

/-- Sizes a doorbell and the MSI-X table and pending-bit array accept. -/
def bar2Sized (off size : Nat) : Bool :=
  size == 8 || (size == 4 && (off < 0x20400 || (0x21000 ≤ off && off < 0x21008)))

/-- A host write of a size to a BAR; one beyond its end does not reach the module (Table 15.1). Unaligned accesses complete with Unsupported Request; in Trivet every write is dropped. -/
def execRegisterWrite (bar : Byte) (off : U32) (size : Byte) (value : U64) (s : State) : Res :=
  let o := off.toNat
  let n := size.toNat
  if !s.alive then .next s
  else if n = 0 || o % n != 0 then .next (s.send .unsupportedRequest)
  else if !s.working || !cxlFunction.reaches bar.toNat o n then .next s
  else match bar.toNat with
    | 0 => .next (if n = 8 then s.writeBar0 o value else s.strayWrite 0 o)
    | 2 => .next (if noDoorbell o then s else if bar2Sized o n then s.writeBar2 o n value else s.strayWrite 2 o)
    | _ => .next s

/-- RC fields of a register go to zero: FAULT_SUMMARY and LINK_STATUS (Tables 13.4, 11.3). -/
def State.clearRc (s : State) (off : Nat) : State :=
  if off = healthBase then s.modHealth fun h => { h with corrected := 0, seen := 0 }
  else if linksBlock ≤ off && off < linksBlock + 0x60 then
    s.modPort ((off - linksBlock) / 8) fun x => { x with replays := 0 }
  else s

/-- A read of BAR2 at a multiple of its size: doorbells read zero, the MSI-X table its entries, the pending-bit array its one
word (R363, R364). -/
def State.readBar2 (s : State) (off size : Nat) : Nat :=
  let word :=
    if 0x20000 ≤ off && off < 0x20400 then
      let e := s.cxl.entries.getD ((off - 0x20000) / 16) ⟨0, 0, 1⟩
      let dw := (off - 0x20000) / 8 % 2 * 2
      (e.dword dw).toNat + (e.dword (dw + 1)).toNat * 2 ^ 32
    else if 0x21000 ≤ off && off < 0x21008 then s.cxl.pba.toNat
    else 0
  if size = 4 then word / 2 ^ (off % 8 * 8) % 2 ^ 32 else word

/-- An aligned host read of a BAR. Of 8 bytes it returns the register and clears its RC fields in one action; of 4 bytes it
returns the addressed half and clears nothing. Other reads complete with Unsupported Request (R352, R353; log 66). -/
def execRegisterReadClear (at_ : BarRead) (s : State) : Res :=
  let o := at_.off.toNat
  let n := at_.size.toNat
  if !s.alive then .next s
  else if !(n = 4 || n = 8) || o % n != 0 then .next (s.send .unsupportedRequest)
  else if !cxlFunction.reaches at_.bar.toNat o n then .next s
  else match at_.bar.toNat with
    | 0 =>
      let v := s.regValue (o - o % 8)
      if n = 8 then .next ((s.send (.reg (BitVec.ofNat 64 v))).clearRc o)
      else .next (s.send (.reg (BitVec.ofNat 64 (v / 2 ^ (o % 8 * 8) % 2 ^ 32))))
    | 2 => .next (s.send (.reg (BitVec.ofNat 64 (s.readBar2 o n))))
    | _ => .next (s.send (.reg 0))

end Sys2Proof.Machine
end

