-- ==== Sys2Proof/Machine/Streams.lean ====
section
/-! DEFINITION. The stream engines (04_stations_and_streams.md R82-R88, R377; 10_experts.md R251). -/

namespace Sys2Proof.Machine

/-! ### An engine and its instruction -/

def State.modEngine (s : State) (core eng : Nat) (f : Engine → Engine) : State :=
  s.modCore core fun x => { x with engines := x.engines.modify eng f }

/-- An engine of a core inside a running invocation that has not ended its program. -/
def State.engineOf (s : State) (core eng : Nat) : Option (Site × Engine) :=
  (s.site core).bind fun t => (t.x.engines[eng]?).bind fun e => if e.ended then none else some (t, e)

/-- The engine's current instruction when it has this opcode. -/
def State.instrOf (s : State) (core eng op : Nat) : Option (Site × Engine × Nat) :=
  (s.engineOf core eng).bind fun p =>
    if p.2.run.isSome then none
    else ((p.1.im.streamProg? p.2.prog).bind fun ws => ws[p.2.ip]?).bind fun w =>
      if siOp w.toNat = op then some (p.1, p.2, w.toNat) else none

/-- An instruction that changes the engine's settings and goes on to the next. -/
def State.setting (s : State) (core eng op : Nat) (f : Engine → Nat → Engine) : Res :=
  match s.instrOf core eng op with
  | some (_, e, w) => .next (s.modEngine core eng fun _ => { f e w with ip := e.ip + 1 })
  | none => .next s

def Engine.word (e : Engine) (p : Nat) : Nat := (e.pool.getD p 0).toNat

def execLdb (core engine : Nat) (s : State) : Res :=
  s.setting core engine 1 fun e w =>
    let v := e.word (siPool w)
    match siLvl w with
    | 0 => { e with base := v }
    | 1 => { e with dbase := v }
    | 2 => { e with dlen := v }
    | 3 => { e with runB := v }
    | _ => { e with pitch := v }

def execStreamLoop (core engine : Nat) (s : State) : Res :=
  s.setting core engine 2 fun e w => { e with counts := e.counts.set (siLvl w) (bits w 23 0 + 1) }

def execStride (core engine : Nat) (s : State) : Res :=
  s.setting core engine 3 fun e w => { e with strides := e.strides.set (siLvl w) (signed 64 (e.word (siPool w))) }

def execShape (core engine : Nat) (s : State) : Res :=
  s.setting core engine 4 fun e w =>
    let v := e.word (siPool w)
    { e with rowLvl := siLvl w, colLvl := bits w 24 22, rows := v % 2 ^ 32, cols := v / 2 ^ 32, shapePool := siPool w }

def execFmt (core engine : Nat) (s : State) : Res :=
  s.setting core engine 5 fun e w =>
    { e with fmt := bits w 27 24, scheme := bits w 23 22, pad := bits w 21 20, transposed := bit w 19, rowMajor := bit w 18 }

def execGather (core engine : Nat) (s : State) : Res :=
  s.setting core engine 6 fun e w =>
    { e with gathers := (e.gathers.filter fun g => g.level != siLvl w) ++
        [⟨siLvl w, bits w 24 23, bit w 22, e.word (siPool w)⟩] }

/-- WAIT: the counter is at least the amount, which is subtracted. -/
def execWait (core engine : Nat) (s : State) : Res :=
  match s.instrOf core engine 7 with
  | some (t, e, w) =>
    let c := siLvl w
    let n := bits w 15 0
    if n ≤ t.x.syncs.getD c 0 then
      .next ((s.modCore core fun x => { x with syncs := x.syncs.modify c (· - n) }).modEngine core engine fun _ =>
        { e with ip := e.ip + 1 })
    else .next s
  | none => .next s

def execSignal (core engine : Nat) (s : State) : Res :=
  match s.instrOf core engine 8 with
  | some (_, e, w) =>
    .next ((s.modCore core fun x => x.signal (siLvl w) (bits w 15 0)).modEngine core engine fun _ => { e with ip := e.ip + 1 })
  | none => .next s

def execStreamJump (core engine : Nat) (s : State) : Res :=
  match s.instrOf core engine 10 with
  | some (_, e, w) => .next (s.modEngine core engine fun _ => { e with ip := bits w 5 0 })
  | none => .next s

def execEndp (core engine : Nat) (s : State) : Res :=
  match s.instrOf core engine 11 with
  | some (_, e, _) => .next (s.modEngine core engine fun _ => { e with ended := true })
  | none => .next s

/-! ### RUN (R83, R88) -/

/-- Values of RUN and DLEN that R88 takes. -/
def Engine.blocksOk (e : Engine) : Bool := e.runB != 0 && e.runB % 64 == 0 && e.dlen % e.runB == 0

def execRun (core engine : Nat) (s : State) : Res :=
  match s.instrOf core engine 9 with
  | some (t, e, w) =>
    if siMode w = 2 && !e.blocksOk then .next (s.faultCore t.x .fault)
    else
      let r : RunSt := { mode := siMode w, queue := siQueue w, syncLvl := bits w 23 21, waitCtr := bits w 20 18,
                         sigCtr := bits w 17 15, waitEn := bit w 14, sigEn := bit w 13, eos := bit w 12 && siMode w == 0,
                         idx := List.replicate 6 0, n := 0, waited := false, vals := List.replicate 6 none }
      .next (s.modEngine core engine fun _ => { e with run := some r })
  | none => .next s

def State.setRun (s : State) (core eng : Nat) (r : Option RunSt) : State := s.modEngine core eng fun e => { e with run := r }

/-- The RUN is over. -/
def State.endRun (s : State) (core eng : Nat) : State := s.modEngine core eng fun e => { e with run := none, ip := e.ip + 1 }

/-- Index of a level in force: the gathered value, or the loop index. -/
def RunSt.ix (r : RunSt) (l : Nat) : Int := match r.vals.getD l none with
  | some v => v
  | none => r.idx.getD l 0

/-- Origin of the present tile or block (R83). -/
def Engine.origin (e : Engine) (r : RunSt) : Nat :=
  unsigned 64 ((List.range 6).foldl (fun a l => a + r.ix l * e.strides.getD l 0) (e.base : Int))

/-- The next iteration: the level that advances (none: the nest has ended) and the indices. -/
def nextIdx (counts idx : List Nat) : Option (Nat × List Nat) :=
  match ((List.range 6).reverse.find? fun l => idx.getD l 0 + 1 < counts.getD l 1) with
  | some l => some (l, (List.range 6).map fun k => if k < l then idx.getD k 0 else if k = l then idx.getD k 0 + 1 else 0)
  | none => none

/-- Advance the nest, with the signal of the sync level; at its end EOS is still to be sent when it is set. -/
def State.advance (s : State) (core eng : Nat) (e : Engine) (r : RunSt) : State :=
  let next := nextIdx e.counts r.idx
  let done := match next with
    | some (l, _) => l ≤ r.syncLvl
    | none => true
  let s1 := if r.sigEn && done then s.modCore core fun x => x.signal r.sigCtr 1 else s
  match next with
  | some (l, ix) =>
    s1.setRun core eng (some { r with
      idx := ix, n := r.n + 1, waited := r.waited && !done
      vals := (List.range 6).map fun k => if l ≤ k then none else r.vals.getD k none })
  | none => if r.eos then s1.setRun core eng (some { r with idx := [] }) else s1.endRun core eng

/-! ### Gathered values (R87) -/

inductive Taken where
  | wait
  | over
  | value (v : Int)
  deriving DecidableEq, Repr

/-- The next value of an index stream; empty index tiles are passed. POISON of an index tile changes neither its values nor
the tiles read at them (log 128, DESIGN CHOICE). -/
def State.takeIndex (core q : Nat) : Nat → State → Taken × State
  | 0, s => (.wait, s)
  | fuel + 1, s =>
    match s.core? core with
    | none => (.wait, s)
    | some x => match (x.iqs.getD q []).head? with
      | none => (.wait, s)
      | some h =>
        if h.hdr.kind = 2 then (.wait, s)
        else if h.hdr.kind = 1 then (.over, s.popIq core q)
        else
          let p := x.ipos.getD q 0
          let n := h.hdr.aux
          let popped := (s.popIq core q).modCore core fun x => { x with ipos := x.ipos.set q 0 }
          if n ≤ p then State.takeIndex core q fuel popped
          else
            let w := max 1 h.hdr.vcols
            let v := signed 32 (h.enc (p / w) (p % w))
            (.value v, if p + 1 < n then s.modCore core fun x => { x with ipos := x.ipos.set q (p + 1) } else popped)

/-- The next value of a gather of an engine. One that reads a ticket register waits for a value drawn after the one it took
before, whatever other gathers of that register have taken (R87; the mark stays from RUN to RUN, log 134). -/
def State.takeValue (s : State) (core eng : Nat) (g : Gather) : Taken × State :=
  let n := 6 * eng + g.level
  if g.fromTicket then
    match s.core? core with
    | some x =>
      let d := x.drawn.getD g.src (0, [])
      if d.2.getD n 0 < d.1 then
        (.value (x.tickets.getD g.src 0), s.modCore core fun x => { x with drawn := x.drawn.set g.src (d.1, d.2.set n d.1) })
      else (.wait, s)
    | none => (.wait, s)
  else State.takeIndex core g.src 9 s

/-- A gathered value outside its bound. -/
def Gather.outside (g : Gather) (v : Int) : Bool := v < 0 || (g.bound : Int) ≤ v

/-- A value taken outside its bound is counted, once. -/
def State.countOutside (s : State) (core : Nat) (g : Gather) (v : Int) : State :=
  match s.core? core with
  | some x => if g.outside v then s.countCore x { StCnt.zero with gatherOob := 1 } else s
  | none => s

/-- Values of every gathered level that has none yet, outermost first. -/
def State.takeAll (core eng : Nat) : List Gather → RunSt → State → Taken × RunSt × State
  | [], r, s => (.value 0, r, s)
  | g :: gs, r, s =>
    if (r.vals.getD g.level none).isSome then State.takeAll core eng gs r s
    else match s.takeValue core eng g with
      | (.value v, s1) => State.takeAll core eng gs { r with vals := r.vals.set g.level (some v) } (s1.countOutside core g v)
      | (.wait, s1) => (.wait, r, s1)
      | (.over, s1) => (.over, r, s1)

/-- A gathered value in force lies outside its bound. -/
def Engine.outOfBound (e : Engine) (r : RunSt) : Bool :=
  e.gathers.any fun g => match r.vals.getD g.level none with
    | some v => g.outside v
    | none => false

/-! ### What an iteration touches -/

/-- Key of a range an engine accesses, or none where the context faults (R68, R83, R105). -/
def State.access (s : State) (t : Site) (eng : Nat) (e : Engine) (a len : Nat) (write : Bool) : Option Nat :=
  let two := match t.im.streamProg? e.prog with
    | some ws => hasMode2 ws
    | none => false
  match t.c.engineKey t.x.idx a len (!write) write with
  | none => none
  | some k =>
    if spaceOf k = 2 then
      (if k / sramBytes == sramKey t.x.idx / sramBytes && (k + len - 1) / sramBytes == k / sramBytes then some k else none)
    else if s.grid.behind (t.im.endpoint t.x.station t.x.idx eng (if write && two then 1 else 0)) t.x.idx k len then some k
    else none

/-- Valid rows or columns at a level's index (R84); 0 where there is none. -/
def validAt (n : Nat) (t : Int) : Nat := if t < 0 then 32 else (min 32 ((n : Int) - 32 * t)).toNat

/-- Tile row and column indices. -/
def Engine.tileAt (e : Engine) (r : RunSt) : Int × Int :=
  (if e.rowLvl = 7 then 0 else r.ix e.rowLvl, if e.colLvl = 7 then 0 else r.ix e.colLvl)

/-- One run of consecutive elements: first element (i, j), along columns or rows, count, address of its first byte and
bit offset within it. -/
structure Strip where
  (i j n addr bit : Nat)
  down : Bool
  deriving DecidableEq, Repr

/-- The strips of a region of a tile, in the engine's layout. -/
def Engine.strips (e : Engine) (origin vr vc : Nat) : List Strip :=
  let w := fmtWidth e.fmt
  if e.rowMajor then
    (List.range vr).map fun i => ⟨i, 0, vc, (origin + i * e.pitch) % 2 ^ 64, 0, false⟩
  else if e.transposed then
    (List.range vc).map fun j => ⟨0, j, vr, (origin + 32 * j * w / 8) % 2 ^ 64, 32 * j * w % 8, true⟩
  else
    (List.range vr).map fun i => ⟨i, 0, vc, (origin + 32 * i * w / 8) % 2 ^ 64, 32 * i * w % 8, false⟩

def Strip.bytes (p : Strip) (w : Nat) : Nat := ceilDiv (p.bit + p.n * w) 8

/-- Positions of a strip's elements. -/
def Strip.pos (p : Strip) (k : Nat) : Nat × Nat := if p.down then (p.i + k, p.j) else (p.i, p.j + k)

/-- Scales of the blocks that hold an element of the region: block index in storage order and address (R377). -/
def Engine.scaleAddrs (e : Engine) (origin vr vc : Nat) (tr tc : Int) : List (Nat × Nat) :=
  let bs := blockSize e.scheme
  if bs = 0 then [] else
  let blocks := ((List.range 1024).filter fun ix =>
    let (i, j) := if e.transposed then (ix % 32, ix / 32) else (ix / 32, ix % 32)
    i < vr && j < vc).map fun ix => ix / bs
  blocks.eraseDups.map fun b =>
    if e.rowMajor then
      let (i, j) := (b * bs / 32, b * bs % 32)
      let pitch : Nat := e.word (e.shapePool + 1) / 2 ^ 32
      (b, unsigned 64 ((e.word (e.shapePool + 2) : Int) + (32 * tr + (i : Int)) * (pitch : Int) + (32 * tc + (j : Int)) / (bs : Int)))
    else (b, (origin + payloadBytes e.fmt + b) % 2 ^ 64)

/-- Pad encoding (R85). -/
def padEnc (f scheme pad : Nat) : Nat :=
  match pad with
  | 0 => 0
  | 1 => if f = 0xB || f = 0xC then 0 else (convElem f (.inf true)).enc
  | 2 => (convElem f (.inf false)).enc
  | _ => (convElem f (.fin false 1 0) 1 0 (if f = 8 && scheme = 1 then 6 else 0)).enc

/-- Encoding of the scale 1.0. -/
def oneScale (scheme : Nat) : Nat := if scheme = 2 then 0x38 else 0x7F

/-! ### Mode 0: memory to input queue -/

/-- An input queue that a GATHER of the station names as its index stream. -/
def Site.indexQueue (t : Site) (q : Nat) : Bool :=
  t.st.streamProg.any fun p => match t.im.streamProg? p with
    | some ws => ws.any fun w => siOp w.toNat == 6 && !bit w.toNat 22 && bits w.toNat 24 23 == q
    | none => false

/-- Put an engine's tile into an input queue; a core that has executed END discards it (R81). -/
def State.feedIq (s : State) (t : Site) (q : Nat) (tile : Tile) : State :=
  if t.x.ended then s.countCore t.x { StCnt.zero with lateDiscards := 1 }
  else s.modCore t.x.idx fun x => { x with iqs := x.iqs.modify q (· ++ [tile]) }

/-- An input queue has room for an engine's tile. -/
def Site.feedRoom (t : Site) (q : Nat) : Bool := t.x.ended || (t.x.iqs.getD q []).length < qCap (t.st.iq q)

/-- The tile of an iteration from the elements and scales read. -/
def Engine.tile (e : Engine) (t : Site) (q vr vc : Nat) (tr tc : Int) (seq : Nat) (poison : Bool)
    (elem : Nat → Nat → Option Nat) (scale : Nat → Option Nat) : Tile :=
  let pad := padEnc e.fmt e.scheme e.pad
  let index := e.fmt == 0xA && e.rowMajor && e.pitch == 4 && e.cols == 1 && t.indexQueue q
  let cs := if e.scheme = 2 || e.scheme = 3 then e.word (e.shapePool + 1) % 2 ^ 32 else 0
  (⟨⟨if index then 4 else 0, e.fmt, e.scheme, poison, false, e.transposed, vr, vc, t.x.epoch, 0, seq, unsigned 16 tr,
      unsigned 16 tc, cs, if index then vr else 0, t.c.id, 0⟩,
    (List.range 1024).map fun ix =>
      let (i, j) := if e.transposed then (ix % 32, ix / 32) else (ix / 32, ix % 32)
      (elem i j).getD pad,
    (List.range (scaleCount e.scheme)).map fun b => (scale b).getD (oneScale e.scheme)⟩ : Tile).sealed

/-- Keys of a list of ranges; none if one of them faults. -/
def State.accessAll (s : State) (t : Site) (eng : Nat) (e : Engine) (write : Bool) (rs : List (Nat × Nat)) : Option (List Nat) :=
  let ks := rs.map fun r => s.access t eng e r.1 r.2 write
  if ks.all (·.isSome) then some (ks.filterMap id) else none

/-- Read the tile of an iteration: the elements inside the region, and the scales of their blocks. -/
def State.readTile (s : State) (t : Site) (eng : Nat) (e : Engine) (r : RunSt) (q vr vc seq : Nat) : Option Tile :=
  let (tr, tc) := e.tileAt r
  let w := fmtWidth e.fmt
  let o := e.origin r
  let strips := e.strips o vr vc
  let scales := e.scaleAddrs o vr vc tr tc
  match s.accessAll t eng e false (strips.map fun p => (p.addr, p.bytes w)),
      s.accessAll t eng e false (scales.map fun x => (x.2, 1)) with
  | some ks, some sk =>
    let rows := (strips.zip ks).map fun p => (p.1, leNat (s.readBytes p.2 (p.1.bytes w)))
    let elem := fun (i j : Nat) =>
      (rows.find? fun x => if x.1.down then x.1.j == j && i < x.1.n else x.1.i == i && j < x.1.n).map fun x =>
        x.2 / 2 ^ (x.1.bit + w * (if x.1.down then i else j)) % 2 ^ w
    let scale := fun (b : Nat) => ((scales.zip sk).find? fun x => x.1.1 == b).map fun x => (s.readByte x.2).toNat
    let bad := ((strips.zip ks).any fun p => s.poisonedIn p.2 (p.1.bytes w)) || sk.any fun k => s.poisonedIn k 1
    some (e.tile t q vr vc tr tc seq bad elem scale)
  | _, _ => none

/-- An iteration of mode 0. A gathered value outside its bound makes a tile of pad values also where VROWS or VCOLS is 0 or
less, for which R84 would make none (log 91, DESIGN CHOICE). -/
def State.iterRead (s : State) (t : Site) (eng : Nat) (e : Engine) (r : RunSt) : State :=
  let core := t.x.idx
  let (tr, tc) := e.tileAt r
  let vr := validAt e.rows tr
  let vc := validAt e.cols tc
  let q := r.queue
  let seq := t.x.fed.getD q 0
  let oob := e.outOfBound r
  if !oob && (vr = 0 || vc = 0) then s.advance core eng e r
  else if !t.feedRoom q then s.setRun core eng (some r)
  else
    let s0 := s.modCore core fun x => { x with fed := bump x.fed q }
    if oob then
      let pad := e.tile t q vr vc tr tc seq true (fun _ _ => none) fun _ => none
      (s0.feedIq t q pad).advance core eng e r
    else match s.readTile t eng e r q vr vc seq with
      | some tile => (s0.feedIq t q tile).advance core eng e r
      | none => s.faultCore t.x .fault

/-! ### Mode 1: output queue to memory (R86) -/

/-- Write consecutive elements at a bit offset, leaving the neighbouring bits. A byte that they cover in part is a write of
its own, which covers no ECC word and so leaves its poison (R171); host memory keeps no poison. -/
def State.writeStrip (s : State) (k bit w : Nat) (es : List Nat) (poison : Bool) : State :=
  let n := ceilDiv (bit + es.length * w) 8
  let old := leNat (s.readBytes k n)
  let new := es.foldr (fun x acc => x % 2 ^ w + acc * 2 ^ w) 0
  let keepLow := old % 2 ^ bit
  let keepHigh := old / 2 ^ (bit + es.length * w)
  let v := keepLow + new * 2 ^ bit + keepHigh * 2 ^ (bit + es.length * w)
  let bs := leBytes n v
  let lead := if bit = 0 || spaceOf k = 3 then 0 else 1
  let full := if spaceOf k = 3 then n else max lead ((bit + es.length * w) / 8)
  let put := fun (s : State) (a e : Nat) =>
    s.writeMarked (k + a) ((bs.drop a).take (e - a)) (if poison then List.range (e - a) else [])
  put (put (put s 0 lead) lead (min n full)) (min n full) n

/-- Remove the head of an output queue. -/
def State.takeOq (s : State) (core q : Nat) : State :=
  s.modCore core fun x => { x with oqs := x.oqs.modify q (·.drop 1) }

/-- Ranges written as one: an ECC word that they cover together loses its poison (R171). -/
def State.coverWords (s : State) (rs : List (Nat × Nat)) : State :=
  { s with mem := { s.mem with poison := s.mem.poison.filter fun w =>
      !((List.range (eccSize w)).all fun i => rs.any fun r => r.1 ≤ w + i && w + i < r.1 + r.2) } }

/-- Write the region of a tile and its scales, as one write (R86, R93). -/
def State.writeTile (s : State) (t : Site) (eng : Nat) (e : Engine) (r : RunSt) (tile : Tile) (vr vc : Nat) : Option State :=
  let (tr, tc) := e.tileAt r
  let w := fmtWidth e.fmt
  let o := e.origin r
  let rows := min vr tile.hdr.vrows
  let cols := min vc tile.hdr.vcols
  if rows = 0 || cols = 0 then some s else
  let strips := e.strips o rows cols
  let scales := e.scaleAddrs o rows cols tr tc
  match s.accessAll t eng e true (strips.map fun p => (p.addr, p.bytes w)),
      s.accessAll t eng e true (scales.map fun x => (x.2, 1)) with
  | some ks, some sk =>
    let poison := tile.hdr.poison
    let s0 := s.coverWords (((strips.zip ks).map fun p => (p.2, p.1.n * w / 8)) ++ sk.map fun k => (k, 1))
    let s1 := (strips.zip ks).foldl (fun s p =>
      s.writeStrip p.2 p.1.bit w ((List.range p.1.n).map fun k => tile.enc (p.1.pos k).1 (p.1.pos k).2) poison) s0
    some ((scales.zip sk).foldl (fun s x =>
      s.writeMarked x.2 [BitVec.ofNat 8 (tile.scales.getD x.1.1 0)] (if poison then [0] else [])) s1)
  | _, _ => none

def State.iterWrite (s : State) (t : Site) (eng : Nat) (e : Engine) (r : RunSt) : State :=
  let core := t.x.idx
  let (tr, tc) := e.tileAt r
  let vr := validAt e.rows tr
  let vc := validAt e.cols tc
  if !e.outOfBound r && (vr = 0 || vc = 0) then s.advance core eng e r
  else match (t.x.oqs.getD r.queue []).head? with
    | none => s.setRun core eng (some r)
    | some tile =>
      let s1 := s.takeOq core r.queue
      if tile.hdr.transposed != e.transposed && e.scheme != 0 then
        (s1.countCore t.x { StCnt.zero with formatDrops := 1 }).faultCore t.x .fault
      else if e.outOfBound r then s1.advance core eng e r
      else match s1.writeTile t eng e r tile vr vc with
        | some s2 => s2.advance core eng e r
        | none => s.faultCore t.x .fault

/-! ### Mode 2: memory to memory (R88) -/

/-- Destination of the n-th block. -/
def Engine.blockDst (e : Engine) (n : Nat) : Nat :=
  if e.dlen = 0 then (e.dbase + n * e.runB) % 2 ^ 64 else (e.dbase + n * e.runB % e.dlen) % 2 ^ 64

def State.iterCopy (s : State) (t : Site) (eng : Nat) (e : Engine) (r : RunSt) : State :=
  let core := t.x.idx
  if e.outOfBound r then s.advance core eng e r
  else match s.access t eng e (e.origin r) e.runB false, s.access t eng e (e.blockDst r.n) e.runB true with
    | some a, some b => (s.copyRange a b e.runB).advance core eng e r
    | _, _ => s.faultCore t.x .fault

/-- Ranges of memory that an iteration reads. -/
def State.iterReads (s : State) (t : Site) (eng : Nat) (e : Engine) (r : RunSt) : List (Nat × Nat) :=
  let (tr, tc) := e.tileAt r
  let vr := validAt e.rows tr
  let vc := validAt e.cols tc
  let rs := if e.outOfBound r then [] else match r.mode with
    | 0 => (e.strips (e.origin r) vr vc).map (fun p => (p.addr, p.bytes (fmtWidth e.fmt))) ++
        (e.scaleAddrs (e.origin r) vr vc tr tc).map fun x => (x.2, 1)
    | 1 => []
    | _ => [(e.origin r, e.runB)]
  rs.filterMap fun p => (s.access t eng e p.1 p.2 false).map fun k => (k, p.2)

/-- The words that an iteration reads are checked first, which may end the invocation (13_safety_repair_wear.md R316-R318). -/
def State.iterTouch (s : State) (core eng : Nat) (r : RunSt) : State :=
  match s.engineOf core eng with
  | some (t, e) => s.touchAll (s.iterReads t eng e r)
  | none => s

/-! ### RUN_ITERATION -/

/-- The end of the nest: the end-of-stream, when EOS is set and the queue has room; its AUX and SEQ hold the tiles sent. -/
def State.closeRun (s : State) (t : Site) (eng : Nat) (r : RunSt) : State :=
  if t.feedRoom r.queue then
    let n := t.x.fed.getD r.queue 0
    (s.feedIq t r.queue (eosTile t.c.id t.x.epoch 0 n n (t.st.iq r.queue))).endRun t.x.idx eng
  else s

/-- The RUN ends as if every loop had finished; the sync-level iteration in progress signals nothing (log 92, DESIGN
CHOICE). -/
def State.cutRun (s : State) (core eng : Nat) (r : RunSt) : State :=
  if r.eos then s.setRun core eng (some { r with idx := [] }) else s.endRun core eng

/-- One innermost iteration: an end-of-stream on a mode-1 queue ends the RUN; then the wait of the sync level, the values
of gathered levels, and the tile or block. What has been waited for or taken is kept while the rest is awaited. A RUN that an
end-of-stream ends gives no signal for the sync-level iteration in progress (log 92, DESIGN CHOICE). -/
def execRunIteration (core engine : Nat) (s : State) : Res :=
  match s.engineOf core engine with
  | none => .next s
  | some (t, e) => match e.run with
    | none => .next s
    | some r =>
      if r.idx.isEmpty then .next (s.closeRun t engine r)
      else if r.mode = 1 && ((t.x.oqs.getD r.queue []).head?.map fun h => h.hdr.kind) == some 1 then
        .next ((s.takeOq core r.queue).endRun core engine)
      else if r.waitEn && !r.waited && t.x.syncs.getD r.waitCtr 0 = 0 then .next s
      else
        let s1 := if r.waitEn && !r.waited then s.modCore core fun x => { x with syncs := x.syncs.modify r.waitCtr (· - 1) }
          else s
        match State.takeAll core engine (e.gathers.mergeSort fun a b => a.level ≤ b.level) { r with waited := true } s1 with
        | (.wait, r1, s2) => .next (s2.setRun core engine (some r1))
        | (.over, r1, s2) => .next (s2.cutRun core engine r1)
        | (.value _, r1, s2) =>
          let s3 := s2.iterTouch core engine r1
          match s3.engineOf core engine with
          | some (t2, _) =>
            .next (match r.mode with
              | 0 => s3.iterRead t2 engine e r1
              | 1 => s3.iterWrite t2 engine e r1
              | _ => s3.iterCopy t2 engine e r1)
          | none => .next s3

end Sys2Proof.Machine
end

