-- ==== Sys2Proof/Machine/Dispatch.lean ====
section
/-! DEFINITION. One arm per command of the table. -/

namespace Sys2Proof.Machine

def exec (i : Instr) (s : State) : Host.Outcome State Fault Refusal :=
  match i with
  | .nop e => Sys2Proof.Machine.execNop e s
  | .devQuery e => Sys2Proof.Machine.execDevQuery e s
  | .qpCreate e sqBase cqBase sqDepth cqDepth vector vecEn job => Sys2Proof.Machine.execQpCreate e sqBase cqBase sqDepth cqDepth vector vecEn job s
  | .qpDestroy e qid => Sys2Proof.Machine.execQpDestroy e qid s
  | .fwLoad e image len => Sys2Proof.Machine.execFwLoad e image len s
  | .journalRead e dest first maxn => Sys2Proof.Machine.execJournalRead e dest first maxn s
  | .jobOpen e desc nrect dlen => Sys2Proof.Machine.execJobOpen e desc nrect dlen s
  | .jobClose e job force => Sys2Proof.Machine.execJobClose e job force s
  | .ctxCreate e job table nregion hostRouted pin => Sys2Proof.Machine.execCtxCreate e job table nregion hostRouted pin s
  | .ctxDestroy e force => Sys2Proof.Machine.execCtxDestroy e force s
  | .ctxEvict e space => Sys2Proof.Machine.execCtxEvict e space s
  | .ctxRestore e => Sys2Proof.Machine.execCtxRestore e s
  | .ctxPin e op => Sys2Proof.Machine.execCtxPin e op s
  | .memAlloc e size space job alignLog2 => Sys2Proof.Machine.execMemAlloc e size space job alignLog2 s
  | .memFree e ga => Sys2Proof.Machine.execMemFree e ga s
  | .memCopy e src dst len => Sys2Proof.Machine.execMemCopy e src dst len s
  | .memFill e dst len pattern => Sys2Proof.Machine.execMemFill e dst len pattern s
  | .memConvert e src dst len desc => Sys2Proof.Machine.execMemConvert e src dst len desc s
  | .prefetchListSet e list n clear => Sys2Proof.Machine.execPrefetchListSet e list n clear s
  | .wgtLoad e manifest mask deadline => Sys2Proof.Machine.execWgtLoad e manifest mask deadline s
  | .wgtReplace e manifest keepKv deadline => Sys2Proof.Machine.execWgtReplace e manifest keepKv deadline s
  | .adapterLoad e manifest adapter version deadline => Sys2Proof.Machine.execAdapterLoad e manifest adapter version deadline s
  | .adapterRetire e adapter version => Sys2Proof.Machine.execAdapterRetire e adapter version s
  | .wgtVerify e mask => Sys2Proof.Machine.execWgtVerify e mask s
  | .cfgLoad e image len => Sys2Proof.Machine.execCfgLoad e image len s
  | .cfgActivate e handle => Sys2Proof.Machine.execCfgActivate e handle s
  | .cfgCheck e image len => Sys2Proof.Machine.execCfgCheck e image len s
  | .cfgUnload e handle => Sys2Proof.Machine.execCfgUnload e handle s
  | .invoke e handle args result deadline => Sys2Proof.Machine.execInvoke e handle args result deadline s
  | .invokeList e list n => Sys2Proof.Machine.execInvokeList e list n s
  | .preempt e force => Sys2Proof.Machine.execPreempt e force s
  | .barrier e bid members => Sys2Proof.Machine.execBarrier e bid members s
  | .srvStart e desc => Sys2Proof.Machine.execSrvStart e desc s
  | .reqAdmit e desc deadline adapter hostStep => Sys2Proof.Machine.execReqAdmit e desc deadline adapter hostStep s
  | .reqCancel e req => Sys2Proof.Machine.execReqCancel e req s
  | .stepAnswer e req step answer len => Sys2Proof.Machine.execStepAnswer e req step answer len s
  | .srvPolicy e chunk nMin nMax sMin sMax interval => Sys2Proof.Machine.execSrvPolicy e chunk nMin nMax sMin sMax interval s
  | .srvStop e drain => Sys2Proof.Machine.execSrvStop e drain s
  | .linkTrain e mask => Sys2Proof.Machine.execLinkTrain e mask s
  | .linkExpectSet e port farChip farPort digest => Sys2Proof.Machine.execLinkExpectSet e port farChip farPort digest s
  | .routeLoad e table n slice => Sys2Proof.Machine.execRouteLoad e table n slice s
  | .portOwnerSet e port owner => Sys2Proof.Machine.execPortOwnerSet e port owner s
  | .linkQuery e port => Sys2Proof.Machine.execLinkQuery e port s
  | .put e src dst len deadline => Sys2Proof.Machine.execPut e src dst len deadline s
  | .get e src dst len deadline => Sys2Proof.Machine.execGet e src dst len deadline s
  | .exchange e desc deadline group => Sys2Proof.Machine.execExchange e desc deadline group s
  | .reduceScatter e desc deadline group => Sys2Proof.Machine.execReduceScatter e desc deadline group s
  | .allGather e desc deadline group => Sys2Proof.Machine.execAllGather e desc deadline group s
  | .mirrorSet e buddy enable => Sys2Proof.Machine.execMirrorSet e buddy enable s
  | .pwrLimits e sustain peak window lost timeout => Sys2Proof.Machine.execPwrLimits e sustain peak window lost timeout s
  | .phaseTableSet e table n => Sys2Proof.Machine.execPhaseTableSet e table n s
  | .keepwarmSet e floor ramp => Sys2Proof.Machine.execKeepwarmSet e floor ramp s
  | .mgrHeartbeat e seq => Sys2Proof.Machine.execMgrHeartbeat e seq s
  | .pwrQuery e => Sys2Proof.Machine.execPwrQuery e s
  | .selftest e mask => Sys2Proof.Machine.execSelftest e mask s
  | .healthQuery e dst len => Sys2Proof.Machine.execHealthQuery e dst len s
  | .repairCommit e write => Sys2Proof.Machine.execRepairCommit e write s
  | .katCfg e ms => Sys2Proof.Machine.execKatCfg e ms s
  | .scrubCfg e hbmS ddrS => Sys2Proof.Machine.execScrubCfg e hbmS ddrS s
  | .idQuery e => Sys2Proof.Machine.execIdQuery e s
  | .attest e dst len nonce => Sys2Proof.Machine.execAttest e dst len nonce s
  | .flashRecordRead e type dst maxLen => Sys2Proof.Machine.execFlashRecordRead e type dst maxLen s
  | .tmrMasterSet e role master init => Sys2Proof.Machine.execTmrMasterSet e role master init s
  | .tmrQuery e => Sys2Proof.Machine.execTmrQuery e s
  | .tmrAlarm e slot op first period => Sys2Proof.Machine.execTmrAlarm e slot op first period s
  | .traceCfg e buf size mask => Sys2Proof.Machine.execTraceCfg e buf size mask s
  | .dump e dst len kind core => Sys2Proof.Machine.execDump e dst len kind core s
  | .sqFetch => Sys2Proof.Machine.execSqFetch s
  | .sqTailDoorbell q value => Sys2Proof.Machine.execSqTailDoorbell q value s
  | .cqHeadDoorbell q value => Sys2Proof.Machine.execCqHeadDoorbell q value s
  | .qp0Enable ctrl => Sys2Proof.Machine.execQp0Enable ctrl s
  | .qp0Disable ctrl => Sys2Proof.Machine.execQp0Disable ctrl s
  | .evcPendWrite word value => Sys2Proof.Machine.execEvcPendWrite word value s
  | .evcMaskWrite word value => Sys2Proof.Machine.execEvcMaskWrite word value s
  | .evcRouteWrite k value => Sys2Proof.Machine.execEvcRouteWrite k value s
  | .evcRingSizeWrite value => Sys2Proof.Machine.execEvcRingSizeWrite value s
  | .tmrHoldoverLimitWrite value => Sys2Proof.Machine.execTmrHoldoverLimitWrite value s
  | .powerCapWrite reg value => Sys2Proof.Machine.execPowerCapWrite reg value s
  | .flowKWrite value => Sys2Proof.Machine.execFlowKWrite value s
  | .retrain port value => Sys2Proof.Machine.execRetrain port value s
  | .registerWrite bar off size value => Sys2Proof.Machine.execRegisterWrite bar off size value s
  | .registerReadClear at_ => Sys2Proof.Machine.execRegisterReadClear at_ s
  | .msixVectorUnmask a => Sys2Proof.Machine.execMsixVectorUnmask a s
  | .hdmDecoderCommit dec base size ways => Sys2Proof.Machine.execHdmDecoderCommit dec base size ways s
  | .hostMemRead dec off => Sys2Proof.Machine.execHostMemRead dec off s
  | .hostMemWrite dec off data => Sys2Proof.Machine.execHostMemWrite dec off data s
  | .getVersion via => Sys2Proof.Machine.execGetVersion via s
  | .getCapabilities via => Sys2Proof.Machine.execGetCapabilities via s
  | .negotiateAlgorithms via => Sys2Proof.Machine.execNegotiateAlgorithms via s
  | .getDigests via => Sys2Proof.Machine.execGetDigests via s
  | .getCertificate via slot off len => Sys2Proof.Machine.execGetCertificate via slot off len s
  | .challenge via slot nonce => Sys2Proof.Machine.execChallenge via slot nonce s
  | .getMeasurements via slot index nonce => Sys2Proof.Machine.execGetMeasurements via slot index nonce s
  | .setEndpointId eid => Sys2Proof.Machine.execSetEndpointId eid s
  | .getEndpointId => Sys2Proof.Machine.execGetEndpointId s
  | .getMctpVersionSupport => Sys2Proof.Machine.execGetMctpVersionSupport s
  | .getMessageTypeSupport => Sys2Proof.Machine.execGetMessageTypeSupport s
  | .sidebandReadRegister off => Sys2Proof.Machine.execSidebandReadRegister off s
  | .sidebandReadBootStatus => Sys2Proof.Machine.execSidebandReadBootStatus s
  | .bypass => Sys2Proof.Machine.execBypass s
  | .idcode => Sys2Proof.Machine.execIdcode s
  | .samplePreload => Sys2Proof.Machine.execSamplePreload s
  | .extest => Sys2Proof.Machine.execExtest s
  | .extestPulse => Sys2Proof.Machine.execExtestPulse s
  | .extestTrain => Sys2Proof.Machine.execExtestTrain s
  | .clamp => Sys2Proof.Machine.execClamp s
  | .highz => Sys2Proof.Machine.execHighz s
  | .pwrEnRise => Sys2Proof.Machine.execPwrEnRise s
  | .pwrEnFall => Sys2Proof.Machine.execPwrEnFall s
  | .resetNAssert => Sys2Proof.Machine.execResetNAssert s
  | .resetNRelease => Sys2Proof.Machine.execResetNRelease s
  | .bootStageComplete r => Sys2Proof.Machine.execBootStageComplete r s
  | .firmwareStart ms => Sys2Proof.Machine.execFirmwareStart ms s
  | .ddrZeroFill => Sys2Proof.Machine.execDdrZeroFill s
  | .vinSample mv watts => Sys2Proof.Machine.execVinSample mv watts s
  | .droopTrip die => Sys2Proof.Machine.execDroopTrip die s
  | .peakLimiterAdjust => Sys2Proof.Machine.execPeakLimiterAdjust s
  | .sustainedLoopRun fixedW => Sys2Proof.Machine.execSustainedLoopRun fixedW s
  | .capFallDutyStep fixedW => Sys2Proof.Machine.execCapFallDutyStep fixedW s
  | .opRailSettled => Sys2Proof.Machine.execOpRailSettled s
  | .keepwarmBeat unfilledW coreMilliW => Sys2Proof.Machine.execKeepwarmBeat unfilledW coreMilliW s
  | .mgrTimeoutLapse => Sys2Proof.Machine.execMgrTimeoutLapse s
  | .thermalSample tmax where_ coolIn coolOut => Sys2Proof.Machine.execThermalSample tmax where_ coolIn coolOut s
  | .thermalThrottleStep => Sys2Proof.Machine.execThermalThrottleStep s
  | .flowPulse => Sys2Proof.Machine.execFlowPulse s
  | .flowCheck coolIn coolOut => Sys2Proof.Machine.execFlowCheck coolIn coolOut s
  | .simmerExit => Sys2Proof.Machine.execSimmerExit s
  | .timerTick => Sys2Proof.Machine.execTimerTick s
  | .tickLaunch q => Sys2Proof.Machine.execTickLaunch q s
  | .timeMarkerSend => Sys2Proof.Machine.execTimeMarkerSend s
  | .timeMarker port sub body crc => Sys2Proof.Machine.execTimeMarker port sub body crc s
  | .markerMiss => Sys2Proof.Machine.execMarkerMiss s
  | .holdoverEntry => Sys2Proof.Machine.execHoldoverEntry s
  | .holdoverLimitExpiry => Sys2Proof.Machine.execHoldoverLimitExpiry s
  | .markEdge => Sys2Proof.Machine.execMarkEdge s
  | .trefLost => Sys2Proof.Machine.execTrefLost s
  | .trefRestored => Sys2Proof.Machine.execTrefRestored s
  | .tmrMasterSetTimeout => Sys2Proof.Machine.execTmrMasterSetTimeout s
  | .alarmFire slot => Sys2Proof.Machine.execAlarmFire slot s
  | .invocationLaunch inv => Sys2Proof.Machine.execInvocationLaunch inv s
  | .invocationComplete inv => Sys2Proof.Machine.execInvocationComplete inv s
  | .invocationDeadline inv => Sys2Proof.Machine.execInvocationDeadline inv s
  | .mma core sieve => Sys2Proof.Machine.execMma core sieve s
  | .mmaBt core sieve => Sys2Proof.Machine.execMmaBt core sieve s
  | .vec1 core => Sys2Proof.Machine.execVec1 core s
  | .vec2 core => Sys2Proof.Machine.execVec2 core s
  | .vecacc core => Sys2Proof.Machine.execVecacc core s
  | .red core => Sys2Proof.Machine.execRed core s
  | .cvt core => Sys2Proof.Machine.execCvt core s
  | .emit core => Sys2Proof.Machine.execEmit core s
  | .move core => Sys2Proof.Machine.execMove core s
  | .drop core => Sys2Proof.Machine.execDrop core s
  | .oneos core => Sys2Proof.Machine.execOneos core s
  | .jump core => Sys2Proof.Machine.execJump core s
  | .ldc core => Sys2Proof.Machine.execLdc core s
  | .loop core => Sys2Proof.Machine.execLoop core s
  | .ticket core => Sys2Proof.Machine.execTicket core s
  | .ticketRequest requester rail reqNo => Sys2Proof.Machine.execTicketRequest requester rail reqNo s
  | .ticketReply requester => Sys2Proof.Machine.execTicketReply requester s
  | .phase core => Sys2Proof.Machine.execPhase core s
  | .eosout core => Sys2Proof.Machine.execEosout core s
  | .endStep core => Sys2Proof.Machine.execEndStep core s
  | .ldb core engine => Sys2Proof.Machine.execLdb core engine s
  | .streamLoop core engine => Sys2Proof.Machine.execStreamLoop core engine s
  | .stride core engine => Sys2Proof.Machine.execStride core engine s
  | .shape core engine => Sys2Proof.Machine.execShape core engine s
  | .fmt core engine => Sys2Proof.Machine.execFmt core engine s
  | .gather core engine => Sys2Proof.Machine.execGather core engine s
  | .wait core engine => Sys2Proof.Machine.execWait core engine s
  | .signal core engine => Sys2Proof.Machine.execSignal core engine s
  | .run core engine => Sys2Proof.Machine.execRun core engine s
  | .runIteration core engine => Sys2Proof.Machine.execRunIteration core engine s
  | .streamJump core engine => Sys2Proof.Machine.execStreamJump core engine s
  | .endp core engine => Sys2Proof.Machine.execEndp core engine s
  | .tileSend core oq => Sys2Proof.Machine.execTileSend core oq s
  | .tileArrival ch rx hop => Sys2Proof.Machine.execTileArrival ch rx hop s
  | .creditReturn ch => Sys2Proof.Machine.execCreditReturn ch s
  | .spillEntry ch => Sys2Proof.Machine.execSpillEntry ch s
  | .spillOut ch => Sys2Proof.Machine.execSpillOut ch s
  | .spillReturn ch => Sys2Proof.Machine.execSpillReturn ch s
  | .servicePacketReceive id crcOk => Sys2Proof.Machine.execServicePacketReceive id crcOk s
  | .servicePacketRepeat id => Sys2Proof.Machine.execServicePacketRepeat id s
  | .treeRebuildAsChain ctx handle stream => Sys2Proof.Machine.execTreeRebuildAsChain ctx handle stream s
  | .wavefrontSourceSwitch core => Sys2Proof.Machine.execWavefrontSourceSwitch core s
  | .coreSwitch core => Sys2Proof.Machine.execCoreSwitch core s
  | .prefetchEntryStart inv => Sys2Proof.Machine.execPrefetchEntryStart inv s
  | .prefetchEntryComplete inv entry => Sys2Proof.Machine.execPrefetchEntryComplete inv entry s
  | .shardReadyPoll ctx shard => Sys2Proof.Machine.execShardReadyPoll ctx shard s
  | .shardStart ctx shard => Sys2Proof.Machine.execShardStart ctx shard s
  | .shardComplete ctx shard => Sys2Proof.Machine.execShardComplete ctx shard s
  | .weightDeadline ctx => Sys2Proof.Machine.execWeightDeadline ctx s
  | .layerOverwriteStart ctx => Sys2Proof.Machine.execLayerOverwriteStart ctx s
  | .layerOverwriteDone ctx pathFault => Sys2Proof.Machine.execLayerOverwriteDone ctx pathFault s
  | .stepCompose ctx => Sys2Proof.Machine.execStepCompose ctx s
  | .stepEnd ctx => Sys2Proof.Machine.execStepEnd ctx s
  | .requestDeadline ctx req => Sys2Proof.Machine.execRequestDeadline ctx req s
  | .evictionOrRestoreEnd job => Sys2Proof.Machine.execEvictionOrRestoreEnd job s
  | .routingPointStart inv program => Sys2Proof.Machine.execRoutingPointStart inv program s
  | .routeWaitExpiry inv program => Sys2Proof.Machine.execRouteWaitExpiry inv program s
  | .katRound target pass unit => Sys2Proof.Machine.execKatRound target pass unit s
  | .lbistCoreRun die row pos pass => Sys2Proof.Machine.execLbistCoreRun die row pos pass s
  | .sramScrub core corrected uncorrectable => Sys2Proof.Machine.execSramScrub core corrected uncorrectable s
  | .hbmPatrolScrub stack pc row corrected uncorrectable pcFailed => Sys2Proof.Machine.execHbmPatrolScrub stack pc row corrected uncorrectable pcFailed s
  | .hbmRowRepair stack pc bank row spares => Sys2Proof.Machine.execHbmRowRepair stack pc bank row spares s
  | .ddrPatrolScrub channel corrected uncorrectable => Sys2Proof.Machine.execDdrPatrolScrub channel corrected uncorrectable s
  | .coreRemap die row pos => Sys2Proof.Machine.execCoreRemap die row pos s
  | .lockstepMismatch pair => Sys2Proof.Machine.execLockstepMismatch pair s
  | .wearMeasure stressed reference => Sys2Proof.Machine.execWearMeasure stressed reference s
  | .wearLogWrite => Sys2Proof.Machine.execWearLogWrite s
  | .laneFailure port lane => Sys2Proof.Machine.execLaneFailure port lane s
  | .farEndIdle port => Sys2Proof.Machine.execFarEndIdle port s
  | .linkTrainingComplete port goodLanes eye => Sys2Proof.Machine.execLinkTrainingComplete port goodLanes eye s
  | .identityTimeout port => Sys2Proof.Machine.execIdentityTimeout port s
  | .identity port farPort farChip rsv digest crc => Sys2Proof.Machine.execIdentity port farPort farChip rsv digest crc s
  | .acknowledgement port flags lseq tail => Sys2Proof.Machine.execAcknowledgement port flags lseq tail s
  | .credit port ch rsv total tail => Sys2Proof.Machine.execCredit port ch rsv total tail s
  | .timeProbe port flags probe turn stamp crc at_ => Sys2Proof.Machine.execTimeProbe port flags probe turn stamp crc at_ s
  | .ackTimer port => Sys2Proof.Machine.execAckTimer port s
  | .creditFrameTimer port vc cls => Sys2Proof.Machine.execCreditFrameTimer port vc cls s
  | .packetReceive port fecOk got => Sys2Proof.Machine.execPacketReceive port fecOk got s
  | .transitForward => Sys2Proof.Machine.execTransitForward s
  | .writeData => Sys2Proof.Machine.execWriteData s
  | .readRequest => Sys2Proof.Machine.execReadRequest s
  | .readData => Sys2Proof.Machine.execReadData s
  | .collectiveSlice => Sys2Proof.Machine.execCollectiveSlice s
  | .mirrorData => Sys2Proof.Machine.execMirrorData s
  | .openRange => Sys2Proof.Machine.execOpenRange s
  | .openReply => Sys2Proof.Machine.execOpenReply s
  | .endToEndAcknowledgement => Sys2Proof.Machine.execEndToEndAcknowledgement s
  | .unreachable => Sys2Proof.Machine.execUnreachable s
  | .transferRetry xtag => Sys2Proof.Machine.execTransferRetry xtag s
  | .transferDeadline xtag => Sys2Proof.Machine.execTransferDeadline xtag s
  | .vcStall port vc => Sys2Proof.Machine.execVcStall port vc s
  | .heldPacketDiscard port => Sys2Proof.Machine.execHeldPacketDiscard port s
  | .collectiveDeadline group => Sys2Proof.Machine.execCollectiveDeadline group s
  | .vinRise mv => Sys2Proof.Machine.execVinRise mv s
  | .pwrGoodRise => Sys2Proof.Machine.execPwrGoodRise s
  | .vinRemoval => Sys2Proof.Machine.execVinRemoval s
  | .tripLatchRelease => Sys2Proof.Machine.execTripLatchRelease s
  | .adapterRoomDeadline ctx adapter => Sys2Proof.Machine.execAdapterRoomDeadline ctx adapter s
  | .commandTransferEnd rec => Sys2Proof.Machine.execCommandTransferEnd rec s
  | .selftestComplete failures lanes => Sys2Proof.Machine.execSelftestComplete failures lanes s
  | .doeDiscovery index => Sys2Proof.Machine.execDoeDiscovery index s
  | .unsupportedRequest r => Sys2Proof.Machine.execUnsupportedRequest r s
  | .dynamicAddressAssignment addr => Sys2Proof.Machine.execDynamicAddressAssignment addr s

end Sys2Proof.Machine
end

