-- ==== Sys2Proof/Safety.lean ====
section
/-! DEFINITION. The terms the statements use: a command that is ready to start, what the completion of a command may
touch, and the forms of memory and registers that every step keeps. -/

namespace Sys2Proof.Machine

/-! ### Commands -/

/-- A command stands fetched in its queue and nothing holds it: stage 9, its predecessors and fence satisfied, its
context still there, its addresses still on cores the grid presents (03_commands_and_events.md R47, R50, R51;
01_module_overview.md R11). -/
structure Ready (s : State) (i : Instr) (e : Env) (r : CmdRec) : Prop where
  works : s.working = true
  stage : s.boot.stage = 9
  record : s.fetched? i e = some r
  order : s.startable r = true
  bound : s.boundOk r = true
  held : s.addrsHeld i = true

/-- The state in which a command's own effect begins: its record runs, and the trace has its start (R335). -/
def State.started (s : State) (r : CmdRec) : State :=
  (s.modRec r.id fun r => { r with phase := .running, launched := r.env.atTick && !launchesLater r.cmd }).trace 0 r.env.q.toNat
    (leBytes 2 (opcodeOf r.cmd) ++ leBytes 2 r.env.tag.toNat)

/-- A command can be fetched from its queue now, stands in it not yet, and nothing before it in the queue or its chain
holds it back. -/
structure Arriving (s : State) (i : Instr) (e : Env) (p : QPair) : Prop where
  works : s.working = true
  fresh : s.fetched? i e = none
  room : s.canFetch e.q.toNat = true
  pair : s.pair? e.q.toNat = some p
  chain : (p.chainOpen && p.chainFailed) = false

/-- Stages 1 to 5 of Table 3.8 without the opcode's own checks: the envelope of the command is in order. -/
def State.envelopeOk (s : State) (op : Nat) (e : Env) : Prop := s.fetchStatus op e none = none

/-! ### Where completions write -/

/-- A byte of one of the entries of a queue pair's CQ (R46). -/
def QPair.inCq (p : QPair) (a : Nat) : Prop :=
  ∃ n, (n < p.cqDepth ∨ n = p.cqTail) ∧ keyOf (p.cqBase.toNat + 32 * n) ≤ a ∧ a < keyOf (p.cqBase.toNat + 32 * n) + 32

/-- A byte of the event rings' area (R61, R360). -/
def State.inRings (s : State) (a : Nat) : Prop :=
  ∃ n, n < 128 * s.evc.ringN ∧ keyOf (s.evc.ringBase.toNat + 32 * n) ≤ a ∧ a < keyOf (s.evc.ringBase.toNat + 32 * n) + 32

/-- A byte of the trace buffer (R335). -/
def State.inTrace (s : State) (a : Nat) : Prop :=
  ∃ n, n < s.health.traceSize / 32 ∧ keyOf (s.health.traceBase + 32 * n) ≤ a ∧ a < keyOf (s.health.traceBase + 32 * n) + 32

/-- A byte that no completion, event or trace record can reach. -/
def State.untold (s : State) (a : Nat) : Prop :=
  (∀ p ∈ s.q.pairs, ¬ p.inCq a) ∧ ¬ s.inRings a ∧ ¬ s.inTrace a

/-- Everything but queues, event controller, MSI-X, memory bytes, health counts and what has been sent is as before. -/
structure SameUnits (s t : State) : Prop where
  pins : t.pins = s.pins
  boot : t.boot = s.boot
  grid : t.grid = s.grid
  tmr : t.tmr = s.tmr
  jobs : t.jobs = s.jobs
  ctxs : t.ctxs = s.ctxs
  moves : t.moves = s.moves
  fab : t.fab = s.fab
  link : t.link = s.link
  pwr : t.pwr = s.pwr
  therm : t.therm = s.therm
  side : t.side = s.side
  allocs : t.mem.allocs = s.mem.allocs
  reserves : t.mem.reserves = s.mem.reserves
  pending : t.pending = s.pending

/-! ### Routing points -/

/-- In `t` a routing point of `s` has its assignment for `n` tokens, and without EXCH its stations have their signal
(10_experts.md R250-R252). -/
def State.pointSettled (s t : State) (i : Inv) (p : RPoint) (r : Routing) (n : Nat) : Prop :=
  (∃ u ∈ t.fab.invs, ∃ y ∈ u.points, u.id = i.id ∧ y.program = p.program ∧ y.started = true ∧ y.released = true ∧
    y.query = none ∧ y.tokens = n ∧ y.own.length = r.nexp) ∧
  (r.exch = false → t.fab.cores.map (·.syncs) = s.fab.cores.map fun x =>
    if x.inv = some i.id ∧ x.station ∈ r.expertStations ++ r.restStations then x.syncs.modify 6 (fun n => min (2 ^ 16 - 1) (n + 1)) else x.syncs)

/-! ### Forms that every step keeps -/

/-- The event controller's reserved bits read zero (15_registers.md Tables 15.9, 15.10). -/
def Evc.wf (e : Evc) : Bool := e.pend1 &&& ~~~(evcValid 1) == 0 && e.mask1 &&& ~~~(evcValid 1) == 0 && e.seqs.length == 77

end Sys2Proof.Machine
end

