-- ==== Sys2Proof/Certificates/Slice0/Obligations.lean ====
section
/-! DEFINITION. The statements for the provers. A docstring names the file of spec/ and the rules a statement follows;
where a statement rests on a choice of the model, it names the entry of the assumption log. -/

open Sys2Proof Sys2Proof.Machine

/-! ### The machine -/

/-- A step carries out the command at the front of the queue on the state with the queue's rest; an empty queue idles,
which is the model's choice (log 1). -/
def Obligations.StepRunsFront : Prop :=
  (∀ (s : State) (c : Instr) (rest : List Instr), s.pending = c :: rest → step s = exec c { s with pending := rest }) ∧
    ∀ s : State, s.pending = [] → step s = .next s

/-- 02 R20, 03 R39 and R60, 11 Table 11.3, 12 Table 12.4, 15 Tables 15.7, 15.9 and 15.20: what reset leaves. The
values the log names (12, 13) are not among them. The forms that every step keeps hold after reset. -/
def Obligations.ResetState : Prop :=
  (let s := State.reset
   s.tmr.count = 0 ∧ s.tmr.lock = .unlocked ∧ s.tmr.role = .follower ∧ s.boot.stage = 1 ∧ s.boot.trivet = false ∧
     s.q.pairs.map (·.enable) = [false] ∧ s.evc.mask0 = BitVec.allOnes 64 ∧ s.evc.pend0 = 0 ∧ s.evc.ringN = 0 ∧
     (∀ p ∈ s.link.ports, p.st = .disabled) ∧ s.link.ports.length = 12 ∧
     s.pwr.peakCap = 6000 ∧ s.pwr.sustainCap = 5200 ∧ s.pwr.lostCap = 3000 ∧ s.health.katInterval = 100 ∧
     s.jobs = [] ∧ s.ctxs = [] ∧ s.pending = []) ∧
  (State.reset.mem.wf = true ∧ State.reset.evc.wf = true)

/-- Memory's canonical form is kept by every step from every state that has it. -/
def Obligations.StepKeepsMemoryForm : Prop :=
  ∀ s t : State, s.mem.wf = true → step s = .next t → t.mem.wf = true

/-- The reserved bits of the event controller stay zero at every step from every state where they are. -/
def Obligations.StepKeepsEventForm : Prop :=
  ∀ s t : State, s.evc.wf = true → step s = .next t → t.evc.wf = true

/-- A command changes nothing of the queue of waiting commands: a step takes exactly the front one. -/
def Obligations.StepTakesOne : Prop :=
  ∀ (s t : State) (c : Instr) (rest : List Instr), s.pending = c :: rest → step s = .next t → t.pending = rest

/-- 07 R158, R171, R346: bytes written read back, every other byte reads as before; the poison of a word goes only
when the write covers the whole word. -/
def Obligations.WriteThenRead : Prop :=
  ∀ (s : State) (k : Nat) (bs : List Byte), s.mem.wf = true → s.grid.stackFailed = [] → s.mem.hostDead = [] →
    (∀ i, i < bs.length → (s.writeBytes k bs).readByte (k + i) = bs.getD i 0) ∧
    (∀ a, (a < k ∨ k + bs.length ≤ a) → (s.writeBytes k bs).readByte a = s.readByte a) ∧
    ∀ w, w ∈ (s.writeBytes k bs).mem.poison ↔ w ∈ s.mem.poison ∧ ¬ (k ≤ w ∧ w + eccSize w ≤ k + bs.length)

/-! ### The command plane -/

/-- 03 R42, R46, R50: the oldest command of a queue completes: its record goes, its 32 bytes stand at CQ_TAIL with the
phase, CQ_TAIL moves on by one modulo the depth and the phase turns at the wrap; a status outside the success group,
CHECK_FAILED, the shard statuses of a weight command and DEADLINE and LINK_DOWN of a transfer carries no result bytes. The command is not journaled, not traced and no member of a
chain, nothing else of its queue waits, and no pair is being destroyed. -/
def Obligations.CompletionEntry : Prop :=
  ∀ (s : State) (r : CmdRec) (p : QPair) (st : Status) (res : List Byte),
    s.q.recs = [r] → s.q.pairs = [p] → r.env.q.toNat = p.id → p.id ≠ 0 → r.late = false → r.env.chain = false →
    s.journalDetail r.cmd st res = none → s.health.traceMask = 0 → p.closing = none → p.vecEn = false →
    p.cqOwn = true → s.mem.hostRefuses (keyOf (p.cqBase.toNat + 32 * p.cqTail)) 32 = false → s.rangeOk (keyOf (p.cqBase.toNat + 32 * p.cqTail)) 32 = true →
    (spaceOf (keyOf (p.cqBase.toNat + 32 * p.cqTail)) ∈ [0, 1, 3]) →
    s.finish r.id st res =
      { (s.writeBytes (keyOf (p.cqBase.toNat + 32 * p.cqTail))
          (leBytes 2 r.env.tag.toNat ++ leBytes 2 st.code ++ leBytes 1 (if p.phase then 1 else 0) ++ [0] ++
            leBytes 2 p.sqHead ++ leBytes 8 s.tmr.count ++ padTo 16 (padTo 16 (if st.carries r.cmd then res else [])))) with
        q := { s.q with
          recs := []
          pairs := [{ p with cqTail := (p.cqTail + 1) % 2 ^ p.cqLog2,
                             phase := if (p.cqTail + 1) % 2 ^ p.cqLog2 = 0 then !p.phase else p.phase }] } }

/-- The frame of starting and completing any command: no unit changes but the queues, the event controller, MSI-X, the
health counts and memory; memory changes in no byte outside the completion queues, the event rings and the trace
buffer. -/
def Obligations.CompletionFrame : Prop :=
  ∀ (s : State) (r : CmdRec) (id : Nat) (st : Status) (res : List Byte), s.mem.wf = true → s.grid.stackFailed = [] →
    SameUnits s ((s.started r).finish id st res) ∧
      ∀ a, s.untold a → ((s.started r).finish id st res).readByte a = s.readByte a

/-- 03 R41, R50: a command that arrives in an empty queue without AT_TICK and FENCE, with all checks of stages 1 to 5
passed, starts at once. 03 R49, Table 3.8: a command whose envelope is in order and whose stage-4 check fails
completes at its fetch with that status: it only enters and completes, starts nothing, and no unit and no byte outside
the rings changes. -/
def Obligations.ArrivingCommands : Prop :=
  (∀ (s : State) (i : Instr) (e : Env) (p : QPair) (chk : State → Option Status) (zero : State → Bool)
     (start : Nat → State → State),
     Arriving s i e p → s.envelopeOk (opcodeOf i) e → chk s = none → e.atTick = false → e.fence = false →
     s.recsOf e.q.toNat = [] → s.boot.stage = 9 → e.ctx = 0x3FF → zero (s.takeIn i e none) = false →
     ∃ r, (s.takeIn i e none).fetched? i e = some r ∧ r.id = s.q.nextRec ∧ r.cmd = i ∧
       command i e chk zero start s = .next (start r.id ((s.takeIn i e none).started r))) ∧
  (∀ (s : State) (i : Instr) (e : Env) (p : QPair) (st : Status) (chk : State → Option Status) (zero : State → Bool)
     (start : Nat → State → State),
     Arriving s i e p → s.envelopeOk (opcodeOf i) e → chk s = some st →
     command i e chk zero start s = .next (s.takeIn i e (some st)) ∧
       (s.mem.wf = true → s.grid.stackFailed = [] →
         SameUnits s (s.takeIn i e (some st)) ∧ ∀ a, s.untold a → (s.takeIn i e (some st)).readByte a = s.readByte a))

/-- 03 R55, 02 R37: NOP, DEV_QUERY and TMR_QUERY complete OK; DEV_QUERY's and TMR_QUERY's results have 16 bytes laid
out as the manual's tables give them. 03 R40, R55, R56, R96: QP_CREATE adds the pair of its fields under a free ID and
returns it; QP_DESTROY closes the pair and ends the commands that wait in it; BARRIER of one member releases it at
once with the count, of more opens the barrier and waits in it. 03 R58, R59: JOURNAL_READ writes the records held from
FIRST on, at most MAX, and returns the first index, how many, and how many before them were lost. -/
def Obligations.QueueFamilyComplete : Prop :=
  (∀ (s : State) (e : Env) (r : CmdRec),
     (Ready s (.nop e) e r → exec (.nop e) s = .next ((s.started r).finish r.id .ok [])) ∧
     (Ready s (.devQuery e) e r → exec (.devQuery e) s = .next ((s.started r).finish r.id .ok
       (leBytes 4 s.boot.cfwVersion ++ leBytes 2 (2048 - s.q.pairs.length) ++ leBytes 2 (1023 - s.ctxs.length) ++
         leBytes 1 (16 - s.jobs.length) ++ [0] ++ leBytes 2 s.grid.width ++
         leBytes 4 (s.grid.ddrGib.foldl (· + ·) 0)))) ∧
     (Ready s (.tmrQuery e) e r → exec (.tmrQuery e) s = .next ((s.started r).finish r.id .ok
       (leBytes 1 (s.tmr.lock.code + (if s.tmr.refLost then 4 else 0) + 8 * s.tmr.role.code) ++ leBytes 1 s.tmr.hops ++
         leBytes 2 s.tmr.master ++ leBytes 2 s.tmr.bound ++ leBytes 2 (s.tmr.upstream.getD 0xFFFF) ++
         leBytes 4 s.tmr.beatsSince ++ leBytes 4 s.tmr.ignored)))) ∧
  (∀ (s : State) (e : Env) (r : CmdRec),
     (∀ (sqBase cqBase : U64) (sqDepth cqDepth : U32) (vector : BitVec 6) (vecEn : Bool) (job : Byte),
       Ready s (.qpCreate e sqBase cqBase sqDepth cqDepth vector vecEn job) e r →
       (job = 0xFF ∨ (job.toNat < 16 ∧ (s.started r).jobTakesPair job.toNat = true)) →
       (s.started r).freeQueueIds ≠ [] →
       ∃ q ∈ (s.started r).freeQueueIds,
         exec (.qpCreate e sqBase cqBase sqDepth cqDepth vector vecEn job) s =
           .next ((({ s.started r with free := (s.started r).free + 1 } : State).modQ fun x =>
             { x with pairs := x.pairs ++ [QPair.make q sqBase cqBase sqDepth cqDepth vector vecEn job] }).finish
               r.id .ok (leBytes 2 q))) ∧
     (∀ (qid : U16) (p : QPair), Ready s (.qpDestroy e qid) e r → 1 ≤ qid.toNat → qid.toNat < 2048 → qid ≠ e.q →
       (s.started r).pair? qid.toNat = some p → p.closing = none → s.q.barriers = [] →
       exec (.qpDestroy e qid) s =
         .next (((s.started r).modPair qid.toNat fun p => { p with closing := some r.id }).leaveBarriers [] |>.finishAll
           ((((s.started r).recsOf qid.toNat).filter fun x => x.phase == .waiting).map fun x => (x.id, .cancelled, [])))) ∧
     (∀ bid members : U16, Ready s (.barrier e bid members) e r → members ≠ 0 → s.q.barriers = [] → e.atTick = false →
       e.lateRun = false → e.launch = 0 →
       exec (.barrier e bid members) s =
         if members = 1 then .next ((s.started r).finishAll [(r.id, .ok, leBytes 8 s.tmr.count)])
         else .next ((s.started r).modQ fun q =>
           { q with barriers := [⟨bid.toNat, members.toNat, false, false, 0, [r.id]⟩] }))) ∧
  (∀ (s : State) (e : Env) (r : CmdRec) (dest : U64) (first maxn : U32) (j : Journal) (js : List Journal),
     Ready s (.journalRead e dest first maxn) e r → maxn ≠ 0 →
     ((s.started r).q.journal.filter fun x => max first.toNat 1 ≤ x.index).take maxn.toNat = j :: js →
     exec (.journalRead e dest first maxn) s =
       .next (((s.started r).writeBytes (keyOf dest.toNat) ((j :: js).flatMap Journal.bytes)).finish r.id .ok
         (leBytes 4 j.index ++ leBytes 4 (j :: js).length ++
           leBytes 4 ((((s.started r).q.journal.head?).map (·.index)).getD 1 - max first.toNat 1))))

/-- 03 R41, R42, R44: a doorbell of an enabled, error-free pair moves its tail or head when the index is in range, and
puts the pair in error (codes 1 and 5) when it is not; of a pair that does not exist, event 0x0003 is written; a pair
in error ignores it. 03 R39, R44: queue pair 0 is enabled with the fields of the write when they are valid, and its
indices, error and chain state start again; else it goes into error 4 with event 0x0002. Disabling it keeps its
fields. (That a base on another module counts as valid is the model's reading, log 18.) -/
def Obligations.HostQueueRows : Prop :=
  (∀ (s : State) (q : U16) (v : U64), s.working = true → q.toNat < 2048 →
     (∀ p, s.pair? q.toNat = some p → p.error = false → p.enable = true →
       exec (.sqTailDoorbell q v) s =
         (if v.toNat % 65536 < 2 ^ p.sqLog2 then
           .next (s.modPair q.toNat fun p => { p with sqTail := v.toNat % 65536 })
         else .next (s.pairError q.toNat 1 (v.toNat % 2 ^ 32))) ∧
       exec (.cqHeadDoorbell q v) s =
         (if p.headOk (v.toNat % 65536) then
           .next (s.modPair q.toNat fun p => { p with cqHead := v.toNat % 65536 })
         else .next (s.pairError q.toNat 5 (v.toNat % 2 ^ 32)))) ∧
     (∀ p, s.pair? q.toNat = some p → p.error = true →
       exec (.sqTailDoorbell q v) s = .next s ∧ exec (.cqHeadDoorbell q v) s = .next s) ∧
     (s.pair? q.toNat = none →
       exec (.sqTailDoorbell q v) s =
         .next (s.event 76 0x0003 (leBytes 1 2 ++ leBytes 1 1 ++ [0, 0] ++ leBytes 4 (8 * q.toNat) ++ leBytes 8 v.toNat)) ∧
       exec (.cqHeadDoorbell q v) s =
         .next (s.event 76 0x0003
           (leBytes 1 2 ++ leBytes 1 1 ++ [0, 0] ++ leBytes 4 (0x10000 + 8 * q.toNat) ++ leBytes 8 v.toNat)))) ∧
  (∀ (s : State) (ctrl : U64) (p : QPair), s.working = true → s.pair? 0 = some p → (∀ x ∈ s.q.pairs, x.id = 0 → x = p) →
     (p.enable = false → s.pair0Valid (p.withCtrl ctrl) = true →
       exec (.qp0Enable ctrl) s = .next (s.modPair 0 fun _ =>
         { p.withCtrl ctrl with enable := true, error := false, errCode := 0, sqHead := 0, cqTail := 0, sqTail := 0,
                                cqHead := 0, phase := true, chainOpen := false, chainFailed := false })) ∧
     (p.enable = false → s.pair0Valid (p.withCtrl ctrl) = false →
       ((p.withCtrl ctrl).job < 16 → s.jobTakesPair (p.withCtrl ctrl).job = false) →
       exec (.qp0Enable ctrl) s = .next ((s.modPair 0 fun _ =>
         { p.withCtrl ctrl with error := true, errCode := 4 }).event 76 0x0002 [0, 0, 4])) ∧
     (p.enable = true →
       exec (.qp0Disable ctrl) s = .next (s.modPair 0 fun p => { p with enable := false, sqTail := 0, cqHead := 0 }).settled) ∧
     (p.enable = false →
       exec (.qp0Disable ctrl) s = .next (s.modPair 0 fun p => p.withCtrl ctrl).settled))

/-! ### Host accesses to the event controller, MSI-X and memory -/

/-- 03 R63, 15 R359, R360: a write of EVC_PEND or EVC_MASK sets the word with its reserved bits zero; a bit of PEND
AND NOT MASK that rises, by a 1 in PEND or a 0 in MASK, sends its source's vector (of several, the lowest source's first, which is
the model's choice, log 151), and where none rises nothing else changes; EVC_ROUTE holds six bits a source; EVC_RING_SIZE takes N
when the rings it gives are this module's memory, else 0. -/
def Obligations.EventRegisters : Prop :=
  ∀ (s : State) (v : U64), s.working = true →
    (∃ t, exec (.evcPendWrite 0 v) s = .next t ∧ t.evc = { s.evc with pend0 := v } ∧
      (v &&& ~~~s.evc.mask0 &&& ~~~(s.evc.pend0 &&& ~~~s.evc.mask0) = 0 → t = { s with evc := t.evc }) ∧
      (∀ b, b < 64 → v = s.evc.pend0 ||| (1#64 <<< b) → s.evc.pend0.getLsbD b = false → s.evc.mask0.getLsbD b = false →
        s.msixSendable (s.evc.vector b) = true → ∃ m, s.cxl.entries.getD (s.evc.vector b) ⟨0, 0, 1⟩ = m ∧
          t.out = s.out ++ [.msix (s.evc.vector b) m.addr m.data])) ∧
    (∃ t, exec (.evcPendWrite 1 v) s = .next t ∧ t.evc.pend1 = v &&& 0x1FFF ∧ t.evc.pend0 = s.evc.pend0) ∧
    (∃ t, exec (.evcMaskWrite 0 v) s = .next t ∧ t.evc.mask0 = v ∧ t.evc.pend0 = s.evc.pend0) ∧
    (∃ t, exec (.evcMaskWrite 1 v) s = .next t ∧ t.evc.mask1 = v &&& 0x1FFF ∧ t.mem = s.mem) ∧
    (s.evc.wf = true → ∀ (w : BitVec 1) (n : Nat) (old val : U64), n = w.toNat → old = s.evc.pend n &&& ~~~(s.evc.mask n) →
      val = v &&& evcValid n →
      exec (.evcPendWrite w v) s = .next
        (((List.range 64).filter fun b => (val &&& ~~~(s.evc.mask n) &&& ~~~old).getLsbD b).foldl
          (fun u b => u.msix (s.evc.vector (64 * n + b)))
          { s with evc := if w = 0 then { s.evc with pend0 := val } else { s.evc with pend1 := val } }) ∧
      exec (.evcMaskWrite w v) s = .next
        (((List.range 64).filter fun b => (s.evc.pend n &&& ~~~val &&& ~~~old).getLsbD b).foldl
          (fun u b => u.msix (s.evc.vector (64 * n + b)))
          { s with evc := if w = 0 then { s.evc with mask0 := val } else { s.evc with mask1 := val } }) ∧
      (∀ b, b < 64 → (s.evc.pend n).getLsbD b = true → (s.evc.mask n).getLsbD b = true → v = s.evc.mask n &&& ~~~(1#64 <<< b) →
        s.msixSendable (s.evc.vector (64 * n + b)) = true → ∃ (t : State) (m : MsixEntry), exec (.evcMaskWrite w v) s = .next t ∧
          s.cxl.entries.getD (s.evc.vector (64 * n + b)) ⟨0, 0, 1⟩ = m ∧
          t.out = s.out ++ [.msix (s.evc.vector (64 * n + b)) m.addr m.data])) ∧
    (∀ k : BitVec 4, exec (.evcRouteWrite k v) s =
      .next { s with evc := { s.evc with route := s.evc.route.set k.toNat (v &&& 0x3F3F3F3F3F3F3F3F) } }) ∧
    exec (.evcRingSizeWrite v) s =
      .next { s with evc := { s.evc with ringN := if s.ringsOk (v.toNat % 8192) then v.toNat % 8192 else 0 } }

/-- 03 R61, R63: an event record of a source whose ring can be written stands in its slot with the next sequence
number, and raises the source's pending bit; with rings disabled the record is lost, its number is used up and no bit
rises. (That no bit rises while rings are disabled is the model's reading, log 20, DEDUCED: R61 says only that records are not
written and numbers advance.) -/
def Obligations.EventRecords : Prop :=
  ∀ (s : State) (src kind : Nat) (pl : List Byte), src < 77 → s.evc.seqs.length = 77 → s.mem.wf = true →
    s.grid.stackFailed = [] →
    (s.event src kind pl).evc.seqs = s.evc.seqs.set src ((s.evc.seqs.getD src 0 + 1) % 2 ^ 32) ∧
    (s.evc.ringN = 0 → (s.event src kind pl).evc.pend0 = s.evc.pend0 ∧ (s.event src kind pl).evc.pend1 = s.evc.pend1 ∧
      (s.event src kind pl).mem = s.mem ∧ (s.event src kind pl).out = s.out) ∧
    (s.slotOk (s.evc.slot src (s.evc.nextSeq src)) = true →
      (s.event src kind pl).mem = (s.writeBytes (keyOf (s.evc.slot src (s.evc.nextSeq src)))
        (leBytes 2 src ++ leBytes 2 kind ++ leBytes 4 (s.evc.nextSeq src) ++ leBytes 8 s.tmr.count ++ padTo 16 pl)).mem ∧
      (s.event src kind pl).evc.pend0 = (if src < 64 then s.evc.pend0 ||| (1#64 <<< src) else s.evc.pend0) ∧
      (s.event src kind pl).evc.pend1 =
        (if src < 64 then s.evc.pend1 else (s.evc.pend1 ||| (1#64 <<< (src - 64))) &&& 0x1FFF))

/-- 15 R356, R364, 07 R163, 14 R339: an MSI-X access changes its entry or the enables and lets pending messages go; before
stage 3 the control register answers with a retry; a decoder commits at its one size without interleave, else Error Not
Committed is set; a line of memory is read with the poison of its words, which the read checks first; a line is written where
it lies in memory, and a write into a hole is dropped and counted. (The model's choices: stage 3 for the retry, log 103; a
decoder's fields in units of 256 MiB, log 110; a dropped write is only counted, without a record, log 19.) -/
def Obligations.HostMemory : Prop :=
  ∀ (s : State), s.alive = true → s.boot.trivet = false →
    (∀ (v : BitVec 6) (x : U32), exec (.msixVectorUnmask (.dword v 3 x)) s =
      .next (s.setMsix v.toNat fun m => { m with ctrl := x &&& 1 }).msixFlush) ∧
    (∀ en fm : Bool, exec (.msixVectorUnmask (.control en fm)) s =
      .next (if s.boot.stage < 3 then { s with out := s.out ++ [.configRetry] }
        else ({ s with cxl := { s.cxl with enable := en, functionMask := fm } } : State).msixFlush)) ∧
    (∀ (d : BitVec 1) (base size : U64) (ways : Byte) (ok : Bool), s.cxl.hdmLen.length = 2 →
      ok = ((hdmBits size).toNat == hdmSize d.toNat && ways == 1) →
      exec (.hdmDecoderCommit d base size ways) s =
        .next { s with cxl := { s.cxl with
          hdmBase := s.cxl.hdmBase.set d.toNat (hdmBits base), hdmLen := s.cxl.hdmLen.set d.toNat (hdmBits size)
          hdmCommitted := s.cxl.hdmCommitted.set d.toNat ok, hdmError := s.cxl.hdmError.set d.toNat !ok } }) ∧
    (8 ≤ s.boot.stage → ∀ (d : BitVec 1) (off : U64), s.cxl.hdmCommitted.getD d.toNat false = true →
      off.toNat < hdmSize d.toNat → off.toNat % 64 = 0 →
      (∀ u : State, s.rangeOk (mkKey d.toNat off.toNat) 64 = true → u = s.touch (mkKey d.toNat off.toNat) 64 →
        exec (.hostMemRead d off) s =
          .next (u.send (.line (u.readBytes (mkKey d.toNat off.toNat) 64) (u.poisonedIn (mkKey d.toNat off.toNat) 64)))) ∧
      (∀ data : List Byte, data.length = 64 → s.rangeOk (mkKey d.toNat off.toNat) 64 = true →
        exec (.hostMemWrite d off data) s = .next (s.writeBytes (mkKey d.toNat off.toNat) data)) ∧
      (∀ data : List Byte, data.length = 64 → s.rangeOk (mkKey d.toNat off.toNat) 64 = false →
        exec (.hostMemWrite d off data) s = .next { s with evc := { s.evc with lost := s.evc.lost + 1 } }))

/-! ### Memory commands -/

/-- 07 R168, R169: MEM_ALLOC takes the lowest fitting extent of the job's grants, rounded up to 4 KiB, and returns its
GA; MEM_FREE frees the allocation it was bound to when nothing uses it, and returns its length. 07 R170, R177:
MEM_COPY, MEM_FILL and MEM_CONVERT start a transfer of their ranges, which moves nothing yet: COMMAND_TRANSFER_END is
the moment it ends. -/
def Obligations.MemoryCommandsStart : Prop :=
  (∀ (s : State) (e : Env) (r : CmdRec),
     (∀ (size : U64) (space job align : Byte) (j : Job) (k : Nat), Ready s (.memAlloc e size space job align) e r →
       (s.started r).job? job.toNat = some j →
       (s.started r).firstFit j space.toNat (alignUp size.toNat 4096) (max 4096 (2 ^ align.toNat)) = some k →
       exec (.memAlloc e size space job align) s =
         .next (((s.started r).modMem fun m =>
           { m with allocs := m.allocs ++ [⟨m.nextUid, j.num, k, alignUp size.toNat 4096⟩], nextUid := m.nextUid + 1 }).finish
           r.id .ok (leBytes 8 (s.ownChip * 2 ^ 52 + k)))) ∧
     (∀ (ga : U64) (a : Alloc), Ready s (.memFree e ga) e r →
       (s.started r).mem.allocs.find? (fun a => some a.uid == ((s.started r).rec? r.id).bind (·.alloc)) = some a →
       (s.started r).allocInUse a = false →
       exec (.memFree e ga) s =
         .next (((s.started r).modMem fun m => { m with allocs := m.allocs.filter fun b => b.uid != a.uid }).finish
           r.id .ok (leBytes 8 a.len)))) ∧
  (∀ (s : State) (e : Env) (r : CmdRec),
     (∀ (src dst len : U64) (a b : Nat), Ready s (.memCopy e src dst len) e r → len ≠ 0 →
       (s.started r).heldAddr e src.toNat len.toNat true false = some a →
       (s.started r).heldAddr e dst.toNat len.toNat false true = some b →
       (s.started r).sramBusy a len.toNat = false → (s.started r).sramBusy b len.toNat = false →
       exec (.memCopy e src dst len) s =
         .next ((s.started r).modRec r.id fun x => { x with xfer := some (.copy a b len.toNat) })) ∧
     (∀ (dst len pat : U64) (b : Nat), Ready s (.memFill e dst len pat) e r → len ≠ 0 →
       (s.started r).heldAddr e dst.toNat len.toNat false true = some b → (s.started r).sramBusy b len.toNat = false →
       exec (.memFill e dst len pat) s =
         .next ((s.started r).modRec r.id fun x => { x with xfer := some (.fill b len.toNat pat) })) ∧
     (∀ (src dst len desc : U64) (a b : Nat) (u : State), Ready s (.memConvert e src dst len desc) e r → len ≠ 0 →
       (s.started r).heldAddr e src.toNat len.toNat true false = some a → (s.started r).heldAddr e dst.toNat 1 false true = some b →
       u = (if (Desc.of desc.toNat).mode = 2 then (s.started r).touch a 16 else s.started r) →
       u.sramBusy a len.toNat = false → u.sramBusy b (u.convertLen (Desc.of desc.toNat) a len.toNat) = false →
       u.unitFailed 3 (mandolineOf a b) = false →
       exec (.memConvert e src dst len desc) s =
         .next (u.modRec r.id fun x => { x with xfer := some (.convert a b len.toNat desc) })))

/-- 07 R170, R172, R177, 06 R156, 13 R314: the end of a transfer. The words it reads are checked first (13 R316-R318). A
copy moves its bytes and carries poison; a fill puts the pattern at every multiple of 8; a conversion writes what its
descriptor makes of the source and counts in the totals; each completes with what it moved. A conversion whose Mandoline
instance has failed meanwhile ends HW_FAULT with free bytes in its destination (the effects it had, log 109) and nothing else
changed. -/
def Obligations.TransfersEnd : Prop :=
  ∀ (s u : State) (id : Nat) (r : CmdRec), s.running = true → s.rec? id = some r → r.phase = .running →
    (∀ src dst len : Nat, r.xfer = some (.copy src dst len) → u = s.touchAll [(src, len)] →
      u.xferOf id = some (r, .copy src dst len) → exec (.commandTransferEnd id) s =
      .next ((u.writeMarked dst (u.readBytes src len) (u.poisonOffsets src len)).finish id
        (if u.poisonedIn src len then .okPoisoned else .ok) (leBytes 8 len))) ∧
    (∀ (dst len : Nat) (pat : U64), r.xfer = some (.fill dst len pat) → exec (.commandTransferEnd id) s =
      .next ((s.writeBytes dst ((List.range len).map fun i => BitVec.ofNat 8 (pat.toNat / 2 ^ (8 * (i % 8))))).finish id .ok
        (leBytes 8 len))) ∧
    (∀ (src dst len : Nat) (desc : U64), r.xfer = some (.convert src dst len desc) → u = s.touchAll [(src, len)] →
      u.xferOf id = some (r, .convert src dst len desc) →
      (∀ o : ConvOut, u.unitFailed 3 (mandolineOf src dst) = false →
        u.runDesc desc.toNat src len = .ok o → u.decodeFits r o.bytes.length = true →
        exec (.commandTransferEnd id) s =
          .next (((u.writeMarked dst o.bytes o.marks).countConv o).finish id (if o.poisoned then .okPoisoned else .ok)
            (leBytes 8 o.bytes.length ++ leBytes 4 (min (2 ^ 32 - 1) o.sat) ++ leBytes 4 (min (2 ^ 32 - 1) o.nanOut)))) ∧
      (u.unitFailed 3 (mandolineOf src dst) = true → ∀ n, n = u.convertLen (Desc.of desc.toNat) src len →
        exec (.commandTransferEnd id) s =
          .next ((u.scribble dst (if u.decodeFits r n = true then n else 0)).finish id .hwFault)))

/-- 07 R170, R172: after a copy each destination byte is its source byte, every byte outside the destination is as
before, and a word of the destination in HBM, DDR or SRAM is poisoned when one of its bytes came from a poisoned word.
-/
def Obligations.CopyMovesBytes : Prop :=
  ∀ (s : State) (src dst len : Nat), s.mem.wf = true → s.grid.stackFailed = [] → s.mem.hostDead = [] →
    (∀ i, i < len → (s.copyRange src dst len).readByte (dst + i) = s.readByte (src + i)) ∧
    (∀ a, (a < dst ∨ dst + len ≤ a) → (s.copyRange src dst len).readByte a = s.readByte a) ∧
    ∀ i, i < len → spaceOf (dst + i) ≠ 3 → s.mem.poisonedAt (src + i) = true → (s.copyRange src dst len).mem.poisonedAt (dst + i) = true

/-! ### Timer -/

/-- 02 R20, R28, R32: a tick adds one to the count modulo 2^64, takes over a written limit and evaluates the lock
state; then waiting commands that are due launch in the order of their fetch, and what else falls due at the tick
happens. In Trivet only the count goes on. (The model's readings: the order of launches within a tick, and barriers that are
not full at their tick, log 113; the count that goes on in Trivet, log 63.) -/
def Obligations.TickAdvances : Prop :=
  ∀ s : State, s.alive = true →
    (s.boot.trivet = true → exec .timerTick s =
      .next { s with tmr := { s.tmr with count := (s.tmr.count + 1) % 2 ^ 64, elapsed := s.tmr.elapsed + 1 } }) ∧
    (s.boot.trivet = false → s.q.recs = [] → s.q.barriers = [] → s.fab.invs = [] → s.boot.stage ≠ 9 →
      (∀ p ∈ s.q.pairs, p.closing = none ∧ (p.enable = true ∨ (p.sqHead = 0 ∧ p.cqTail = 0))) →
      s.tmr.lock = .unlocked →
      exec .timerTick s = .next { s with tmr := { s.tmr with count := (s.tmr.count + 1) % 2 ^ 64, elapsed := s.tmr.elapsed + 1
                                                             limit := s.tmr.limitNext.getD s.tmr.limit, limitNext := none } }) ∧
    (s.boot.trivet = false → exec .timerTick s =
      .next (((s.tickCount.dueRecs.map (·.id)).foldl State.launchRec s.tickCount).lateBarriers.exchangeTick.identityTick.phaseTick.katTick))

/-- 15 R361. A write of TMR_HOLDOVER_LIMIT waits for the next tick; the tick applies it; a follower in HOLDOVER whose
last good marker is further back than the new limit enters UNLOCKED at that tick: the pending tick-launched commands
complete TIME_UNLOCKED (R32) and none is left pending. -/
def Obligations.HoldoverLimit : Prop :=
  ∀ (s : State) (v : U64), s.working = true →
    exec (.tmrHoldoverLimitWrite v) s =
      .next { s with tmr := { s.tmr with limitNext := some (v.toNat % 2 ^ 40) } } ∧
    (∀ n, s.tmr.limitNext = some n → s.tickCount.tmr.limit = n ∧ s.tickCount.tmr.limitNext = none) ∧
    (∀ n g, s.tmr.limitNext = some n → s.tmr.role = .follower → s.tmr.lock = .holdover → s.tmr.lastGood = some g →
      n < s.tmr.elapsed + 1 - g →
      s.tickCount.tmr.lock = .unlocked ∧ s.tickCount.pendingLaunches = [] ∧
      (s.q.barriers = [] → ∃ u : State, u.q = s.q ∧
        s.tickCount.q = (u.finishAll (s.pendingLaunches.map fun id => (id, .timeUnlocked, []))).q))

/-- 02 R25-R27, Table 2.3: a beat's marker goes out on every port that is UP and names master and count; a good marker
sets an UNLOCKED follower's count and locks it to the port; a marker that names another master is counted; a lost
upstream port is replaced by the best other port; without good markers for 100 beats a LOCKED follower enters
HOLDOVER, and past its limit UNLOCKED. 02 R22, R23: the MARK edge ends a waiting TMR_MASTER_SET with the loaded count;
an edge off the 1 s raster of a master on reference is reported; TREF's loss and return set and clear REF_LOST of a
master on reference with event 0x002A; a command without an edge for 2 s ends CHECK_FAILED 0x00E0. -/
def Obligations.TimerRows : Prop :=
  (∀ s : State, s.running = true →
     (s.tmr.isMaster = true → s.tmr.count % 1024 = 0 →
       exec .timeMarkerSend s = .next { s with
         out := s.out ++ s.link.upPorts.map fun p => Out.frame p (withCrc
           (leBytes 1 0x31 ++ leBytes 1 (3 + (if s.tmr.refLost then 4 else 0)) ++ [0] ++ [0] ++ leBytes 2 s.tmr.master ++
             leBytes 2 s.ownChip ++ leBytes 8 s.tmr.count)) }) ∧
     (∀ (port : BitVec 4) (sub : BitVec 4) (body : BitVec 128) (crc : U32) (m : Marker), s.tmr.role = .follower →
       s.tmr.lock = .unlocked → s.tmr.upstream = none → crcGood (markerFrame body crc) = true → m = Marker.of (markerFrame body crc) →
       s.markerGood port.toNat true m = true →
       ∃ t, exec (.timeMarker port sub body crc) s = .next t ∧ t.tmr.lock = .locked ∧ t.tmr.upstream = some port.toNat ∧
         t.tmr.hops = m.hops.toNat + 1 ∧ t.tmr.refLost = m.refLost ∧
         t.tmr.count = (16 * m.count.toNat + ((s.link.ports[port.toNat]?).map (·.delay)).getD 0 + 8) / 16) ∧
     (∀ (port : BitVec 4) (sub : BitVec 4) (body : BitVec 128) (crc : U32) (m : Marker) (p : Port), s.tmr.role = .follower →
       s.tmr.named = true → s.link.ports[port.toNat]? = some p → crcGood (markerFrame body crc) = true →
       m = Marker.of (markerFrame body crc) → m.kind = 0x31 → m.master.toNat ≠ s.tmr.master →
       ∃ t, exec (.timeMarker port sub body crc) s = .next t ∧ t.tmr.ignored = min (2 ^ 32 - 1) (s.tmr.ignored + 1) ∧
         t.tmr.count = s.tmr.count) ∧
     (∀ u m, s.tmr.role = .follower → s.tmr.upstream = some u → s.tmr.ports.find? (fun x => x.port == u) = some m →
       m.lastGood + 2048 ≤ s.tmr.elapsed →
       ∃ t, exec .markerMiss s = .next t ∧ t.tmr.upstream = (s.tmr.bestPort u).map (·.port) ∧ t.tmr.count = s.tmr.count) ∧
     (s.tmr.starved = true → s.tmr.limit ≠ 0 →
       exec .holdoverEntry s = .next (({ s with tmr := { s.tmr with lock := .holdover, refLost := false } } : State).timerEvent
         .holdover .locked)) ∧
     (s.tmr.expired = true → ∃ t, exec .holdoverLimitExpiry s = .next t ∧ t.tmr.lock = .unlocked ∧ t.tmr.alarms = [] ∧
       t.pendingLaunches = [])) ∧
  (∀ s : State, s.working = true →
     (s.tmr.trefPresent = true → s.tmr.waits ≠ [] →
       exec .markEdge s = .next (s.tmr.waits.foldl (fun u w => (u.takeMaster .masterRef w.master w.init).finish w.cmd .ok)
         { s with tmr := { s.tmr with waits := [] } })) ∧
     (s.tmr.trefPresent = true → s.tmr.waits = [] → s.tmr.role = .masterRef → s.tmr.refLost = false →
       s.tmr.loadCount = 0 → s.tmr.count % 100000000 ≠ 0 →
       exec .markEdge s = .next (s.event 75 0x002A ([1, 0, 0, 0, 0, 0, 0, 0] ++ leBytes 8 s.tmr.count))) ∧
     (s.tmr.trefPresent = true → s.tmr.role = .masterRef →
       exec .trefLost s = .next (({ s with tmr := { s.tmr with trefPresent := false, refLost := true } } : State).event 75
         0x002A ([2, 0, 0, 0, 0, 0, 0, 0] ++ leBytes 8 s.tmr.count))) ∧
     (s.tmr.trefPresent = false → s.tmr.role = .masterRef → s.tmr.refLost = true →
       exec .trefRestored s = .next (({ s with tmr := { s.tmr with trefPresent := true, refLost := false } } : State).event 75
         0x002A ([3, 0, 0, 0, 0, 0, 0, 0] ++ leBytes 8 s.tmr.count))) ∧
     (∀ w ws, s.tmr.waits = w :: ws → w.start + 200000000 ≤ s.tmr.elapsed →
       exec .tmrMasterSetTimeout s = .next (({ s with tmr := { s.tmr with waits := ws } } : State).finish w.cmd .checkFailed
         [0xE0, 0, 0, 0, 0, 0, 0, 0])))

/-- 02 R22, R36: TMR_MASTER_SET names the master: a follower starts UNLOCKED, a free master takes the count at once, a
master on reference waits for a MARK edge, its record queued and not completed; TMR_ALARM arms a free slot or cancels one; an alarm fires with its slot and
tick and, with a period, is armed again. -/
def Obligations.TimerCommandsComplete : Prop :=
  ∀ (s : State) (e : Env) (r : CmdRec),
    (∀ (m : BitVec 12), Ready s (.tmrMasterSet e 0 m 0) e r → exec (.tmrMasterSet e 0 m 0) s =
      .next (((s.started r).enterUnlocked.modTmr fun t =>
        { t with role := .follower, named := true, master := m.toNat, lastGood := none }).finish r.id .ok)) ∧
    (∀ (m : BitVec 12) (init : U64), Ready s (.tmrMasterSet e 2 m init) e r →
      ∃ u : State, exec (.tmrMasterSet e 2 m init) s = .next (u.finish r.id .ok) ∧
        u = (s.started r).takeMaster .masterFree m.toNat init.toNat ∧ u.tmr.count = init.toNat ∧
        u.tmr.role = .masterFree ∧ u.tmr.master = m.toNat ∧ u.tmr.named = true ∧ u.tmr.lock = .locked ∧ u.tmr.alarms = []) ∧
    (∀ (m : BitVec 12) (init : U64), Ready s (.tmrMasterSet e 1 m init) e r → ∃ u : State,
      exec (.tmrMasterSet e 1 m init) s = .next u ∧
      u = (s.started r).modTmr (fun t => { t with waits := t.waits ++ [⟨r.id, m.toNat, init.toNat, t.elapsed⟩] }) ∧
      (s.rec? r.id = some r → ∃ x, u.rec? r.id = some x ∧ x.phase = .running ∧ x.cmd = .tmrMasterSet e 1 m init)) ∧
    (∀ (slot : Byte) (first period : U64), Ready s (.tmrAlarm e slot 0 first period) e r →
      (∀ a ∈ s.tmr.alarms, a.slot ≠ slot.toNat) → exec (.tmrAlarm e slot 0 first period) s =
      .next (((s.started r).modTmr fun t =>
        { t with alarms := t.alarms ++ [⟨slot.toNat, first.toNat, period.toNat⟩] }).finish r.id .ok)) ∧
    (∀ (slot : Byte), Ready s (.tmrAlarm e slot 1 0 0) e r → exec (.tmrAlarm e slot 1 0 0) s =
      .next (((s.started r).modTmr fun t =>
        { t with alarms := t.alarms.filter fun a => a.slot != slot.toNat }).finish r.id .ok)) ∧
    (∀ (slot : BitVec 4) (a : Alarm), s.working = true → s.tmr.alarms = [a] → a.slot = slot.toNat → a.next ≤ s.tmr.count →
      exec (.alarmFire slot) s = .next (({ s with tmr := { s.tmr with
          alarms := if a.period = 0 then [] else [{ a with next := a.next + a.period }] } } : State).event 75 0x0028
        (leBytes 1 a.slot ++ [0, 0, 0, 0, 0, 0, 0] ++ leBytes 8 a.next)))

/-! ### Steps of a core -/

/-- 04 R75, R78, 06 R135-R141: MMA and MMA_BT that may fire pop their queues and put A·B, or A·Bᵀ, into their
accumulator in the fixed order, count FLUSH, and go on; each chunk at which the residues differ and that the Sieve compares
is reported on top (13 R311). -/
def Obligations.MatrixSteps : Prop :=
  ∀ (s : State) (core : Nat) (t : Site) (w : SW) (a b : Tile), t.fire w = .go [a, b] →
    ∀ (u : State) (op : Nat) (bt : Bool), s.stepOf core op = some (t, w) →
      u = ((s.popIqs core w.pops).setAcc core w.acc w.clr fun acc => (mmaAcc bt w.clr w.passes a b acc).1).countArith t.x
        ⟨0, (mmaAcc bt w.clr w.passes a b (t.x.accs.getD w.acc Acc.empty)).2, 0, 0⟩ →
      (op = 0x01 → bt = false → exec (.mma core []) s = .next (u.again t w)) ∧
      (op = 0x02 → bt = true → exec (.mmaBt core []) s = .next (u.again t w)) ∧
      ∀ (sieve : List Nat) (n : Nat), n = sieveHits bt w.clr w.passes a b (t.x.accs.getD w.acc Acc.empty) sieve →
        (op = 0x01 → bt = false → exec (.mma core sieve) s = .next ((u.sieveMismatches core w.acc n).again t w)) ∧
        (op = 0x02 → bt = true → exec (.mmaBt core sieve) s = .next ((u.sieveMismatches core w.acc n).again t w))

/-- 04 R78, 06 R138: outside its region an accumulator keeps its values without CLR and holds +0 with CLR; the region
is the one it had, or with CLR the rows of A by the columns of B (by the rows of B for MMA_BT); inside it an element
without products keeps its value, and with CLR holds +0. -/
def Obligations.MatrixRegion : Prop :=
  ∀ (bt clr : Bool) (passes : Nat) (a b : Tile) (acc : Acc) (i j : Nat), i < 32 → j < 32 →
    (mmaAcc bt clr passes a b acc).1.vrows = (if clr then a.hdr.vrows else acc.vrows) ∧
    (mmaAcc bt clr passes a b acc).1.vcols = (if clr then (if bt then b.hdr.vrows else b.hdr.vcols) else acc.vcols) ∧
    (¬ (i < (mmaAcc bt clr passes a b acc).1.vrows ∧ j < (mmaAcc bt clr passes a b acc).1.vcols) →
      (mmaAcc bt clr passes a b acc).1.at i j = if clr then 0 else acc.at i j) ∧
    (min a.hdr.vcols (if bt then b.hdr.vcols else b.hdr.vrows) = 0 →
      (mmaAcc bt clr passes a b acc).1.at i j = if clr then 0 else acc.at i j)

/-- 04 Table 4.6, 06 R151-R155: VEC1, VEC2, VECACC and RED that may fire write their element results to the
accumulator (VEC1 and VEC2: to it or to the output queues), over the region of their operands, with their counts. -/
def Obligations.VectorSteps : Prop :=
  ∀ (s : State) (core : Nat) (t : Site) (w : SW) (a b : Tile),
    (s.stepOf core 0x03 = some (t, w) → t.fire w = .go [a] →
      exec (.vec1 core) s = .next (((s.popIqs core w.pops).vecWrite t w
        (vecOver a.hdr.vrows a.hdr.vcols a.hdr.trow a.hdr.tcol (badTile a) fun i j =>
          ((ftz w.ftz (vecUnary w.sub (vecOperand a i j).1)).1, (vecOperand a i j).2.1,
            (vecOperand a i j).2.2 + flushOf (ftz w.ftz (vecUnary w.sub (vecOperand a i j).1))))).again t w)) ∧
    (s.stepOf core 0x04 = some (t, w) → t.fire w = .go [a, b] →
      exec (.vec2 core) s = .next (((s.popIqs core w.pops).vecWrite t w
        (vecOver (min a.hdr.vrows b.hdr.vrows) (min a.hdr.vcols b.hdr.vcols) a.hdr.trow a.hdr.tcol (badTile a || badTile b)
          fun i j =>
          ((ftz w.ftz (vecBinary w.sub (vecOperand a i j).1 (vecOperand b i j).1)).1,
            (vecOperand a i j).2.1 + (vecOperand b i j).2.1,
            (vecOperand a i j).2.2 + (vecOperand b i j).2.2 +
              flushOf (ftz w.ftz (vecBinary w.sub (vecOperand a i j).1 (vecOperand b i j).1))))).again t w)) ∧
    (s.stepOf core 0x05 = some (t, w) → t.fire w = .go [b] →
      ∃ o : VecOut, o = vecOver (min (t.x.accs.getD w.acc Acc.empty).vrows b.hdr.vrows)
          (min (t.x.accs.getD w.acc Acc.empty).vcols b.hdr.vcols) b.hdr.trow b.hdr.tcol (badTile b) (fun i j =>
            ((ftz w.ftz (vecBinary w.sub ((t.x.accs.getD w.acc Acc.empty).at i j) (vecOperand b i j).1)).1, (vecOperand b i j).2.1,
              (vecOperand b i j).2.2 +
                flushOf (ftz w.ftz (vecBinary w.sub ((t.x.accs.getD w.acc Acc.empty).at i j) (vecOperand b i j).1)))) ∧
        o.vr = min (t.x.accs.getD w.acc Acc.empty).vrows b.hdr.vrows ∧
        o.vc = min (t.x.accs.getD w.acc Acc.empty).vcols b.hdr.vcols ∧ o.poison = badTile b ∧ o.tr = b.hdr.trow ∧
        o.tc = b.hdr.tcol ∧
        (∀ i j, i < 32 → j < 32 → o.data.getD (32 * i + j) 0 = if i < o.vr ∧ j < o.vc then
          (ftz w.ftz (vecBinary w.sub ((t.x.accs.getD w.acc Acc.empty).at i j) (vecOperand b i j).1)).1 else 0) ∧
        exec (.vecacc core) s = .next (((((s.popIqs core w.pops).countArith t.x ⟨o.sat, o.flush, 0, 0⟩).setAcc core w.acc false
          fun _ => o.asAcc)).again t w)) ∧
    (s.stepOf core 0x06 = some (t, w) → t.fire w = .go [a] →
      exec (.red core) s = .next ((((s.popIqs core w.pops).setAcc core w.acc false fun acc => (redAcc w.sub a acc).1).countArith
        t.x (redAcc w.sub a (t.x.accs.getD w.acc Acc.empty)).2).again t w))

/-- 04 Table 4.6, R378, 06 R149: CVT and EMIT convert a tile or an accumulator and put it on the output queues, MOVE
puts the tile there as it is, DROP discards it. 04 R76: a tile step whose queue has an end-of-stream at its head does
not fire: the length mismatch is counted and the context faults. A step that lacks a tile or room waits. -/
def Obligations.OutputSteps : Prop :=
  (∀ (s : State) (core : Nat) (t : Site) (w : SW) (ts : List Tile) (a : Tile), t.fire w = .go ts →
     (s.stepOf core 0x07 = some (t, w) → ts = [a] → ∀ y cnt,
       makeTile w.ofmt w.osch a.hdr.vrows a.hdr.vcols a.hdr.trow a.hdr.tcol (cvtScale a.hdr) (badTile a) a.val = (y, cnt) →
       exec (.cvt core) s = .next ((((s.popIqs core w.pops).countArith t.x cnt).pushOqs core w.outs y).again t w)) ∧
     (s.stepOf core 0x08 = some (t, w) → ∀ y cnt acc, t.x.accs.getD w.acc Acc.empty = acc →
       makeTile w.ofmt w.osch acc.vrows acc.vcols acc.trow acc.tcol 0x3F800000 acc.poison (fun i j => fp32 (acc.at i j)) =
         (y, cnt) →
       exec (.emit core) s = .next ((((s.popIqs core w.pops).countArith t.x cnt).pushOqs core w.outs y).again t w)) ∧
     (s.stepOf core 0x09 = some (t, w) → ts = [a] →
       exec (.move core) s = .next (((s.popIqs core w.pops).pushOqs core w.outs a).again t w)) ∧
     (s.stepOf core 0x0A = some (t, w) → exec (.drop core) s = .next ((s.popIqs core w.pops).again t w))) ∧
  (∀ (s : State) (core : Nat) (t : Site) (w : SW),
     (∀ sieve : List Nat, s.stepOf core 0x01 = some (t, w) →
       (t.fire w = .mismatch → exec (.mma core sieve) s =
         .next ((s.countCore t.x { StCnt.zero with lenMismatch := 1 }).faultCore t.x .fault)) ∧
       (t.fire w = .wait → exec (.mma core sieve) s = .next s)) ∧
     (s.stepOf core 0x09 = some (t, w) →
       (t.fire w = .mismatch → exec (.move core) s =
         .next ((s.countCore t.x { StCnt.zero with lenMismatch := 1 }).faultCore t.x .fault)) ∧
       (t.fire w = .wait → exec (.move core) s = .next s)))

/-- 04 R80, R81, Table 4.6, 12 R291: ONEOS branches when every named queue has an end-of-stream at its head and goes
on when none has; JUMP goes to its target; LDC sets a loop counter and LOOP counts it down; PHASE sets the
invocation's token, unless at the same tick a token with a faster OP_PREF did; EOSOUT puts an end-of-stream on its queues; END ends the core's program. 04 R90, R91: TICKET asks
the rail's core under a fresh number; a request not seen before, when its packet has arrived, draws the counter, which
advances modulo 2^32 (the model's choice, log 119), and a repeated one gets its old value again; the reply, when its packet has
arrived, writes TK below the limit and branches at it. -/
def Obligations.ControlSteps : Prop :=
  (∀ (s : State) (core : Nat) (t : Site) (w : SW),
     (s.stepOf core 0x10 = some (t, w) →
       ((∀ q ∈ w.ins, ∃ h, t.head q = some h ∧ h.hdr.kind = 1) →
         exec (.oneos core) s = .next ((s.popIqs core w.ins).goto t w.tgt)) ∧
       (w.ins ≠ [] → (∀ q ∈ w.ins, ∃ h, t.head q = some h ∧ h.hdr.kind ≠ 1) →
         exec (.oneos core) s = .next (s.goto t (t.x.pc + 1)))) ∧
     (s.stepOf core 0x11 = some (t, w) → exec (.jump core) s = .next (s.goto t w.tgt)) ∧
     (s.stepOf core 0x12 = some (t, w) → exec (.ldc core) s = .next ((s.modCore core fun x =>
       { x with loops := x.loops.set (w.imm % 4) (256 * w.repeat_ + w.sub + 1) }).goto t (t.x.pc + 1))) ∧
     (s.stepOf core 0x13 = some (t, w) → ∀ c, t.x.loops.getD (w.imm % 4) 0 = c + 1 →
       exec (.loop core) s = .next ((s.modCore core fun x => { x with loops := x.loops.set (w.imm % 4) c }).goto t
         (if c = 0 then t.x.pc + 1 else w.tgt))) ∧
     (s.stepOf core 0x15 = some (t, w) → exec (.phase core) s =
       .next (((s.modInv t.i.id fun v =>
         if v.phaseAt = some s.tmr.elapsed ∧ s.pwr.opPref v.phaseTok < s.pwr.opPref (w.imm % 16) then v
         else { v with phaseTok := w.imm % 16, phaseAt := some s.tmr.elapsed }).trace 6 t.c.id
         (leBytes 1 (w.imm % 16) ++ [0] ++ leBytes 2 t.x.station)).goto t (t.x.pc + 1))) ∧
     (s.stepOf core 0x16 = some (t, w) → w.outs.all t.roomIn = true → exec (.eosout core) s =
       .next ((w.outs.foldl (fun s q => s.pushEos t q) s).goto t (t.x.pc + 1))) ∧
     (s.stepOf core 0x17 = some (t, w) → exec (.endStep core) s =
       .next (s.modCore core fun x => { x with ended := true, rep := 0 }))) ∧
  (∀ (s : State) (core : Nat) (t : Site) (w : SW),
     (s.stepOf core 0x14 = some (t, w) → exec (.ticket core) s =
       .next ((s.modCore core fun x => { x with
         ticket := some ⟨w.imm % 16, (t.x.ticketNo (w.imm % 16) + 1) % 256, none⟩
         ticketNos := (x.ticketNos.filter fun p => p.1 != w.imm % 16) ++
           [(w.imm % 16, (t.x.ticketNo (w.imm % 16) + 1) % 256)] }).sendService 0 core
         (((t.im.rails[w.imm % 16]?).map (·.core)).getD core)
         (.ticketRequest core (w.imm % 16) ((t.x.ticketNo (w.imm % 16) + 1) % 256)))) ∧
     (∀ (rail no : Nat) (q : TicketReq) (r : Rail) (k : RailEnt), s.site core = some t → t.x.ticket = some q → q.rail = rail →
       q.reqNo = no → (∀ p ∈ s.fab.svc, p.load ≠ .ticketRequest core rail no) → s.fab.rails = [r] → r.inv = t.i.id →
       r.rail = rail → t.im.rails[rail]? = some k →
       (r.tags.find? (fun g => g.1 == core && g.2.1 == no) = none →
         exec (.ticketRequest core rail no) s = .next (((s.modFab fun f => { f with
           rails := [{ r with counter := (r.counter + k.inc) % 2 ^ 32,
                              tags := (r.tags.filter fun g => g.1 != core) ++ [(core, no, r.counter)] }] }).modCore core fun x =>
           { x with ticket := some ⟨rail, no, some r.counter⟩ }).sendService 0 k.core core (.ticketReply core rail no))) ∧
       (∀ v, r.tags.find? (fun g => g.1 == core && g.2.1 == no) = some (core, no, v) →
         exec (.ticketRequest core rail no) s =
           .next ((s.modCore core fun x => { x with ticket := some ⟨rail, no, some v⟩ }).sendService 0 k.core core
             (.ticketReply core rail no)))) ∧
     (∀ (v limit rail no : Nat) (ws : List U64) (word : U64), s.site core = some t → t.x.ticket = some ⟨rail, no, some v⟩ →
       (∀ p ∈ s.fab.svc, p.load ≠ .ticketReply t.x.idx rail no) →
       t.im.stepProg? t.st.stepProg = some ws → ws[t.x.pc]? = some word → w = SW.of word.toNat →
       limit = ((((t.x.engines[bits w.sub 3 2]?).map (·.pool)).getD []).getD (w.imm / 16) 0).toNat % 2 ^ 32 →
       exec (.ticketReply core) s =
         if v < limit then
           .next (((s.modCore core fun x => { x with ticket := none }).modCore core fun x => { x with
             tickets := x.tickets.set (w.sub % 4) v, drawn := x.drawn.modify (w.sub % 4) fun d => (d.1 + 1, d.2) }).goto t
             (t.x.pc + 1))
         else .next ((s.modCore core fun x => { x with ticket := none }).goto t w.tgt)))

/-! ### Stream engines -/

/-- 04 R82-R85: the engine instructions that set a register of the engine, and WAIT, SIGNAL, JUMP and ENDP: each
changes what it names and goes on to the next instruction (JUMP to its target; ENDP ends the program). -/
def Obligations.EngineInstructions : Prop :=
  ∀ (s : State) (core n : Nat) (t : Site) (e : Engine) (w : Nat),
    (s.instrOf core n 1 = some (t, e, w) → siLvl w = 0 → exec (.ldb core n) s =
      .next (s.modEngine core n fun _ => { e with base := e.word (siPool w), ip := e.ip + 1 })) ∧
    (s.instrOf core n 1 = some (t, e, w) → siLvl w = 2 → exec (.ldb core n) s =
      .next (s.modEngine core n fun _ => { e with dlen := e.word (siPool w), ip := e.ip + 1 })) ∧
    (s.instrOf core n 2 = some (t, e, w) → exec (.streamLoop core n) s =
      .next (s.modEngine core n fun _ => { e with counts := e.counts.set (siLvl w) (bits w 23 0 + 1), ip := e.ip + 1 })) ∧
    (s.instrOf core n 3 = some (t, e, w) → exec (.stride core n) s =
      .next (s.modEngine core n fun _ =>
        { e with strides := e.strides.set (siLvl w) (signed 64 (e.word (siPool w))), ip := e.ip + 1 })) ∧
    (s.instrOf core n 4 = some (t, e, w) → exec (.shape core n) s =
      .next (s.modEngine core n fun _ => { e with
        rowLvl := siLvl w, colLvl := bits w 24 22, rows := e.word (siPool w) % 2 ^ 32, cols := e.word (siPool w) / 2 ^ 32,
        shapePool := siPool w, ip := e.ip + 1 })) ∧
    (s.instrOf core n 5 = some (t, e, w) → exec (.fmt core n) s =
      .next (s.modEngine core n fun _ => { e with
        fmt := bits w 27 24, scheme := bits w 23 22, pad := bits w 21 20, transposed := bit w 19, rowMajor := bit w 18,
        ip := e.ip + 1 })) ∧
    (s.instrOf core n 6 = some (t, e, w) → exec (.gather core n) s =
      .next (s.modEngine core n fun _ => { e with
        gathers := (e.gathers.filter fun g => g.level != siLvl w) ++ [⟨siLvl w, bits w 24 23, bit w 22, e.word (siPool w)⟩],
        ip := e.ip + 1 })) ∧
    (s.instrOf core n 7 = some (t, e, w) → exec (.wait core n) s =
      if bits w 15 0 ≤ t.x.syncs.getD (siLvl w) 0 then
        .next ((s.modCore core fun x => { x with syncs := x.syncs.modify (siLvl w) (· - bits w 15 0) }).modEngine core n fun _ =>
          { e with ip := e.ip + 1 })
      else .next s) ∧
    (s.instrOf core n 8 = some (t, e, w) → exec (.signal core n) s =
      .next ((s.modCore core fun x =>
        { x with syncs := x.syncs.modify (siLvl w) (fun a => min (2 ^ 16 - 1) (a + bits w 15 0)) }).modEngine core n fun _ =>
          { e with ip := e.ip + 1 })) ∧
    (s.instrOf core n 10 = some (t, e, w) → exec (.streamJump core n) s =
      .next (s.modEngine core n fun _ => { e with ip := bits w 5 0 })) ∧
    (s.instrOf core n 11 = some (t, e, w) → exec (.endp core n) s = .next (s.modEngine core n fun _ => { e with ended := true }))

/-- 04 R83-R88: RUN starts its loop nest; one iteration without a wait and without gathers reads a tile from memory
into its input queue (mode 0), writes the tile at the head of its output queue to memory (mode 1), or copies a block
(mode 2), and advances the nest; the words it reads are checked first (13 R316-R318); at the nest's end an EOS goes into
the queue. -/
def Obligations.EngineRuns : Prop :=
  ∀ (s : State) (core n : Nat) (t : Site) (e : Engine) (w : Nat),
    (s.instrOf core n 9 = some (t, e, w) → (siMode w ≠ 2 ∨ e.blocksOk = true) →
      ∃ r : RunSt, r.mode = siMode w ∧ r.queue = siQueue w ∧ r.n = 0 ∧ r.idx = [0, 0, 0, 0, 0, 0] ∧ r.waited = false ∧
        exec (.run core n) s = .next (s.modEngine core n fun _ => { e with run := some r })) ∧
    (∀ (r : RunSt) (s0 : State) (t0 : Site) (e0 : Engine), s0.engineOf core n = some (t0, e) → e.run = some r →
      r.waitEn = false → e.gathers = [] → r.idx ≠ [] → s = s0.iterTouch core n { r with waited := true } →
      s.engineOf core n = some (t, e0) → t.x.idx = core →
      (∀ tile, r.mode = 0 → t.feedRoom r.queue = true →
        validAt e.rows (e.tileAt r).1 ≠ 0 → validAt e.cols (e.tileAt r).2 ≠ 0 →
        s.readTile t n e { r with waited := true } r.queue (validAt e.rows (e.tileAt r).1)
          (validAt e.cols (e.tileAt r).2) (t.x.fed.getD r.queue 0) = some tile →
        exec (.runIteration core n) s0 = .next (((s.modCore core fun x => { x with fed := bump x.fed r.queue }).feedIq t r.queue
          tile).advance core n e { r with waited := true })) ∧
      (∀ tile rest u, r.mode = 1 → s0 = s → t.x.oqs.getD r.queue [] = tile :: rest → tile.hdr.kind ≠ 1 →
        validAt e.rows (e.tileAt r).1 ≠ 0 → validAt e.cols (e.tileAt r).2 ≠ 0 →
        (tile.hdr.transposed = e.transposed ∨ e.scheme = 0) →
        (s.takeOq core r.queue).writeTile t n e { r with waited := true } tile (validAt e.rows (e.tileAt r).1)
          (validAt e.cols (e.tileAt r).2) = some u →
        exec (.runIteration core n) s0 = .next (u.advance core n e { r with waited := true })) ∧
      (∀ a b, r.mode = 2 → s.access t n e (e.origin r) e.runB false = some a →
        s.access t n e (e.blockDst r.n) e.runB true = some b →
        exec (.runIteration core n) s0 = .next ((s.copyRange a b e.runB).advance core n e { r with waited := true }))) ∧
    (∀ r : RunSt, s.engineOf core n = some (t, e) → e.run = some r → r.idx = [] → t.feedRoom r.queue = true →
      exec (.runIteration core n) s = .next ((s.feedIq t r.queue (eosTile t.c.id t.x.epoch 0 (t.x.fed.getD r.queue 0)
        (t.x.fed.getD r.queue 0) (t.st.iq r.queue))).endRun t.x.idx n))

/-! ### Fabric -/

/-- 05 R102, R121: the head of an output queue leaves for one credit on every branch and is counted; a credit owed
goes back to its producer; a tile that arrives as sent, with the right epoch, sequence number and format, enters the
queue, and one for a gated station is discarded there and its credit returned (09 R225). 05 R117-R120: a stream enters spill when its producer could fire but for its full queue; in spill, a tile moves
into the spill queue while credits lack, and leaves first, in order, when they are back; a tile of the HBM part is called back
before. -/
def Obligations.TileAndSpillRows : Prop :=
  (∀ s : State, s.running = true →
     (∀ (core oq : Nat) (x : Core) (tile : Tile) (h : Chan), s.core? core = some x → (x.oqs.getD oq []).head? = some tile →
       s.spillChan x oq = some h → h.spilling = false → credited (s.outChans x oq) = true →
       exec (.tileSend core oq) s =
         .next (((s.popOq core oq).launchTile (s.outChans x oq) tile).countCore x { StCnt.zero with tilesOut := 1 })) ∧
     (∀ (ch : ChanId) (h : Chan), s.chan? ch = some h → 0 < h.owed → h.link = false →
       exec (.creditReturn ch) s = .next (s.modChan ch fun k => { k with owed := k.owed - 1, credits := k.credits + 1 })) ∧
     (∀ (ch : ChanId) (hop : Element) (h : Chan) (sent : Tile) (c : Ctx) (g : Cfg) (x : Core) (st : Station),
       s.chan? ch = some h → h.flight.head? = some sent → s.ctx? ch.ctx = some c → s.cfg? ch.ctx ch.handle = some g →
       s.core? h.dst = some x → x.occupant = some c.uid → (g.image.stationOf h.dst).bind g.image.station? = some st →
       sent.crcOk = true → sent.hdr.stream = h.id.stream → sent.hdr.ctx = h.id.ctx → sent.hdr.kind = 0 →
       sent.hdr.epoch = x.epoch → sent.hdr.seq = h.expSeq → x.ended = false →
       sent.hdr.fmt + 16 * sent.hdr.scheme = st.iq h.dstQ % 64 →
       (s.gatedAt h = none → exec (.tileArrival ch none hop) s =
         .next (((s.modChan h.id fun k => { k with flight := k.flight.drop 1 }).modChan h.id fun k =>
           { k with expSeq := k.expSeq + 1 }).deliver h x sent true)) ∧
       (∀ i k, s.gatedAt h = some (i, k) → exec (.tileArrival ch none hop) s =
         .next (((s.modChan h.id fun k => { k with flight := k.flight.drop 1 }).count (some i) k
           { StCnt.zero with lateDiscards := 1 }).deliver h x sent false)))) ∧
  (∀ (s : State) (ch : ChanId) (h : Chan) (x : Core) (im : Image), s.running = true → s.chan? ch = some h →
     (∀ t w, s.anyStep h.src = some (t, w) → (s.spillChan t.x h.srcQ).map (·.id) = some ch → h.spilling = false →
       t.blockedOn w h.srcQ = true → credited (s.outChans t.x h.srcQ) = false →
       s.consumersReady t.x (s.outChans t.x h.srcQ) = true →
       exec (.spillEntry ch) s = .next (((s.modChan ch fun k => { k with spilling := true }).countCore t.x
         { StCnt.zero with spillEvents := 1 }).spillTrace h false)) ∧
     (∀ tile, s.core? h.src = some x → s.imageOf ch.ctx ch.handle = some im → (x.oqs.getD h.srcQ []).head? = some tile →
       h.spilling = true → (s.spillChan x h.srcQ).map (·.id) = some ch → credited (s.outChans x h.srcQ) = false →
       h.hbm = [] → s.dripRoom x im tile = true →
       exec (.spillOut ch) s = .next (((((s.popOq x.idx h.srcQ).modChan h.id fun k =>
         { k with spillCount := min (2 ^ 32 - 1) (k.spillCount + 1) }).modChan h.id fun k =>
           { k with drip := k.drip ++ [({ tile with hdr := { tile.hdr with spilled := true } } : Tile).sealed] }).countCore x
         { StCnt.zero with spillTiles := 1, spillPeak := min (2 ^ 16 - 1) (h.drip.length + 1) }).putDrip x im
           ({ tile with hdr := { tile.hdr with spilled := true } } : Tile).sealed)) ∧
     (∀ tile rest u y, s.core? h.src = some x → s.imageOf ch.ctx ch.handle = some im → h.spilling = true →
       (s.spillChan x h.srcQ).map (·.id) = some ch → credited (s.outChans x h.srcQ) = true → h.drip = tile :: rest →
       h.hbm = [] → (y, u) = s.takeDrip x im tile → (u.chan? ch).isSome = true →
       exec (.spillReturn ch) s = .next (((((u.modChan ch fun k => { k with drip := rest }).launchTile (s.outChans x h.srcQ)
         y).countCore x { StCnt.zero with tilesOut := 1 }).refillCore x im).leaveSpill ch)) ∧
     (s.core? h.src = some x → s.imageOf ch.ctx ch.handle = some im → h.spilling = true →
       (s.spillChan x h.srcQ).map (·.id) = some ch → credited (s.outChans x h.srcQ) = true → h.drip = [] →
       exec (.spillReturn ch) s = .next (if s.underWay (.spillBack ch) = 0 ∧ (s.nextBack h).isSome = true then
         s.spillPacket x.idx ch true else s.leaveSpill ch)))

/-- 05 R112, R116, R124-R126: the service packet whose turn it is on its hop, by class and by the 64 boundaries, goes on to
its next hop, is acknowledged at the end of its way, or is dropped and counted, and the others that wait there have been passed
over; a packet whose turn it is not stays; without an acknowledgement a packet is repeated from its first hop, up to eight
times (a packet's way is the model's choice, log 98); a degraded tree is rebuilt as a chain; a core outside every active configuration
switches at once, a core of a displaced one when its fences have left and it has drained. -/
def Obligations.ServiceAndSwitch : Prop :=
  ∀ s : State, s.running = true →
    (∀ (id : Nat) (ok : Bool) (p : SvcPkt) (ps : List SvcPkt), s.fab.svc.find? (fun p => p.id == id) = some p →
      ps = s.fab.svc.map (fun x => if x.id != id && x.waiting && x.hop == p.hop then { x with passed := x.passed + 1 } else x) →
      exec (.servicePacketReceive id ok) s =
        .next (if s.nextService p.hop = some id then
          (if ok = false then { s with fab := { s.fab with
             svcDrops := min (2 ^ 32 - 1) (s.fab.svcDrops + 1)
             svc := ps.map fun x => if x.id == id then { x with waiting := false, passed := 0 } else x } }
           else if p.pos + 1 < p.route.length then { s with fab := { s.fab with
             svc := ps.map fun x => if x.id == id then { x with pos := x.pos + 1, passed := 0 } else x } }
           else ({ s with fab := { s.fab with svc := ps.filter fun p => p.id != id } } : State).serviceArrives p) else s)) ∧
    (∀ (id : Nat) (p : SvcPkt), s.fab.svc.find? (fun p => p.id == id) = some p → exec (.servicePacketRepeat id) s =
      if p.repeats < 8 then .next { s with fab := { s.fab with
        svc := s.fab.svc.map fun x => if x.id == id then { x with
          repeats := x.repeats + 1, waiting := true, pos := if x.waiting then x.pos else 0 } else x } }
      else .next (({ s with fab := { s.fab with svc := s.fab.svc.filter fun x => x.id != id } } : State).fabricFault p.hop
        (s.ctxOn p.core))) ∧
    (∀ (ctx handle stream : Nat) (c : Ctx) (g g' : Cfg), s.ctx? ctx = some c → s.cfg? ctx handle = some g →
      s.fab.invs = [] → g.degraded.contains stream = true → s.rebuiltCfg c g stream = some g' →
      exec (.treeRebuildAsChain ctx handle stream) s = .next (s.modCfg ctx handle fun _ => g')) ∧
    (∀ (core : Nat) (w : Wave) (c : Ctx) (g : Cfg), s.waveOf core = some w → s.ctx? w.ctx = some c →
      s.cfg? w.ctx w.handle = some g →
      (s.oldCfg w core = none → (s.core? core).bind (·.inv) = none →
        exec (.wavefrontSourceSwitch core) s = .next (s.switchCore w c g core)) ∧
      (∀ d st x y, s.oldCfg w core = some d → s.hold c d core = some s → (d.image.stationOf core).bind d.image.station? = some st →
        s.core? core = some x → x.inv = none → x.fenceSent = true → y = (s.setCore x) → y.coreDrained x st d.image = true →
        (st.streamIqs = [] → exec (.wavefrontSourceSwitch core) s = .next (y.switchCore w c g core)) ∧
        (st.streamIqs ≠ [] → (∀ q ∈ st.streamIqs, ∃ f, (x.iqs.getD q []).head? = some f ∧ f.hdr.kind = 2) →
          exec (.coreSwitch core) s = .next ((y.popIqs core st.streamIqs).switchCore w c g core))))

/-! ### Jobs and contexts -/

/-- 09 R208, R209, R211: JOB_OPEN of a good descriptor opens a job with its rectangles, grants and host ranges and
returns its number; JOB_CLOSE of a job without contexts closes it: its allocations and reservations go, its queue
pairs are unbound. 09 R213, R214, R218, 07 R164: CTX_CREATE of a good region table adds a context under a free number,
resident when no resident context of its job holds its footprint, EMPTY, and returns the number; CTX_PIN sets the pin
and returns the old one; CTX_DESTROY of an idle context removes it with its reservations and its wavefronts, whose CFG_ACTIVATEs
complete CANCELLED (the model's choice, log 121). The words a descriptor or table is read from are checked first (13 R316-R318). -/
def Obligations.JobsAndContexts : Prop :=
  (∀ (s : State) (e : Env) (r : CmdRec),
     (∀ (desc : U64) (nrect dlen : U16) (k : Nat) (u : State) (bs : List Byte) (d : JobDesc) (n : Nat) (gs : List (Nat × Nat)),
       Ready s (.jobOpen e desc nrect dlen) e r → k = (s.started r).keyAt e desc.toNat dlen.toNat true false →
       u = (s.started r).touch k dlen.toNat → bs = u.readBytes k dlen.toNat →
       u.jobDescFail bs nrect.toNat dlen.toNat = none → d = JobDesc.of bs nrect.toNat →
       firstFree (u.jobs.map (·.num)) 16 0 = some n → u.reserveGrants d = some gs →
       (u.jobs.map (·.nctx)).foldl (· + ·) 0 + d.nctx ≤ 1023 → (u.jobs.map (·.nqp)).foldl (· + ·) 0 + d.nqp ≤ 2047 →
       n ≤ 15 ∧ (∀ j ∈ u.jobs, j.num ≠ n) ∧
       exec (.jobOpen e desc nrect dlen) s =
         .next (({ u with jobs := u.jobs ++
           [⟨n, d.nctx, d.nqp, d.rects, gs, d.hosts.map fun h => (3 * 2 ^ 48 + h.1, h.2)⟩] } : State).finish r.id .ok
           (leBytes 1 n))) ∧
     (∀ (job : Byte) (force : Bool), Ready s (.jobClose e job force) e r → (s.job? job.toNat).isSome = true →
       (∀ c ∈ s.ctxs, c.job ≠ job.toNat) →
       exec (.jobClose e job force) s =
         .next (({ s.started r with
           jobs := s.jobs.filter fun j => j.num != job.toNat
           mem := { (s.started r).mem with
             allocs := s.mem.allocs.filter fun a => a.job != job.toNat
             reserves := s.mem.reserves.filter fun a => a.job != job.toNat }
           q := { (s.started r).q with
             pairs := s.q.pairs.map fun p => if p.job == job.toNat then { p with job := 0xFF } else p } } : State).finish
           r.id .ok [0, 0]))) ∧
  (∀ (s : State) (e : Env) (r : CmdRec),
     (∀ (job : Byte) (table : U64) (nregion : U16) (hr pin : Bool) (j : Job) (k : Nat) (u : State) (raw : List (List Byte)),
       Ready s (.ctxCreate e job table nregion hr pin) e r → (s.started r).job? job.toNat = some j →
       k = (s.started r).keyAt e table.toNat (32 * nregion.toNat) true false →
       u = (s.started r).touch k (32 * nregion.toNat) →
       raw = ((List.range nregion.toNat).map fun i => u.readBytes (k + 32 * i) 32) →
       u.tableFail j [] raw = none → (u.ctxs.filter fun c => c.job == j.num).length < j.nctx →
       (∃ n, n < 1023 ∧ u.ctx? n = none) →
       ∃ (n : Nat) (c : Ctx), n < 1023 ∧ u.ctx? n = none ∧
         c = { Ctx.make n u.mem.nextUid j.num (raw.map Region.of) hr pin true with
           resident := (u.rivals (Ctx.make n u.mem.nextUid j.num (raw.map Region.of) hr pin true)).isEmpty } ∧
         exec (.ctxCreate e job table nregion hr pin) s =
           .next (({ u with
             free := u.free + 1, ctxs := u.ctxs ++ [c]
             mem := { u.mem with nextUid := u.mem.nextUid + 1 } } : State).finish r.id .ok
             (leBytes 2 n))) ∧
     (∀ (op : Byte) (c : Ctx), Ready s (.ctxPin e op) e r → s.ctx? e.ctx.toNat = some c →
       exec (.ctxPin e op) s = .next (((s.started r).modCtx c.id fun d => { d with pinned := op == 1 }).finish r.id .ok
         [if c.pinned then 1 else 0])) ∧
     (∀ (c : Ctx), Ready s (.ctxDestroy e false) e r → s.ctx? e.ctx.toNat = some c → s.ctxBusy c = false →
       (s.started r).ctxCommands c = [] → (∀ m ∈ s.moves, m.ctx ≠ c.id) →
       ∃ u v : State, exec (.ctxDestroy e false) s = .next (u.finish r.id .ok) ∧ u.ctxs = s.ctxs.filter (fun x => x.id != c.id) ∧
         u.mem.reserves = s.mem.reserves.filter (fun x => x.ctx != c.id) ∧ u.jobs = s.jobs ∧
         u.fab.waves = s.fab.waves.filter (fun w => w.ctx != c.id) ∧ v.q = (s.started r).q ∧
         u.q = (v.finishAll ((s.fab.waves.filter fun w => w.ctx == c.id).map fun w => (w.cmd, .cancelled, []))).q))

/-- 07 R184, 09 R214, R220, R221: CTX_EVICT and CTX_RESTORE that nothing refuses start their movement; the end of an
eviction makes the context rest, completes the command with the bytes moved and lets the job's contexts rebalance (what it
reads is checked first, 13 R316-R318); a restore the firmware started ends with event 0x0011, an eviction with event
0x0010, after which the procedure goes on for the context that waits; a restore whose Mandoline instance has failed leaves the
context as it is (13 R314, log 109). -/
def Obligations.ResidencyMoves : Prop :=
  ∀ (s : State) (e : Env) (r : CmdRec) (c : Ctx),
    (∀ space : Byte, Ready s (.ctxEvict e space) e r → (s.started r).ctx? e.ctx.toNat = some c →
      (s.started r).evictRefusal c space.toNat true = none → (s.started r).evictFails c space.toNat = false →
      exec (.ctxEvict e space) s = .next ((s.started r).modRec r.id fun x => { x with xfer := some (.evict c.id space.toNat) })) ∧
    (∀ u : State, Ready s (.ctxRestore e) e r → (s.started r).ctx? e.ctx.toNat = some c →
      u = (s.started r).touchAll c.mirrorReads → u.moving c.id = false → (c.resident = true → (u.takeover? c).isSome = true) →
      (c.resident = false → u.rivals c = []) → u.restoreFails c ((u.takeover? c).map (·.1)) = none →
      exec (.ctxRestore e) s = .next (u.modRec r.id fun x => { x with xfer := some (.restore c.id) })) ∧
    (∀ (space : Nat) (g : Region) (u : State), s.running = true → s.rec? r.id = some r → r.phase = .running →
      r.xfer = some (.evict c.id space) → u = s.touchAll (s.xferReads (.evict c.id space)) →
      u.xferOf r.id = some (r, .evict c.id space) → u.ctx? c.id = some c → c.evictRegion space = some g →
      u.evictFails c space = false →
      (u.evict c space).1.ctxs = u.ctxs.map (fun d => if d.id == c.id then { d with
        resident := false, saved := (u.evictPieces c space g.target).1 ++ (u.evictPieces c space g.target).2
        staged := [], stageDigest := none, serving := d.serving.map fun v => { v with blockedSince := none } } else d) ∧
      exec (.commandTransferEnd r.id) s = .next (((u.evict c space).1.finish r.id .ok (leBytes 8 (u.evict c space).2)).rebalance
        c.job)) ∧
    (∀ u0 u : State, s.running = true → s.rec? r.id = some r → r.phase = .running → r.xfer = some (.restore c.id) →
      u0 = s.touchAll (s.xferReads (.restore c.id)) → u0.xferOf r.id = some (r, .restore c.id) → u0.ctx? c.id = some c →
      u = u0.touchAll c.mirrorReads → c.resident = false → u.takeover? c = none → u.packFails false c.toRestore = false →
      (u.restore c).1.ctxs = u.ctxs.map (fun d => if d.id == c.id then { d with
        resident := true, saved := [], serving := d.serving.map fun v => { v with runnableSince := none } } else d) ∧
      exec (.commandTransferEnd r.id) s = .next (((u.restore c).1.finish r.id .ok (leBytes 8 (movedBytes c.toRestore))).rebalance
        c.job)) ∧
    (∀ (m : Move) (c0 : Ctx) (u0 u : State) (n : Nat), s.running = true → s.moves = [m] → m.job < 16 → m.ctx = c.id → m.evict = true →
      s.ctx? c.id = some c0 → u0 = ({ s with moves := [] } : State).touchAll (({ s with moves := [] } : State).moveReads m c0) →
      u0.ctx? c.id = some c → u0.evictFails c 1 = false → (u, n) = u0.evict c 1 →
      exec (.evictionOrRestoreEnd m.job) s =
        .next (((u.event (56 + m.job) 0x0010 (leBytes 2 c.id ++ [0, 0, 0, 0, 0, 0] ++ leBytes 8 n)).trace 9 c.id
          ([0, 0, 0, 0, 0, 0, 0, 0] ++ leBytes 8 n)).moveOn m)) ∧
    (∀ (m : Move) (c0 : Ctx) (u : State), s.running = true → s.moves = [m] → m.job < 16 → m.ctx = c.id → m.evict = false →
      s.ctx? c.id = some c0 → u = ({ s with moves := [] } : State).touchAll (({ s with moves := [] } : State).moveReads m c0) →
      u.ctx? c.id = some c →
      (u.packFails false c.toRestore = false → exec (.evictionOrRestoreEnd m.job) s =
        .next ((((u.restore c).1.event (56 + m.job) 0x0011
          (leBytes 2 c.id ++ [0, 0, 0, 0, 0, 0] ++ leBytes 8 (u.restore c).2)).trace 9 c.id
            (leBytes 1 1 ++ [0, 0, 0, 0, 0, 0, 0] ++ leBytes 8 (u.restore c).2)).rebalance m.job)) ∧
      (u.packFails false c.toRestore = true → exec (.evictionOrRestoreEnd m.job) s =
        .next ((u.halfMoved (c.toRestore.map fun p => (p.home, p.len))).rebalance m.job)))

/-! ### Configurations and invocations -/

/-- 04 R66, R98, 05 R122, R123: CFG_LOAD of a good image takes the context's next epoch and a free handle, holds slots
and memory, and returns both; CFG_CHECK of it holds nothing; the words an image is read from are checked first (13 R316-R318); CFG_UNLOAD of an unused configuration frees what it held;
CFG_ACTIVATE opens a wavefront over the region. -/
def Obligations.ConfigurationsComplete : Prop :=
  ∀ (s : State) (e : Env) (r : CmdRec) (c : Ctx), s.ctx? e.ctx.toNat = some c →
    (∀ (image : U64) (len : U32) (k : Nat) (u : State) (d : Ctx) (im : Image) (hs : List SlotHold) (ch : List Nat), len ≠ 0 →
      k = (s.started r).keyAt e image.toNat len.toNat true false → u = (s.started r).touch k len.toNat →
      u.ctx? e.ctx.toNat = some d → u.loadImage d (u.readBytes k len.toNat) len.toNat = .ok im →
      u.stage7 d im = .ok (hs, ch) →
      (Ready s (.cfgLoad e image len) e r → c.resident = true → (s.started r).moving c.id = false →
        exec (.cfgLoad e image len) s = .next (u.loadCfg d im hs ch r.id)) ∧
      (Ready s (.cfgCheck e image len) e r → c.resident = true → (s.started r).moving c.id = false → exec (.cfgCheck e image len) s =
        .next (u.finish r.id (if ch.isEmpty then .ok else .okDegraded)))) ∧
    (∀ (h : U16) (g : Cfg), Ready s (.cfgUnload e h) e r → c.resident = true → (s.started r).moving c.id = false →
      s.cfg? c.id h.toNat = some g → s.cfgInUse c h.toNat = false →
      exec (.cfgUnload e h) s = .next (((s.started r).unloadCfg c.id h.toNat).finish r.id .ok)) ∧
    (∀ (h : U16) (g : Cfg), Ready s (.cfgActivate e h) e r → s.activateRefusal c h.toNat = none →
      s.cfg? c.id h.toNat = some g → c.displacedBy g = [] →
      exec (.cfgActivate e h) s = .next ((s.started r).modFab fun f => { f with
        waves := f.waves ++ [⟨r.id, c.id, g.handle, [], regionOf g [], []⟩] }))

/-- 05 R122: the epoch of a load is the next one modulo 2^16 and never 0. -/
def Obligations.EpochNeverZero : Prop :=
  ∀ (s : State) (c : Ctx) (im : Image) (hs : List SlotHold) (ch : List Nat) (id : Nat), (∀ d ∈ s.ctxs, d.id = c.id → d = c) →
    ∀ d ∈ (s.loadCfg c im hs ch id).ctxs, d.id = c.id → ∀ g ∈ d.cfgs, g ∉ c.cfgs →
      g.epoch ≠ 0 ∧ g.epoch < 65536 ∧ g.epoch = (if (c.epoch + 1) % 65536 = 0 then 1 else (c.epoch + 1) % 65536) ∧
        d.epoch = g.epoch

/-- 04 R94, R95, R81, 09 R216, R217: an accepted INVOKE waits for its cores; it launches when they are free and it is
its turn, the arguments it reads being checked first (13 R316-R318); it completes when every core has ended and all output is written; at its deadline it is stopped. INVOKE_LIST
runs its entries in order. PREEMPT of a context outside a step completes at once when nothing waits for its cores. 04
R95, R216: launching an invocation records its tick, its cores and its context's prefetch list. -/
def Obligations.InvocationRows : Prop :=
  (∀ (s : State) (e : Env) (r : CmdRec),
     (∀ (h : U16) (args result deadline : U64) (c : Ctx) (g : Cfg), Ready s (.invoke e h args result deadline) e r →
       e.atTick = false → (s.started r).ctx? e.ctx.toNat = some c → (s.started r).cfg? e.ctx.toNat h.toNat = some g →
       (s.started r).invokeRefusal c h.toNat args.toNat result.toNat = none →
       exec (.invoke e h args result deadline) s = .next ((s.started r).modFab fun f => { f with
         invs := f.invs ++ [Inv.make f.nextInv c.id g (.command r.id) args.toNat result.toNat deadline.toNat s.tmr.elapsed false []]
         nextInv := f.nextInv + 1 })) ∧
     (∀ (list : U64) (n : U32), Ready s (.invokeList e list n) e r → n ≠ 0 → e.atTick = false →
       exec (.invokeList e list n) s = .next (State.listGo (n.toNat + 1) r.id none
         (((s.started r).touchList (keyOf list.toNat) n.toNat).modFab fun f =>
         { f with lists := f.lists ++ [⟨r.id, keyOf list.toNat, n.toNat, 0, 0, none, .ok⟩] }))) ∧
     (∀ c : Ctx, Ready s (.preempt e false) e r → s.ctx? e.ctx.toNat = some c → s.insideStep c = false → s.waitersOn c = [] →
       exec (.preempt e false) s = .next ((s.started r).finish r.id .ok)) ∧
     (∀ c : Ctx, Ready s (.preempt e true) e r → s.ctx? e.ctx.toNat = some c →
       exec (.preempt e true) s = .next (((s.started r).tearDown c.id .cancelled).finish r.id .ok)) ∧
     (∀ (i : Inv), s.running = true → s.inv? i.id = some i →
       (∀ (u : State) (j : Inv), i.phase = .waiting → s.displacedNow i.ctx i.handle = false → i.owner = .command r.id →
         s.launchable i = true → u = s.touchAll (s.launchReads i) → u.inv? i.id = some j →
         exec (.invocationLaunch i.id) s = .next (u.launchInv j)) ∧
       (i.phase = .running → s.invComplete i = true → exec (.invocationComplete i.id) s = .next (s.endInv i.id i.endStatus false)) ∧
       (i.deadline ≠ 0 → i.deadline ≤ s.tmr.count → exec (.invocationDeadline i.id) s = .next (s.endInv i.id .deadline true)))) ∧
  (∀ (s : State) (i : Inv) (c : Ctx) (g : Cfg), s.inv? i.id = some i → s.ctx? i.ctx = some c →
     s.cfg? i.ctx i.handle = some g →
     ∃ j, (s.launchInv i).inv? i.id = some j ∧ j.phase = .running ∧ j.launch = s.tmr.count ∧ j.cores = i.coresOf g.image ∧
       j.plist = c.prefetch ∧ j.owner = i.owner)

/-- 07 R174, R175: PREFETCH_LIST_SET adds good entries to the context's list (the model's choice, log 28: one of LENGTH 0 takes no
place in it); the next entry of a running invocation
whose trigger has come starts; the list, and at an entry's end its source, is checked (13 R316-R318), its data are written, and the signals of
completed entries are given in list order; a Mandoline instance that has failed by then ends the invocation HW_FAULT
(13 R314). -/
def Obligations.PrefetchRows : Prop :=
  ∀ (s : State),
    (∀ (e : Env) (r : CmdRec) (list : U64) (n : U32) (clear : Bool) (c : Ctx) (k : Nat) (u : State) (raw : List (List Byte))
      (new : List Prefetch), Ready s (.prefetchListSet e list n clear) e r → n ≠ 0 →
      k = (s.started r).keyAt e list.toNat (64 * n.toNat) true false → u = (s.started r).touch k (64 * n.toNat) →
      u.ctx? e.ctx.toNat = some c → raw = ((List.range n.toNat).map fun i => u.readBytes (k + 64 * i) 64) →
      raw.findSome? (u.prefetchFail c) = none → new = (raw.map Prefetch.of).filter (fun p => p.len != 0) →
      (if clear then [] else c.prefetch).length + new.length ≤ 4096 →
      exec (.prefetchListSet e list n clear) s = .next ((u.setCtx { c with
        prefetch := (if clear then [] else c.prefetch) ++ new }).finish r.id .ok (leBytes 4 n.toNat))) ∧
    (∀ (i : Inv) (k : Nat) (p : Prefetch) (im : Image) (c : Ctx) (a b : Nat), s.running = true → s.inv? i.id = some i →
      i.phase = .running → i.nextPrefetch = some (k, p) → s.imageOf i.ctx i.handle = some im → s.ctx? i.ctx = some c →
      s.prefetchReady i im p = true → c.prefetchKeys p = some (a, b) → s.unitFailed 3 (mandolineOf a b) = false →
      exec (.prefetchEntryStart i.id) s = .next ((s.modInv i.id fun v => { v with
        started := v.started ++ [(k, false)], nextEntry := k + 1 }).trace 11 i.ctx (leBytes 2 k ++ [0]))) ∧
    (∀ (i : Inv) (k : Nat) (p : Prefetch) (c : Ctx) (a b : Nat) (u : State), s.running = true → s.inv? i.id = some i →
      i.phase = .running → i.plist[k]? = some p → s.ctx? i.ctx = some c → i.started.contains (k, false) = true →
      c.prefetchKeys p = some (a, b) → u = s.touch a p.len → (u.inv? i.id).isSome = true →
      (u.unitFailed 3 (mandolineOf a b) = false →
        exec (.prefetchEntryComplete i.id k) s = .next ((((u.prefetchMove c p).modInv i.id fun v => { v with
          started := v.started.map fun x => if x == (k, false) then (k, true) else x }).signalEntries i.id
            (i.plist.length + 1)).trace 11 i.ctx (leBytes 2 k ++ [1]))) ∧
      (∀ id, u.unitFailed 3 (mandolineOf a b) = true → i.owner = .command id →
        exec (.prefetchEntryComplete i.id k) s = .next (u.endInv i.id .hwFault true)))

/-! ### Weights -/

/-- 08 R186-R192, R198, R204-R206: WGT_LOAD, WGT_REPLACE and ADAPTER_LOAD whose manifest is good enter as a weight
command over the named shards (all that are not staged, for a replacement), an adapter version under LOADING when
there is room; ADAPTER_RETIRE retires a held version, returns the requests bound to it and frees a version that none is bound to; WGT_VERIFY
starts to read the named valid shards, and its end counts them, gives the lowest that no longer reads as its digest (or reads
poisoned), makes each such shard invalid and the context PARTIAL, SHARD_CORRUPT, or HW_FAULT where a digest unit has failed (13
R314). The words of a manifest or mask are checked first (13 R316-R318). -/
def Obligations.WeightCommands : Prop :=
  ∀ (s : State) (e : Env) (r : CmdRec) (c : Ctx) (m : Manifest),
    (∀ (man mask dl : U64) (names : Nat → Bool) (u : State), Ready s (.wgtLoad e man mask dl) e r →
      u = (s.started r).touchManifest e.ctx.toNat man.toNat mask.toNat [0, 1] → zeroWgtLoad e man mask u = false → u.ctx? e.ctx.toNat = some c →
      u.loadAllowed c (u.manifestKind c man.toNat) = true →
      u.readManifest c man.toNat [0, 1] = .ok m → u.maskNames c mask.toNat m.nshard = some names →
      strayBit names mask.toNat m.nshard = none →
      exec (.wgtLoad e man mask dl) s = .next ((u.modCtx c.id fun c => c.prepare m).beginOp c.id
        (m.op r.id m.kind dl.toNat names))) ∧
    (∀ (man dl : U64) (keep : Bool) (u : State), Ready s (.wgtReplace e man keep dl) e r →
      u = (s.started r).touchManifest e.ctx.toNat man.toNat 0 [1] → u.ctx? e.ctx.toNat = some c → c.weight = .loaded →
      u.weightFree c = true → u.readManifest c man.toNat [1] = .ok m →
      (e.atTick = false ∨ u.allStaged c man.toNat = true) →
      exec (.wgtReplace e man keep dl) s = .next ((u.modCtx c.id fun c => c.prepare m).beginOp c.id
        { m.op r.id 3 dl.toNat (fun i => !(((c.prepare m).staged.getD i ⟨i, 0, 0, 0, false, none⟩).valid)) with
          keepKv := keep })) ∧
    (∀ (man dl : U64) (a v : U32) (recs : List ShardRec) (u : State), Ready s (.adapterLoad e man a v dl) e r →
      u = (s.started r).touchManifest e.ctx.toNat man.toNat 0 [2] → u.ctx? e.ctx.toNat = some c →
      (c.weight = .loaded ∨ c.weight = .replacing) →
      c.resident = true → u.moving c.id = false → c.wgt = [] → c.maxVersions = [] → 0 < v.toNat →
      u.readManifest c man.toNat [2] = .ok m → c.adapters = [] →
      recs = c.emptyRecs false m.shards → c.adapterRoom a.toNat (recs.map fun x => (x.base, x.len)) = true →
      exec (.adapterLoad e man a v dl) s = .next ((u.modCtx c.id fun d => { d with
          adapters := d.adapters ++ [⟨a.toNat, v.toNat, .loading, ((m.shards.head?).map (·.dst)).getD 0, recs⟩] }).beginOp c.id
        { m.op r.id 2 dl.toNat (fun _ => true) with adapter := a.toNat, version := v.toNat, noRoom := false })) ∧
    (∀ (a v : U32) (ad : Adapter), Ready s (.adapterRetire e a v) e r → (s.started r).ctx? e.ctx.toNat = some c → c.resident = true → (s.started r).moving c.id = false →
      ad ∈ c.adapters → ad.id = a.toNat → ad.version = v.toNat → ad.st ≠ .loading →
      ∃ u : State, u = ((s.started r).modCtx c.id fun d => ({ d with
          adapters := d.adapters.map fun x => if x.id = a.toNat ∧ x.version = v.toNat ∧ x.st ≠ .loading then
            { x with st := .retired } else x } : Ctx).freeAdapters) ∧
        exec (.adapterRetire e a v) s = .next (u.finish r.id .ok (leBytes 4 (c.boundTo a.toNat v.toNat))) ∧
        ∀ d, u.ctx? c.id = some d →
          (c.boundTo a.toNat v.toNat ≠ 0 → ({ ad with st := .retired } : Adapter) ∈ d.adapters) ∧
          (c.boundTo a.toNat v.toNat = 0 → ∀ x ∈ d.adapters, x.id = a.toNat → x.version = v.toNat → x.st = .loading)) ∧
    (∀ (mask : U64) (names : Nat → Bool) (u : State), Ready s (.wgtVerify e mask) e r →
      u = (s.started r).touchMask e.ctx.toNat mask.toNat → zeroWgtVerify e mask u = false → u.ctx? e.ctx.toNat = some c → c.weight ≠ .replacing →
      u.weightFree c = true → u.maskNames c mask.toNat c.shards.length = some names →
      (∀ x ∈ c.shards, names x.index = true → x.valid = true → u.unitFailed 5 (mandolineOf x.base x.base) = false) →
      exec (.wgtVerify e mask) s = .next ((u.modCtx c.id fun c => { c with verifying := true }).modRec r.id fun x =>
        { x with xfer := some (.verify c.id ((c.shards.filter fun x => names x.index && x.valid).map (·.index))) })) ∧
    (∀ (ix bad : List Nat) (u : State), s.running = true → s.rec? r.id = some r → r.phase = .running →
      r.xfer = some (.verify c.id ix) → u = s.touchAll (s.xferReads (.verify c.id ix)) →
      u.xferOf r.id = some (r, .verify c.id ix) → u.ctx? c.id = some c →
      bad = ((c.shards.filter fun x => ix.contains x.index &&
        (u.poisonedIn x.base x.len || sha384 (u.readBytes x.base x.len) != x.digest)).map (·.index)) →
      (u.verifyUnitFailed c ix.contains = false → exec (.commandTransferEnd r.id) s = .next ((u.modCtx c.id fun d => { d with
          verifying := false
          shards := c.shards.map fun (x : ShardRec) => if bad.contains x.index then { x with valid := false } else x
          weight := if bad = [] then c.weight else .partLoaded }).finish r.id (if bad = [] then .ok else .shardCorrupt)
        (leBytes 4 ix.length ++ leBytes 4 (bad.head?.getD 0xFFFFFFFF)))) ∧
      (u.verifyUnitFailed c ix.contains = true → exec (.commandTransferEnd r.id) s =
        .next ((u.modCtx c.id fun d => { d with verifying := false }).finish r.id .hwFault)))

/-- 08 R191-R196, R205: a shard becomes ready when its word reads READY_VALUE, starts when the limits and the order
allow it and is in flight; its end writes what its descriptor makes of the source when the digest matches, and marks
it valid; a source whose digest does not match fails SHARD_CORRUPT and is not valid; deadlines end what is open. 08
R200-R203: a layer's overwrite starts once every old invocation has passed it; it copies each staged shard of the layer from
STAGE to DST, the words it reads checked first (13 R316-R318), poisoned where the staged bytes no longer match their digest; its
end counts the layer, and the end of the last layer ends the replacement; a failed memory path is the replacement's fault. -/
def Obligations.ShardAndLayerRows : Prop :=
  (∀ (s : State) (ctx n : Nat) (c : Ctx) (w : WgtOp) (x : ShardEnt), s.running = true → s.ctx? ctx = some c →
     (∀ (k : Nat) (u : State), c.opShard w.cmd n .waiting = some (w, x) → c.translate x.ready 8 true false = some k →
       u = s.touch k 8 → exec (.shardReadyPoll ctx ⟨w.cmd, n⟩) s =
         .next (if u.readNat k 8 = x.readyVal then u.modOp ctx w.cmd fun w => setProg w n .ready else u)) ∧
     (c.opShard w.cmd n .ready = some (w, x) → s.mayStart c w n (c.shardUnit w x) = true → s.unitFailed 3 (c.shardUnit w x) = false →
       s.unitFailed 5 (c.shardUnit w x) = false → x.remote = false →
       exec (.shardStart ctx ⟨w.cmd, n⟩) s = .next ((s.modOp ctx w.cmd fun w => setProg w n .inFlight).modCtx ctx fun c =>
         c.modRecs w fun rs => rs.modify n fun r => { r with valid := false })) ∧
     (∀ k kd o u, c.opShard w.cmd n .inFlight = some (w, x) → x.remote = false → c.translate x.src x.srcLen true false = some k →
       u = s.touch k x.srcLen → u.shardUnitFailed (c.shardUnit w x) = false →
       u.poisonedIn k x.srcLen = false → sha384 (u.readBytes k x.srcLen) = x.digest → u.link.transfers = [] →
       (Desc.of x.desc.toNat).run x.desc.toNat (u.readBytes k x.srcLen) [] = .ok o →
       c.translate (if w.kind = 1 ∨ w.kind = 3 then x.stage else x.dst) o.bytes.length false true = some kd →
       exec (.shardComplete ctx ⟨w.cmd, n⟩) s = .next (((((((u.writeMarked kd o.bytes o.marks).countConv o).shardEntry c w n 0 0
         o.sat o.nanOut).modCtx
         ctx fun c => c.modRecs w fun rs => rs.set n (c.shardRec n x kd o)).modOp ctx w.cmd fun w =>
           setProg w n .valid)).settleOp ctx w.cmd)) ∧
     (∀ k u, c.opShard w.cmd n .inFlight = some (w, x) → x.remote = false → c.translate x.src x.srcLen true false = some k →
       u = s.touch k x.srcLen → u.shardUnitFailed (c.shardUnit w x) = false → u.link.transfers = [] →
       (u.poisonOffsets k x.srcLen ≠ [] ∨ sha384 (u.readBytes k x.srcLen) ≠ x.digest) → (Desc.of x.desc.toNat).mode = 2 →
       exec (.shardComplete ctx ⟨w.cmd, n⟩) s = .next (((u.shardEntry c w n 0x0401 0 0 0).modOp ctx w.cmd fun w =>
         setProg w n (.failed .shardCorrupt)).settleOp ctx w.cmd)) ∧
     (c.wgt = [w] → w.noRoom = false → w.barrier = none → w.deadline ≠ 0 → w.deadline ≤ s.tmr.count →
       w.shardsIn ShardSt.open_ ≠ [] →
       exec (.weightDeadline ctx) s = .next ((s.giveUp ctx w.cmd .shardMissing).settleOp ctx w.cmd)) ∧
     (∀ a, c.wgt = [w] → w.kind = 2 → w.adapter = a → w.noRoom = true → w.deadline ≠ 0 → w.deadline ≤ s.tmr.count →
       exec (.adapterRoomDeadline ctx a) s = .next ((s.removeOp ctx w.cmd).finish w.cmd .noRoom))) ∧
  (∀ (s : State) (ctx : Nat) (c : Ctx) (w : WgtOp), s.running = true → s.ctx? ctx = some c →
     (∀ l, s.nextLayer c = some (w, l) →
       exec (.layerOverwriteStart ctx) s = .next (s.modOp ctx w.cmd fun w => { w with overwriting := true })) ∧
     (c.wgt.find? (fun w => w.kind == 3 && w.overwriting) = some w →
       (∀ (of : List ShardRec) (u0 u : State), of = (c.staged.filter fun x =>
             ((w.shards[x.index]?).map (·.layer)) == some (w.layerOrder.getD w.layersDone 0)) →
           u0 = s.touchAll (of.map fun x => (x.base, x.len)) →
           u = (of.foldl (fun v x => match (w.shards[x.index]?).bind fun y => c.translate y.dst x.len false true with
             | none => v
             | some k =>
               if v.poisonedIn x.base x.len = true ∨ sha384 (v.readBytes x.base x.len) ≠ x.digest then
                 (v.writeMarked k (v.readBytes x.base x.len) (List.range x.len)).modOp ctx w.cmd fun w => { w with poisoned := true }
               else v.writeBytes k (v.readBytes x.base x.len)) u0).modOp ctx w.cmd (fun w =>
             { w with overwriting := false, layersDone := w.layersDone + 1 }) →
         exec (.layerOverwriteDone ctx false) s =
           .next (if w.layersDone + 1 < w.layerOrder.length then u else u.endReplace ctx w.cmd)) ∧
       exec (.layerOverwriteDone ctx true) s = .next (s.replaceFault ctx w.cmd)))

/-! ### Serving and routing -/

/-- 09 R223, R227, R228, R234: SRV_START of a good descriptor makes the context SERVING with DEC and PRE active (in REPLACING too
by 08 Table 8.1, the model's reading, log 111);
SRV_POLICY takes the bounds; REQ_ADMIT admits a waiting request under the next free ID, bound to its adapter's current
version, and returns both. 09 R234, R235, R237: REQ_CANCEL and a deadline retire a request outside any step at once,
and a REQ_CANCEL of one inside a step waits in it; STEP_ANSWER of an awaiting request writes its mask row and lets it
decode; SRV_STOP begins to drain, and stops at once when nothing is left. The words of a descriptor or answer are checked first
(13 R316-R318). -/
def Obligations.ServingRows : Prop :=
  (∀ (s : State) (e : Env) (r : CmdRec) (c : Ctx), (s.started r).ctx? e.ctx.toNat = some c →
     (∀ (desc : U64) (k : Nat) (u : State) (bs : List Byte) (v : Serving), Ready s (.srvStart e desc) e r →
       (c.weight = .loaded ∨ c.weight = .replacing) → c.resident = true → (s.started r).moving c.id = false → c.isServing = false →
       k = (s.started r).keyAt e desc.toNat 192 true false → u = (s.started r).touch k 192 →
       bs = u.readBytes k 192 → u.srvFail c bs = none →
       c.srvStale (SrvDesc.of bs) = false → v = Serving.fresh (SrvDesc.of bs) ((c.serving.map (·.nextReq)).getD 1) →
       exec (.srvStart e desc) s = .next ((u.modCtx c.id fun d =>
         ({ d with serving := some v } : Ctx).activateServing v).finish r.id .ok)) ∧
     (∀ (chunk : U16) (n0 n1 s0 s1 : Byte) (iv : U16) (v : Serving), Ready s (.srvPolicy e chunk n0 n1 s0 s1 iv) e r →
       c.serving = some v → v.st = .serving → chunk.toNat ≤ v.desc.chunkMax → n1.toNat ≤ v.desc.nmax → s1.toNat ≤ v.desc.smax →
       exec (.srvPolicy e chunk n0 n1 s0 s1 iv) s = .next (((s.started r).modServing e.ctx.toNat fun u => { u with
         chunk := chunk.toNat, nMin := n0.toNat, nMax := n1.toNat, sMin := s0.toNat, sMax := s1.toNat, interval := iv.toNat
         sinceInterval := if u.interval = iv.toNat then u.sinceInterval else 0 }).finish r.id .ok)) ∧
     (∀ (desc dl : U64) (ad : U32) (host : Bool) (v : Serving) (k : Nat) (u : State) (bs : List Byte) (bound : Option (Nat × Nat)),
       Ready s (.reqAdmit e desc dl ad host) e r →
       (ad = 0xFFFFFFFF → bound = none) → (ad ≠ 0xFFFFFFFF → ∃ n, c.currentVersion ad.toNat = some n ∧ bound = some (ad.toNat, n)) →
       c.serving = some v → v.st = .serving →
       k = (s.started r).keyAt e desc.toNat 64 true false → u = (s.started r).touch k 64 →
       bs = u.readBytes k 64 → u.reqFail c v bs = none → v.reqs.length < v.desc.maxreq →
       ∃ q : Req, q.id = reqIdOf v.freeReq ∧ q.prompt = fieldAt bs 0 8 ∧ q.plen = fieldAt bs 8 4 ∧ q.maxNew = fieldAt bs 12 4 ∧
         q.out = fieldAt bs 16 8 ∧ q.deadline = dl.toNat ∧ q.adapter = bound ∧ q.hostStep = host ∧ q.cond = .waiting ∧
         q.emitted = 0 ∧
         exec (.reqAdmit e desc dl ad host) s = .next (((({ u with free := u.free + 1 } : State).modServing c.id
           fun w => { w with reqs := w.reqs ++ [q], nextReq := v.freeReq + 1 }).finish r.id .ok
             (leBytes 4 q.id ++ leBytes 4 ((bound.map (·.2)).getD 0))).rebalance c.job))) ∧
  (∀ (s : State) (e : Env) (r : CmdRec) (c : Ctx) (v : Serving) (q : Req), c.serving = some v → v.reqs = [q] →
     (∀ req : U32, Ready s (.reqCancel e req) e r → (s.started r).ctx? e.ctx.toNat = some c → v.known req.toNat = true →
       q.id = req.toNat → q.cancel = none →
       exec (.reqCancel e req) s =
         if v.inStep.contains q.id then .next ((s.started r).modReq c.id q.id fun x => { x with cancel := some r.id })
         else .next (((s.started r).modReq c.id q.id fun x => { x with cancel := some r.id }).retireNow c.id q.id .cancelled)) ∧
     (s.running = true → s.ctx? c.id = some c → q.deadline ≠ 0 → q.deadline ≤ s.tmr.count → v.inStep.contains q.id = false →
       exec (.requestDeadline c.id q.id) s = .next (s.retireNow c.id q.id .deadline)) ∧
     (∀ (req step : U32) (ans : U64) (len : U32) (k a : Nat) (u : State), Ready s (.stepAnswer e req step ans len) e r → req ≠ 0 →
       len ≠ 0 →
       (s.started r).ctx? e.ctx.toNat = some c → v.known req.toNat = true → q.id = req.toNat → q.hostStep = true →
       q.cond = .awaiting → q.steps = step.toNat → len.toNat ≤ v.desc.maskLen →
       a = (s.started r).keyAt e ans.toNat len.toNat true false → u = (s.started r).touch a len.toNat →
       c.translate (v.desc.masks + v.desc.maskLen * q.slot.getD 0) v.desc.maskLen true true = some k →
       exec (.stepAnswer e req step ans len) s = .next ((((u.writeMarked k (padTo v.desc.maskLen
         (u.readBytes a len.toNat)) (u.poisonOffsets a len.toNat)).modReq c.id req.toNat fun x =>
           { x with cond := .decoding, maskValid := true }).finish r.id .ok).rebalance c.job)) ∧
     (∀ drain : Bool, Ready s (.srvStop e drain) e r → (s.started r).ctx? e.ctx.toNat = some c → v.st ≠ .stopped →
       v.stopCmd = none → (drain = true ∨ v.cur.isSome = true) →
       exec (.srvStop e drain) s = .next ((((s.started r).modServing c.id fun u => { u with
         st := .draining, stopCmd := some r.id, retired := 0, stopNow := !drain }).stopIfDrained c.id).rebalance c.job)))

/-- 09 R224-R236, 10 R245, R251, R255: a step is composed when the context is between steps and may run; it ends when
both its invocations have completed, with the next step number; a routing point starts when its station has sent its
last scores, which are checked first (13 R316-R318): without host routing it settles with the module's own choice; a point without an answer after ROUTE_WAIT
settles with every token invalid and writes event 0x0018. -/
def Obligations.StepAndRouteRows : Prop :=
  ∀ (s : State) (c : Ctx), s.running = true → s.ctx? c.id = some c →
    (s.composable c = true → exec (.stepCompose c.id) s = .next (s.compose c.id)) ∧
    (∀ v r, c.serving = some v → v.cur = some r → (r.decInv = none ∨ r.decDone.isSome = true) →
      (r.preInv = none ∨ r.preDone.isSome = true) → exec (.stepEnd c.id) s = .next (s.endStep c v r)) ∧
    (∀ c0 i0 im0 p0 r0 (v : State), s.pointAt i0.id p0.program = some (c0, i0, im0, p0, r0) → p0.started = false →
      im0.routerDone p0 = true → v = s.touchAll (c0.scoreReads r0 ((p0.count r0).getD 0)) →
      ∀ i im p r n, v.pointAt i0.id p0.program = some (c, i, im, p, r) → p.count r = some n →
      v.unitFailed 4 (mandolineOf ((c.translate r.scores 4 true true).getD 0) ((c.translate r.scores 4 true true).getD 0)) = false →
      c.hostRouted = false →
      ∀ u, u = v.tracePoint i { p with tokens := n } false →
        exec (.routingPointStart i0.id p0.program) s = .next (u.settlePoint c i p r ((List.range n).map fun x =>
          r.ownAsk (u.scoreRow ((c.translate r.scores 4 true true).getD 0) r x)
            (u.tokenBad p ((c.translate r.scores 4 true true).getD 0) r x)))) ∧
    (∀ i im p r q, s.pointAt i.id p.program = some (c, i, im, p, r) → p.query = some q → q + r.routeWait ≤ s.tmr.elapsed →
      exec (.routeWaitExpiry i.id p.program) s =
        .next ((s.settlePoint c i p r (List.replicate p.tokens none)).event (56 + c.job) 0x0018
          (leBytes 2 c.id ++ leBytes 2 (c.pointNumber im i.handle p.program) ++
            leBytes 4 ((c.serving.map (·.step)).getD 0))))

/-- 09 R224, R230-R233, 10 R245, R250-R252, R255, 15 R352-R354: five rows that complete, and what they leave. A step
with one decoding request that holds its pages is composed: one member with its drafts, a DEC invocation waiting, no
chunk. It ends when that invocation has completed OK: the request goes on with what it emitted, the step number and the
history move on. A routing point that starts, and one whose answer does not come in ROUTE_WAIT, have their assignment,
and without EXCH every core at a local expert station or a released one gets one on S6. A register write of 8 bytes
writes its register, at once or through the journal. -/
def Obligations.StepPointAndRegisterCompletion : Prop :=
  (∀ (s : State) (c : Ctx) (v : Serving) (q : Req) (g : Cfg), s.running = true → s.ctx? c.id = some c →
     s.composable c = true → c.serving = some v → v.reqs = [q] → q.cond = .decoding → q.replaced = false → q.deadline = 0 →
     v.need q = 0 → s.cfg? c.id v.desc.dec = some g →
     ∃ (t : State) (n : Nat) (u : Serving) (i : Inv), exec (.stepCompose c.id) s = .next t ∧
       (t.ctx? c.id).bind (·.serving) = some u ∧ u.reqs = [q] ∧ u.waitFrom = none ∧ u.blockedSince = none ∧
       u.cur = some { launch := none, dec := [(q.id, v.ks q)], chunks := [], decInv := some n, preInv := none
                      decDone := none, preDone := none, old := false } ∧
       t.fab.invs = s.fab.invs ++ [i] ∧ i.id = n ∧ i.owner = .decode c.id ∧ i.handle = v.desc.dec ∧ i.phase = .waiting) ∧
  (∀ (s : State) (c : Ctx) (v : Serving) (r : StepRec) (q q1 : Req) (k d n : Nat) (ts : List Nat), s.running = true →
     s.mem.upsets = [] → s.ctxs = [c] → c.resident = true → c.mirror = none → c.serving = some v → v.cur = some r → r.dec = [(q.id, k)] →
     r.chunks = [] → r.decInv = some n → r.decDone = some (.ok, d) → r.preInv = none → r.preDone = none → v.reqs = [q] →
     q.deadline = 0 → q.cancel = none → q.replaced = false → q.hostStep = false → v.stopNow = false → v.stopCmd = none →
     v.emit { q with steps := q.steps + 1 } k (s.readWords c (v.desc.verify + 256 * q.slot.getD 0) 64)
       (if v.desc.threshold then s.readWords c (v.desc.prob + 32 * q.slot.getD 0) 8 else []) = (ts, q1, false) →
     ∃ (t : State) (u : Serving), exec (.stepEnd c.id) s = .next t ∧ (t.ctx? c.id).bind (·.serving) = some u ∧
       u.cur = none ∧ u.step = v.step + 1 ∧ u.waitFrom = some s.tmr.elapsed ∧
       u.hist = ((some d, none) :: v.hist).take 65535 ∧ u.reqs = [{ q1 with cond := .decoding }]) ∧
  (∀ (s : State) (c : Ctx) (i : Inv) (im : Image) (p : RPoint) (r : Routing), s.running = true →
     s.pointAt i.id p.program = some (c, i, im, p, r) →
     (∀ (n : Nat) (v : State), p.started = false → im.routerDone p = true → p.count r = some n → c.hostRouted = false →
       v = s.touchAll (c.scoreReads r n) → v.pointAt i.id p.program = some (c, i, im, p, r) →
       v.unitFailed 4 (mandolineOf ((c.translate r.scores 4 true true).getD 0) ((c.translate r.scores 4 true true).getD 0)) = false →
       ∃ t, exec (.routingPointStart i.id p.program) s = .next t ∧ v.pointSettled t i p r n) ∧
     (∀ q, p.query = some q → q + r.routeWait ≤ s.tmr.elapsed →
       ∃ t, exec (.routeWaitExpiry i.id p.program) s = .next t ∧ s.pointSettled t i p r p.tokens)) ∧
  (∀ (s : State), s.working = true →
     (∀ v : U64, exec (.registerWrite 0 0x20200 8 v) s = .next { s with evc := { s.evc with
       ringBase := v &&& 0xFFFFFFFFFFFFF000, ringOwn := s.ownGa v.toNat } }) ∧
     (∀ v : U64, s.boot.stage = 9 →
       exec (.registerWrite 0 0x40008 8 v) s = .next ((s.journal 0 0xFFFE 0 (leBytes 3 0x40008 ++ leBytes 3 v.toNat)).modPwr
         fun p => { p with window := max 100 (min 1000 (v.toNat % 65536)) }) ∧
       exec (.registerWrite 0 0x60008 8 v) s = .next ((s.journal 0 0xFFFE 0 (leBytes 3 0x60008 ++ leBytes 3 v.toNat)).modHealth
         fun h => { h with katInterval := max 10 (min 1000 (v.toNat % 65536)) })) ∧
     ∀ (bar size : Byte) (off : U32) (v : U64), ∃ t, exec (.registerWrite bar off size v) s = .next t)

/-! ### Links -/

/-- 11 R261-R263, R272-R274: LINK_TRAIN starts the named ports (one that is off goes DISABLED) and completes when none
of its ports trains; LINK_EXPECT_SET stores the expected far end, or clears it, when a port that neither is UP nor trains goes
DISABLED; LINK_QUERY returns status and far end; ROUTE_LOAD
replaces the table of its slice; PORT_OWNER_SET changes the owner and returns the old one. 11 R277-R283: PUT, GET and
MIRROR_SET start a transfer on a slice that has a route; the collectives open their window; at its deadline a transfer
or collective ends; a failed transfer goes out again after 1 ms. The words a table or descriptor is read from are checked first
(13 R316-R318). (The model's readings: which port an expectation of 0xFF
makes DISABLED, and that a training one keeps its state, log 42; packets taken off the ports at a deadline, log 72; a mirror's
open without a deadline, and CANCELLED for an enable that waits when mirroring ends or starts anew, log 73; the credits a
collective leases, log 100.) -/
def Obligations.LinkFamilyCommands : Prop :=
  (∀ (s : State) (e : Env) (r : CmdRec),
     (∀ (mask : U16), Ready s (.linkTrain e mask) e r → s.link.chip.isSome = true →
       exec (.linkTrain e mask) s = .next ((((List.range 12).filter fun n => mask.getLsbD n).foldl
         (fun s n => if (s.port n).off then s.disablePort n else s.train n (some r.id) false) (s.started r)).trainDone r.id)) ∧
     (∀ (port fp : Byte) (fc : BitVec 12) (dg : U64), Ready s (.linkExpectSet e port fc fp dg) e r → fp ≠ 0xFF →
       exec (.linkExpectSet e port fc fp dg) s = .next (((s.started r).modPort port.toNat fun x =>
         { x with expect := some ⟨fc.toNat, fp.toNat, dg⟩, off := false }).finish r.id .ok)) ∧
     (∀ (port : Byte) (fc : BitVec 12) (dg : U64) (t : State), Ready s (.linkExpectSet e port fc 0xFF dg) e r →
       t = (s.started r).modPort port.toNat (fun x => { x with expect := none, off := true }) →
       exec (.linkExpectSet e port fc 0xFF dg) s =
         .next ((if ((s.started r).port port.toNat).st = .up ∨ ((s.started r).port port.toNat).st = .training then t
           else t.portTo port.toNat .disabled).finish r.id .ok)) ∧
     (∀ port : Byte, Ready s (.linkQuery e port) e r → exec (.linkQuery e port) s =
       .next ((s.started r).finish r.id .ok (leBytes 8 ((s.started r).port port.toNat).status ++
         leBytes 8 (farIdReg ((s.started r).port port.toNat).far false)))) ∧
     (∀ (table : U64) (n : U32) (sl : Byte) (k : Nat) (u : State) (own : Option Nat) (es : List RouteEnt),
       Ready s (.routeLoad e table n sl) e r → n ≠ 0 →
       k = (s.started r).keyAt e table.toNat (16 * n.toNat) true false → u = (s.started r).touch k (16 * n.toNat) →
       u.routesFail sl.toNat 0 u.link.chip [] ((List.range n.toNat).map fun i => u.readBytes (k + 16 * i) 16) = .ok (own, es) →
       es.length ≤ 4096 → u.link.tables = [] → es ≠ [] → (es.length ≠ 1 ∨ ∃ x ∈ es, x.port ≠ 15) →
       exec (.routeLoad e table n sl) s = .next ((u.modLink fun l =>
         { l with chip := own, tables := [(sl.toNat, es)] }).finish r.id .ok (leBytes 4 es.length))) ∧
     (∀ port owner : Byte, Ready s (.portOwnerSet e port owner) e r → s.link.tables = [] →
       exec (.portOwnerSet e port owner) s = .next (((s.started r).modPort port.toNat fun x =>
         { x with owner := owner.toNat }).finish r.id .ok (leBytes 1 ((s.started r).port port.toNat).owner)))) ∧
  (∀ (s : State) (e : Env) (r : CmdRec),
     (∀ (src dst len dl : U64) (k sl : Nat), Ready s (.put e src dst len dl) e r → len ≠ 0 →
       (s.started r).heldAddr e src.toNat len.toNat true false = some k → (s.started r).sramBusy k len.toNat = false →
       (s.started r).link.originEntry ((s.started r).originJob e) (chipOf dst.toNat) = some sl →
       exec (.put e src dst len dl) s = .next ((s.started r).startTransfer (some r.id) .put sl (chipOf dst.toNat) k dst.toNat
         len.toNat dl.toNat)) ∧
     (∀ (src dst len dl : U64) (k sl : Nat), Ready s (.get e src dst len dl) e r → len ≠ 0 →
       (s.started r).heldAddr e dst.toNat len.toNat false true = some k → (s.started r).sramBusy k len.toNat = false →
       (s.started r).link.originEntry ((s.started r).originJob e) (chipOf src.toNat) = some sl →
       exec (.get e src dst len dl) s = .next ((s.started r).startTransfer (some r.id) .get sl (chipOf src.toNat) k src.toNat
         len.toNat dl.toNat)) ∧
     (∀ (op : Nat) (i : Instr) (desc dl : U64) (g : U16) (k : Nat) (v u : State) (hdr : List Byte) (raw : List (List Byte))
         (ms : List CollMember), Ready s i e r →
       ((op = 0x0903 ∧ i = .exchange e desc dl g) ∨ (op = 0x0904 ∧ i = .reduceScatter e desc dl g) ∨
         (op = 0x0905 ∧ i = .allGather e desc dl g)) →
       v.link.colls = [] → e.atTick = false →
       v = (s.started r).touch ((s.started r).keyAt e desc.toNat 64 true false) 64 →
       hdr = v.readBytes (v.keyAt e desc.toNat 64 true false) 64 →
       v.heldAddr e desc.toNat (64 + 32 * fieldAt hdr 6 2) true false = some k → u = v.touch (k + 64) (32 * fieldAt hdr 6 2) →
       raw = ((List.range (fieldAt hdr 6 2)).map fun j => u.readBytes (k + 64 + 32 * j) 32) →
       u.collFail e op hdr raw = none → ms = ((raw.mapIdx fun j b => u.collMember e op hdr b j).filterMap fun m => m) →
       (∀ m ∈ ms, m.chip = u.ownChip ∨ (u.link.originEntry (u.originJob e) m.chip).isSome = true) →
       exec i s = .next (u.openColl ⟨some r.id, g.toNat, op, fieldAt hdr 4 1, fieldAt hdr 8 2, fieldAt hdr 32 4,
         (u.addr e (fieldAt hdr 24 8) (fieldAt hdr 32 4) false true).getD 0, ms, u.tmr.count, dl.toNat, [], []⟩
         (u.originJob e))) ∧
     (∀ (c : Ctx) (buddy : BitVec 12), (s.started r).ctx? e.ctx.toNat = some c →
       (Ready s (.mirrorSet e buddy false) e r →
         (c.mirror = none → exec (.mirrorSet e buddy false) s = .next ((s.started r).finish r.id .ok)) ∧
         (∀ m v, c.mirror = some m → v = ((s.started r).dropTransfer m.xtag).modCtx c.id (fun d => { d with mirror := none }) →
           exec (.mirrorSet e buddy false) s = .next ((match m.cmd with
             | some x => v.finish x .cancelled
             | none => v).finish r.id .ok))) ∧
       (∀ g sl v, Ready s (.mirrorSet e buddy true) e r → c.evictRegion 1 = some g →
         (s.started r).link.originEntry c.job buddy.toNat = some sl → v = (s.started r).endMirror c →
         exec (.mirrorSet e buddy true) s = .next ((v.modCtx c.id fun d =>
           { d with mirror := some ⟨buddy.toNat, v.freshTag, none, false, some r.id, []⟩ }).startTransfer (some r.id) (.mirror c.id)
             sl buddy.toNat 0 (buddy.toNat * 2 ^ 52 + g.target) g.length 0))) ∧
     (∀ (c : Coll), s.running = true → s.coll? c.group = some c → c.deadline ≠ 0 → c.deadline ≤ s.tmr.count →
       exec (.collectiveDeadline c.group) s = .next ((s.dropSlices c.group).endColl c)) ∧
     (∀ (t : Transfer), s.running = true → s.transfer? t.xtag = some t →
       ((t.kind = .put ∨ t.kind = .get) → t.deadline ≠ 0 → t.deadline ≤ s.tmr.count →
         exec (.transferDeadline t.xtag) s = .next (s.endTransfer t .deadline (leBytes 8 t.moved))) ∧
       (∀ a, t.retryAt = some a → a ≤ s.tmr.elapsed → t.opened = true →
         exec (.transferRetry t.xtag) s = .next ((s.modTransfer t.xtag fun _ =>
           { t with retryAt := none, retried := true }).sendData { t with retryAt := none, retried := true }))))

/-- 11 R259-R267, R271: what happens on a port: lane repair with the ninth lane and its event, a far end gone idle,
the end of training by the far end's identity or 300,000 ticks after step 6 began without one, the frames of identity, acknowledgement, credit and time probes and
their timers, a stalled channel, a host write of RETRAIN. (The model's choices: reserved bits of acknowledgement, credit and
probe frames are ignored, log 105; a stall is judged also on a port that is DOWN, by the later of two moments, log 70; step 6 of
a training begins when the lanes are qualified, log 41.) -/
def Obligations.PortRows : Prop :=
  ∀ (s : State) (n : Nat), s.running = true → n ≤ 11 →
    ((s.port n).st = .up →
      (∀ lane, lane ≤ 8 → bit (s.port n).laneFail lane = false → (s.port n).active.contains lane = true →
        (goodLanes ((s.port n).laneFail ||| 2 ^ lane)).length = 8 →
        exec (.laneFailure n lane) s = .next ((((s.modPort n fun x => { x with laneFail := (s.port n).laneFail ||| 2 ^ lane }).modPort
          n fun x => { x with spareUsed := true, active := goodLanes ((s.port n).laneFail ||| 2 ^ lane) }).event n 0x0022
            (leBytes 1 n ++ leBytes 1 lane)).journalAction 0x22 (leBytes 1 n ++ leBytes 1 lane))) ∧
      exec (.farEndIdle n) s = .next (s.portDown n 3) ∧
      (0 < (s.port n).unacked → exec (.ackTimer n) s = .next ((s.modPort n fun x => { x with unacked := 0 }).control n
        ([0x33, 0] ++ leBytes 2 (((s.port n).rxSeq + 65535) % 65536)))) ∧
      (∀ (vc : BitVec 2) (cls : BitVec 1), vc.toNat ≤ 2 → exec (.creditFrameTimer n vc cls) s =
        .next ((s.modPort n fun x =>
          { x with freedSent := x.freedSent.set (chIx vc.toNat cls.toNat) ((s.port n).freed.getD (chIx vc.toNat cls.toNat) 0) }).control n
            (leBytes 1 0x34 ++ leBytes 1 (vc.toNat + 4 * cls.toNat) ++ [0, 0] ++
              leBytes 4 ((s.port n).freed.getD (chIx vc.toNat cls.toNat) 0)))) ∧
      (∀ (ch : Byte) (rsv : U16) (total : U32) (tail : BitVec 96) (vc cls : Nat), crcGood (creditBytes ch rsv total tail) = true →
        vc = ch.toNat % 4 → cls = ch.toNat / 4 % 2 → vc ≤ 2 → exec (.credit n ch rsv total tail) s =
        .next ((s.modPort n fun x => { x with granted := x.granted.set (chIx vc cls) total.toNat
                                              waitSince := if x.granted.getD (chIx vc cls) 0 = total.toNat then x.waitSince
                                                else x.waitSince.set vc s.tmr.elapsed }).flushPort n)) ∧
      (∀ (flags : Byte) (lseq : U16) (tail : BitVec 128) (q : Nat), crcGood (ackBytes flags lseq tail) = true → q = lseq.toNat →
        (flags.getLsbD 0 = true → exec (.acknowledgement n flags lseq tail) s = .next (s.replay n q)) ∧
        (flags.getLsbD 0 = false → exec (.acknowledgement n flags lseq tail) s =
          .next ((s.modPort n fun x => { x with held := x.held.filter fun p => seqAhead q p.lseq ≥ 32768
                                                heldReplays := if (x.held.filter fun p =>
                                                  seqAhead q p.lseq ≥ 32768).length < x.held.length then 0
                                                  else x.heldReplays }).flushPort n)))) ∧
    (∀ vc ps, vc ≤ 2 → ps = (s.port n).waiting.filter (fun w => w.pkt.vc == vc) → ps ≠ [] →
      (s.port n).waitSince.getD vc 0 + 1000000 ≤ s.tmr.elapsed → exec (.vcStall n vc) s =
      .next ((ps.foldl (fun s w => (s.leaveBuffer w).bounce w.pkt 4) (s.modPort n fun x => { x with
        waiting := x.waiting.filter fun w => w.pkt.vc != vc })).event n 0x0026
          (leBytes 1 n ++ leBytes 1 vc ++ [0, 0] ++ leBytes 4 ps.length))) ∧
    ((s.port n).st = .training →
      (∀ (farPort : Byte) (farChip : U16) (digest : U64) (crc : U32),
        crcGood (identityBytes farPort farChip 0 digest crc) = true → farChip.toNat < 4096 →
        exec (.identity n farPort farChip 0 digest crc) s = .next (s.modPort n fun x =>
          { x with far := some ⟨farChip.toNat, farPort.toNat, digest⟩ })) ∧
      ((s.port n).far = none →
        (∀ at_, (s.port n).sixAt = some at_ → at_ + 300000 ≤ s.tmr.elapsed →
          exec (.identityTimeout n) s = .next (s.quarantine n 5)) ∧
        (((s.port n).sixAt = none ∨ ∃ at_, (s.port n).sixAt = some at_ ∧ s.tmr.elapsed < at_ + 300000) →
          exec (.identityTimeout n) s = .next s)) ∧
      (∀ lanes eye u, lanes = [0, 1, 2, 3, 4, 5, 6, 7, 8] → s.grid.lanesFailed = [] →
        u = s.modPort n (fun x => x.withLanes 0 (eye % 256)) →
        exec (.linkTrainingComplete n lanes eye) s = .next (match (s.port n).far with
          | none => u.modPort n fun x => { x with sixAt := some (x.sixAt.getD s.tmr.elapsed) }
          | some f => match identityReason (s.port n).judged f with
            | some why => u.quarantine n why
            | none => u.portUp n)) ∧
      (∀ (flags : Byte) (probe : U16) (turn : U32) (stamp : U64) (crc : U32) (at_ : U64), (s.port n).probes.length < 63 →
        crcGood (probeBytes flags probe turn stamp crc) = true → flags.getLsbD 0 = true →
        exec (.timeProbe n flags probe turn stamp crc at_) s =
        .next (s.modPort n fun x => { x with probes := (s.port n).probes ++ [at_.toNat - stamp.toNat - turn.toNat] }))) ∧
    (∀ (p : BitVec 4) (v : U64), p.toNat = n → s.link.chip.isSome = true → (s.port n).off = false → v.getLsbD 63 = true →
      exec (.retrain p v) s = .next ((s.journal 0 0xFFFE 0 (leBytes 3 (0x70000 + 8 * n) ++ leBytes 3 v.toNat)).retrain n))

/-- 11 R266, R268-R271, R275-R280: a packet whose CRC is good and that is in order goes to transit or delivery by its
destination; one that is bad is answered by a NAK; the oldest packet in transit loses one hop and moves on, holding its buffer until it leaves;
the oldest delivered packet of each type
does what its type says: it writes, is answered with data, moves a transfer on, enters a window, opens a range,
starts, ends or refuses a transfer. -/
def Obligations.PacketRows : Prop :=
  ∀ (s : State) (n : Nat) (p : Pkt), s.running = true →
    (n ≤ 11 → (s.port n).st = .up →
      (∀ (fec : Bool) (bytes : List Byte) (marks : List Nat), (fec = false ∨ wireGood bytes = false) →
        exec (.packetReceive n fec ⟨bytes, marks⟩) s = .next (s.control n ([0x33, 1] ++ leBytes 2 (s.port n).rxSeq))) ∧
      (∀ (bytes : List Byte) (marks : List Nat), wireGood bytes = true → p = Pkt.of bytes marks → p.vc ≠ 3 →
        p.lseq = (s.port n).rxSeq → (s.port n).unacked < 63 → p.slice = (s.port n).owner →
        (p.dst = s.ownChip → 1 ≤ p.desc.code ∧ p.desc.code ≤ 9) →
        ∀ u, u = s.modPort n (fun x => { x with rxSeq := (x.rxSeq + 1) % 65536, unacked := x.unacked + 1 }) →
        exec (.packetReceive n true ⟨bytes, marks⟩) s =
          if p.dst = s.ownChip ∧ s.link.chip.isSome = true then
            .next { u with link := { u.link with delivered := u.link.delivered ++ [(n, p)] } }
          else .next { u with link := { u.link with transit := u.link.transit ++ [(n, p)] } })) ∧
    (s.link.transit = [(n, p)] → ∀ u m r, 2 ≤ p.ttl →
      ({ s with link := { s.link with transit := [] } } : State).tryRoute { p with ttl := p.ttl - 1 } =
        .ok (u, m, r) → exec .transitForward s = .next (u.enqueue m ⟨r, some (n, p.cls)⟩)) ∧
    (s.link.delivered = [(n, p)] → p.wellFormed = true →
      ∀ u : State, u = ({ s with link := { s.link with delivered := [] } } : State).freeUnits n p →
      (∀ ga len o, p.desc = .writeData ga len → u.openedBy p = some o → o.op = 0 → u.inOpened o ga len = true →
        ∀ v o1, (u.writeMarked (keyOf ga) p.data p.marks).noteOpened o ga len = (v, o1) →
        exec .writeData s = .next (v.originate (v.mkPkt p.slice p.src p.xtag (.e2eAck o1.bytes (o1.len ≤ o1.bytes)) [] []))) ∧
      (∀ ga len o, p.desc = .readRequest ga len → u.openedBy p = some o → o.op = 1 → u.inOpened o ga len = true →
        ∀ w v o1, w = u.touch (keyOf ga) len → w.noteOpened o ga len = (v, o1) →
        exec .readRequest s = .next (v.originate (v.mkPkt p.slice p.src p.xtag (.readData ga len) (w.readBytes (keyOf ga) len)
          (w.poisonOffsets (keyOf ga) len)))) ∧
      (∀ ga len t, p.desc = .readData ga len → u.transfer? p.xtag = some t → t.kind = .get → t.chip = p.src → t.opened = true →
        t.remote ≤ ga → ga + len ≤ t.remote + t.len → t.parts = [] → t.moved + len < t.len →
        exec .readData s = .next ((u.writeMarked (t.local_ + (ga - t.remote)) p.data p.marks).modTransfer t.xtag fun _ =>
          { t with moved := t.moved + len, poisoned := t.poisoned || !p.marks.isEmpty, parts := [(ga - t.remote, [], [])] })) ∧
      (∀ g rank off len by_ op la c, p.desc = .slice g rank op la off len by_ → s.coll? g = some c → u.coll? g = some c →
        op = c.opcode → (c.members[rank]?).map (·.chip) = some p.src → rank ≠ c.rank →
        (c.cmd.isSome = true ∨ la = c.launch → exec .collectiveSlice s = .next (u.takeSlice c rank off len p.data p.marks)) ∧
        (c.cmd = none → la < c.launch → exec .collectiveSlice s = .next u.countDrop)) ∧
      (∀ cx st off by_ cm o, p.desc = .mirror cx st off by_ cm → u.openedBy p = some o → o.op = 2 →
        u.inOpened o (o.ga + off) by_ = true →
        exec .mirrorData s = .next (u.writeMarked (keyOf (o.ga + off)) p.data p.marks)) ∧
      (∀ ga len op dl, p.desc = .openRange ga len op dl → u.ownGa ga = true → op ≤ 2 →
        (u.mem.allocOf (keyOf ga) len).isSome = true →
        ∀ v, v = ((u.closeOpened p.src p.xtag).modLink fun l =>
          { l with opened := l.opened ++ [⟨p.src, p.xtag, ga, len, op, dl, []⟩] }) →
        exec .openRange s = .next (v.originate (v.mkPkt p.slice p.src p.xtag (.openReply 0 0) [] []))) ∧
      (∀ ck t, p.desc = .openReply 0 ck → u.transfer? p.xtag = some t → t.chip = p.src → t.opened = false → t.kind = .put →
        exec .openReply s = .next ((u.modTransfer t.xtag fun _ => { t with opened := true }).sendData { t with opened := true })) ∧
      (∀ by_ t, p.desc = .e2eAck by_ true → u.transfer? p.xtag = some t → t.chip = p.src → t.kind = .put → t.poisoned = false →
        exec .endToEndAcknowledgement s = .next ((u.modTransfer t.xtag fun _ =>
          { t with moved := max t.moved (min t.len by_) }).endTransfer { t with moved := max t.moved (min t.len by_) } .ok
            (leBytes 8 t.len))) ∧
      (∀ ch cause ty tag, p.desc = .unreachable ch cause ty tag → exec .unreachable s = .next (u.unreached ty tag))) ∧
    (∀ tick, s.link.heldColl = [(n, tick, p)] → tick + 100000 ≤ s.tmr.elapsed → exec (.heldPacketDiscard n) s =
      .next ((({ s with link := { s.link with heldColl := [] } } : State).freeUnits n p).countDrop))

/-! ### Power, temperature, coolant -/

/-- 12 R302. KEEPWARM_SET writes floor and ramp together, at its launch tick with AT_TICK; a floor above 4,000 W or a
ramp above 100,000 W/ms is BAD_PARAM, and zero is valid for both. (The rule's last sentence is about the rack
manager.) -/
def Obligations.KeepwarmSet : Prop :=
  ∀ (s : State) (e : Env) (floor ramp : U32),
    (∀ r, Ready s (.keepwarmSet e floor ramp) e r → exec (.keepwarmSet e floor ramp) s =
      .next (((s.started r).modPwr fun p => { p with floor := floor.toNat, ramp := ramp.toNat }).finish r.id .ok)) ∧
    (∀ r, s.working = true → s.boot.stage = 9 → s.q.recs = [r] → r.cmd = .keepwarmSet e floor ramp → r.env = e →
      r.phase = .waiting → e.launch.toNat ≤ s.tmr.count → e.atTick = true → s.boundOk r = true →
      exec (.tickLaunch e.q) s =
        .next (((s.started r).modPwr fun p => { p with floor := floor.toNat, ramp := ramp.toNat }).finish r.id .ok)) ∧
    (∀ p, Arriving s (.keepwarmSet e floor ramp) e p → s.envelopeOk (opcodeOf (.keepwarmSet e floor ramp)) e →
      (4000 < floor.toNat ∨ 100000 < ramp.toNat) →
      exec (.keepwarmSet e floor ramp) s = .next (s.takeIn (.keepwarmSet e floor ramp) e (some .badParam))) ∧
    (checkKeepwarmSet floor ramp s = none ↔ floor.toNat ≤ 4000 ∧ ramp.toNat ≤ 100000)

/-- 12 R293-R295, R303: PWR_LIMITS writes its non-zero fields, SUSTAIN clamped into 1,500-6,500 W, and reports a
change of the cap in force with the cause of the limit that moved it (Table 12.7); PHASE_TABLE_SET replaces the first entries; MGR_HEARTBEAT restarts the watch and echoes;
PWR_QUERY returns mean power, cap and energy; a watch that lapses brings the lost state, its cap and event 0x0042. -/
def Obligations.PowerCommands : Prop :=
  ∀ (s : State) (e : Env) (r : CmdRec),
    (∀ su pk w lo to_ : U32, Ready s (.pwrLimits e su pk w lo to_) e r → exec (.pwrLimits e su pk w lo to_) s =
      .next ((((s.started r).setLimits (fun p => { p with
        sustainCap := if su = 0 then p.sustainCap else max 1500 (min 6500 su.toNat)
        peakCap := if pk = 0 then p.peakCap else pk.toNat
        window := if w = 0 then p.window else w.toNat
        lostCap := if lo = 0 then p.lostCap else lo.toNat
        timeout := if to_ = 0 then p.timeout else if to_ = 0xFFFFFFFF then 0 else to_.toNat })
        (s.pwr.capCause (s.pwr.withLimits su pk w lo to_))).watchOff).finish r.id .ok)) ∧
    (∀ su pk w lo to_ : U32, (s.pwr.withLimits su pk w lo to_).cap ≠ s.pwr.cap →
      (pk = 0 → lo = 0 → s.pwr.capCause (s.pwr.withLimits su pk w lo to_) = 1) ∧
      (su = 0 → lo = 0 → s.pwr.capCause (s.pwr.withLimits su pk w lo to_) = 2) ∧
      (su = 0 → pk = 0 → s.pwr.capCause (s.pwr.withLimits su pk w lo to_) = 3)) ∧
    (∀ (table : U64) (n : Byte) (k : Nat) (u : State) (vs : List Nat), Ready s (.phaseTableSet e table n) e r → n ≠ 0 →
      k = (s.started r).keyAt e table.toNat (8 * n.toNat) true false → u = (s.started r).touch k (8 * n.toNat) →
      vs = ((List.range n.toNat).map fun i => u.readNat (k + 8 * i) 8) →
      (∀ v ∈ vs, v < 512 ∧ v % 16 ≤ v / 16 % 16) → u.running = true →
      exec (.phaseTableSet e table n) s = .next (((u.modPwr fun p =>
        { p with phases := vs.map (BitVec.ofNat 64) ++ p.phases.drop n.toNat }).adjustOp).finish r.id .ok)) ∧
    (∀ q : U32, Ready s (.mgrHeartbeat e q) e r → s.pwr.mgrLost = false → exec (.mgrHeartbeat e q) s =
      .next (((s.started r).modPwr fun p => { p with lastBeat := s.tmr.elapsed }).finish r.id .ok (leBytes 4 q.toNat))) ∧
    (Ready s (.pwrQuery e) e r → exec (.pwrQuery e) s = .next ((s.started r).finish r.id .ok
      (leBytes 4 s.pwr.mean ++ leBytes 4 s.pwr.cap ++ leBytes 8 s.pwr.energy))) ∧
    (s.running = true → s.pwr.timeout ≠ 0 → s.pwr.mgrLost = false → s.pwr.timeout ≤ (s.tmr.elapsed - s.pwr.lastBeat) / 100000 →
      exec .mgrTimeoutLapse s = .next (((s.event 72 0x0042 ([0, 0, 0, 0] ++
        leBytes 4 ((s.tmr.elapsed - s.pwr.lastBeat) / 100000))).journalAction 0x40 [3]).setLimits
          (fun p => { p with mgrLost := true }) 3))

/-- 12 R287, R288, R296, 16 Table 16.2: a sample of the supply adds to the energy and to the last samples; VIN below
32 V applies the clamp (duty 8/16 at most, cap at most 2,600 W); below 28 V the rails go off; a sample beyond the
absolute maximum ratings, where the manual gives no behaviour, is the model's one fault; a droop trip sets its die's
detector. 12 R289, R297-R303: the peak limiter lowers duty near the peak limit, the sustained loop chooses the fastest
point that fits, a cap fall's first step lowers duty to what fits, duty rises again no sooner than 500 ticks after the
rail has settled and ends the fall at full duty, a settled rail brings the point in force, Keep-warm fills a beat up to
the floor with what its idle cores can draw (how many of them are under LBIST at a beat is a free number, log 126). -/
def Obligations.PowerRows : Prop :=
  (∀ (s : State) (mv : Int) (w : Nat),
     ((48000 < mv ∨ mv < -500) → exec (.vinSample mv w) s = .fault .beyondAbsoluteMaximum) ∧
     (28000 ≤ mv → mv ≤ 48000 → s.pins.rails = true → s.pins.vinPresent = true → s.alive = true → s.boot.trivet = true →
       ∃ t, exec (.vinSample mv w) s = .next t ∧ t.pwr.energy = (s.pwr.energy + w) % 2 ^ 64 ∧
         t.pwr.samples = (w :: s.pwr.samples).take 1000 ∧ t.pins.vinMv = mv) ∧
     (32000 ≤ mv → mv ≤ 40000 → s.pins.rails = true → s.working = true → s.pins.vinPresent = true → s.pwr.clamp = false →
       s.pwr.high40 = 0 → s.pwr.high42 = 0 →
       exec (.vinSample mv w) s = .next { s with
         pins := { s.pins with vinMv := mv }, pwr := (s.pwr.sample mv w).hardCap }) ∧
     (30000 ≤ mv → mv < 32000 → s.pins.rails = true → s.working = true → s.pins.vinPresent = true → s.pwr.clamp = false →
       1 ≤ s.pwr.duty →
       ∃ t, exec (.vinSample mv w) s = .next t ∧ t.pwr.clamp = true ∧ t.pwr.duty = min 8 s.pwr.duty ∧ t.pwr.cap ≤ 2600) ∧
     (-500 ≤ mv → mv < 28000 → s.pins.rails = true →
       exec (.vinSample mv w) s = .next ({ s with pins := { s.pins with vinMv := mv, vinPresent := true } } : State).railsOff) ∧
     (∀ d : BitVec 2, s.working = true →
       exec (.droopTrip d) s = .next { s with pwr := { s.pwr with droop := s.pwr.droop.set d.toNat true } })) ∧
  (∀ s : State,
     (∀ n, n = min s.pwr.window s.pwr.samples.length → n ≠ 0 → s.working = true →
       97 * s.pwr.peakCap * n ≤ 100 * (s.pwr.samples.take n).sum → s.pwr.dutyAt + 500 ≤ s.tmr.elapsed →
       exec .peakLimiterAdjust s = .next (s.setDuty (s.pwr.duty - 1))) ∧
     (∀ f q, s.running = true → 1000 ≤ s.pwr.samples.length → s.pwr.capFall = 0 → s.pwr.fastest f s.pwr.duty = some q →
       exec (.sustainedLoopRun f) s = .next ({ s with pwr := { s.pwr with loopOp := q } } : State).adjustOp) ∧
     (∀ f, s.working = true → s.pwr.capFall = 1 → exec (.capFallDutyStep f) s =
       .next (({ s with pwr := { s.pwr with capFall := 2 } } : State).setDuty (s.pwr.largestDuty f s.pwr.op s.pwr.duty))) ∧
     (∀ f, s.working = true → s.pwr.capFall = 4 → 16 ≤ s.pwr.duty →
       exec (.capFallDutyStep f) s = .next { s with pwr := { s.pwr with capFall := 0 } }) ∧
     (∀ f, s.working = true → s.pwr.capFall = 4 → s.pwr.duty < 16 →
       (s.tmr.elapsed < s.pwr.settledAt + 500 → exec (.capFallDutyStep f) s = .next s) ∧
       (s.pwr.dutyAt + 500 ≤ s.tmr.elapsed → s.pwr.settledAt + 500 ≤ s.tmr.elapsed → s.pwr.settling = none →
         s.pwr.fits f s.pwr.op (s.pwr.duty + 1) = true →
         exec (.capFallDutyStep f) s = .next (s.setDuty (s.pwr.duty + 1)))) ∧
     (∀ q, s.working = true → s.pwr.settling = some q → ∃ t, exec .opRailSettled s = .next t ∧ t.pwr.op = q ∧
       t.pwr.settling = none ∧ t.pwr.duty = s.pwr.duty) ∧
     (∀ u i : Nat, s.running = true → s.tmr.count % 1024 = 0 → s.pwr.rampOff = true → s.fillBeat = true →
       ∃ w : U64, ∀ most held : Nat, most = 100000 * u + 100 * i * s.idleCores w →
       held = max (100000 * u) (min (100000 * min s.pwr.floor s.pwr.cap) most) →
       exec (.keepwarmBeat u i) s = .next { s with
         free := s.free + 1
         pwr := { s.pwr with fill := decide (100000 * u < held), beatMean := held } }))

/-- 12 R304-R307: a sample below 95 °C with the inlet in range is only recorded, with the outlet predicted and its
excess, one from 105 °C brings Trivet, one from 115 °C the hard trip with THERM_TRIP_N low; the throttle steps one point slower each 1 ms while hot; a pulse of
the flow meter counts; flow below 2.0 L/min for 50 ms brings Simmer, and 10 s of good conditions end it. (The model's choices:
the prediction, readings kept 50.1 ms and coolant registers untouched by FLOW_CHECK, log 102; the cause in journal action 0x43,
log 65; pulses above 2,000 Hz, log 125.) -/
def Obligations.ThermalRows : Prop :=
  ∀ s : State, s.alive = true →
    (∀ (t ci co : Int) (w : Byte), 1840 ≤ t → exec (.thermalSample t w ci co) s =
      .next { s.railsOff with pins := { s.railsOff.pins with tripLatch := true, hardOff := true } }) ∧
    (∀ (t ci co : Int) (w : Byte), t < 1840 → 1680 ≤ t → s.boot.trivet = false → exec (.thermalSample t w ci co) s =
      .next (({ s with therm := { s.therm with
        tempMax := t, whereDie := w.toNat, coolIn := ci, coolOut := co, sampled := true
        predicted := some (s.predictOutlet ci co), predictedAt := s.tmr.elapsed
        excess := (s.tmr.elapsed, 62500 * co - s.predictOutlet ci co) ::
          s.therm.excess.filter fun x => s.tmr.elapsed < x.1 + 5010000 } } : State).powerTrivet 1 3)) ∧
    (∀ (t ci co : Int) (w : Byte), t < 1520 → s.running = true → 240 ≤ ci → ci ≤ s.therm.inletMax * 16 →
      s.therm.inletOut = false → exec (.thermalSample t w ci co) s =
      .next { s with therm := { s.therm with
        tempMax := t, whereDie := w.toNat, coolIn := ci, coolOut := co, sampled := true
        predicted := some (s.predictOutlet ci co), predictedAt := s.tmr.elapsed
        excess := (s.tmr.elapsed, 62500 * co - s.predictOutlet ci co) ::
          s.therm.excess.filter fun x => s.tmr.elapsed < x.1 + 5010000 } }) ∧
    (s.running = true → s.therm.throttle = true → 1520 ≤ s.therm.tempMax → s.therm.throttleAt + 100000 ≤ s.tmr.elapsed →
      exec .thermalThrottleStep s = .next ({ s with therm := { s.therm with
        throttleOp := min 15 (s.therm.throttleOp + 1), throttleAt := s.tmr.elapsed } } : State).adjustOp) ∧
    ((∀ x, s.therm.pulses.head? = some x → x + 50000 ≤ s.tmr.elapsed) →
      exec .flowPulse s = .next { s with therm := { s.therm with
        pulses := s.tmr.elapsed :: s.therm.pulses.filter fun x => s.tmr.elapsed < x + 1000000 } }) ∧
    (∀ x, s.therm.pulses.head? = some x → s.tmr.elapsed < x + 50000 → exec .flowPulse s = .next s) ∧
    (∀ (a : Nat), s.working = true → s.boot.stage ≠ 9 → s.flowReady = true → s.flow < 2000 →
      s.therm.lowSince = some a → a + 5000000 ≤ s.tmr.elapsed → s.pwr.simmer = false →
      ∀ ci co : Int, ∃ t, exec (.flowCheck ci co) s = .next t ∧ t.pwr.simmer = true ∧ t.pwr.simmerCause = 1 ∧
        t.pwr.fill = false ∧ t.therm.predicted = some (s.predictOutlet ci co) ∧
        t.therm.coolIn = s.therm.coolIn ∧ t.therm.coolOut = s.therm.coolOut) ∧
    (∀ a, s.working = true → s.pwr.simmer = true → s.pwr.goodSince = some a → a + 1000000000 ≤ s.tmr.elapsed →
      exec .simmerExit s = .next ((({ s with pwr := { s.pwr with
        simmer := false, goodSince := none, loopOp := 15 } } : State).simmerEvent 1).journalAction 0x43
          (leBytes 1 s.pwr.simmerCause)))

/-! ### Safety, repair, trace -/

/-- 13 R313. KAT_CFG writes KAT_INTERVAL; an interval outside 10-1,000 ms is BAD_PARAM; the round in progress keeps its
interval, and the next one takes the new; the command is journaled with the columns retired and the grade (Table 3.14). -/
def Obligations.KatInterval : Prop :=
  ∀ (s : State) (e : Env) (ms : U32),
    (∀ r, Ready s (.katCfg e ms) e r → exec (.katCfg e ms) s =
      .next (({ s.started r with health := { (s.started r).health with katInterval := ms.toNat } } : State).finish r.id .ok)) ∧
    (checkKatCfg ms s = none ↔ 10 ≤ ms.toNat ∧ ms.toNat ≤ 1000) ∧
    (∀ p, Arriving s (.katCfg e ms) e p → s.envelopeOk 0x0B04 e → (ms.toNat < 10 ∨ 1000 < ms.toNat) →
      exec (.katCfg e ms) s = .next (s.takeIn (.katCfg e ms) e (some .badParam))) ∧
    (s.running = true → s.health.katAt + 100000 * s.health.katCur ≤ s.tmr.elapsed → s.katTick = { s with
      health := { s.health with
        rounds := s.health.rounds + 1, katAt := s.tmr.elapsed, katCur := s.health.katInterval } }) ∧
    (s.tmr.elapsed < s.health.katAt + 100000 * s.health.katCur → s.katTick = s) ∧
    ∀ st res, s.journalDetail (.katCfg e ms) st res =
      some (leBytes 2 s.grid.retiredAll ++ leBytes 1 (gradeOf s.grid.retiredAll))

/-- 13 R327. REPAIR_COMMIT without bit 0 only reports the columns retired and the grade; with it the record is
written, and a write that fails (which only a free value decides) completes HW_FAULT and leaves memory as it was. -/
def Obligations.RepairCommit : Prop :=
  ∀ (s : State) (e : Env) (r : CmdRec),
    (Ready s (.repairCommit e false) e r → exec (.repairCommit e false) s =
      .next ((s.started r).finish r.id .ok (leBytes 2 s.grid.retiredAll ++ leBytes 1 (gradeOf s.grid.retiredAll)))) ∧
    (Ready s (.repairCommit e true) e r → ∃ (fails : Bool) (u : State), u = { s.started r with free := (s.started r).free + 1 } ∧
      u.mem = (s.started r).mem ∧
      exec (.repairCommit e true) s = .next (if fails then u.finish r.id .hwFault
        else (u.flashWrite 2 s.grid.repairBytes).finish r.id .ok
          (leBytes 2 s.grid.retiredAll ++ leBytes 1 (gradeOf s.grid.retiredAll))))

/-- 14 R346, 13 R326: a write of the repair record goes to the copy that is not in force, with SEQ + 1: the record in
force becomes the new one, and the old copy still reads as before. -/
def Obligations.FlashTwoCopies : Prop :=
  ∀ (s : State) (body : List Byte) (o : Nat), s.mem.wf = true → s.grid.stackFailed = [] → body.length + 32 ≤ 65536 →
    s.flashCopy 2 = some o → s.flashSeq o + 1 < 2 ^ 32 →
    (s.flashWrite 2 body).flashRecord 2 = some (flashSealed 2 (s.flashSeq o + 1) body) ∧
    ∀ i, i < 65536 → (s.flashWrite 2 body).readByte (mkKey 5 (o + i)) = s.readByte (mkKey 5 (o + i))

/-- 13 R319, R328, R334-R336: SCRUB_CFG sets the periods it names; SELFTEST waits for its tests and returns the
failures found; HEALTH_QUERY writes the report up to its length; TRACE_CFG restarts the trace; DUMP writes header and
body. -/
def Obligations.HealthCommands : Prop :=
  ∀ (s : State) (e : Env) (r : CmdRec),
    (∀ a b : U32, Ready s (.scrubCfg e a b) e r → exec (.scrubCfg e a b) s =
      .next (({ s.started r with health := { (s.started r).health with
        hbmS := if a = 0 then s.health.hbmS else a.toNat, ddrS := if b = 0 then s.health.ddrS else b.toNat } } : State).finish
          r.id .ok)) ∧
    (∀ a b : U32, checkScrubCfg a b s = none ↔ (a = 0 ∨ (10 ≤ a.toNat ∧ a.toNat ≤ 60)) ∧ (b = 0 ∨ (30 ≤ b.toNat ∧ b.toNat ≤ 300))) ∧
    (∀ m : Byte, Ready s (.selftest e m) e r → m ≠ 0 → exec (.selftest e m) s =
      .next { s.started r with health := { (s.started r).health with selftest := s.health.selftest ++ [(r.id, m.toNat)] } }) ∧
    (∀ cmd m : Nat, s.running = true → s.health.selftest = [(cmd, m)] →
      exec (.selftestComplete [] []) s = .next (({ s with health := { s.health with selftest := [] } } : State).finish cmd .ok
        [0, 0, 0, 0]) ∧
      ∀ d row pos, m % 4 ≠ 0 → d < 4 → row < 80 → pos < 82 → s.testable d row pos = true →
        exec (.selftestComplete [(d, row, pos)] []) s = .next ((({ s with health := { s.health with selftest := [] } } :
          State).failPos d row pos).finish cmd .ok [1, 0, 0, 0])) ∧
    (∀ (dst : U64) (len : U32) (k : Nat), Ready s (.healthQuery e dst len) e r → len ≠ 0 →
      (s.started r).heldAddr e dst.toNat len.toNat false true = some k →
      exec (.healthQuery e dst len) s = .next (((s.started r).writeBytes k ((s.started r).healthReport.take len.toNat)).finish
        r.id .ok (leBytes 4 ((s.started r).healthReport.take len.toNat).length))) ∧
    (∀ (buf : U64) (size mask : U32), Ready s (.traceCfg e buf size mask) e r → size ≠ 0 →
      exec (.traceCfg e buf size mask) s = .next (({ s.started r with health := { (s.started r).health with
        traceBase := buf.toNat, traceSize := size.toNat, traceMask := mask.toNat, traceSeq := 1 } } : State).finish r.id .ok)) ∧
    (∀ (dst : U64) (len core : U32) (kind : Byte) (k : Nat) (body : List Byte), Ready s (.dump e dst len kind core) e r → len ≠ 0 →
      (s.started r).heldAddr e dst.toNat len.toNat false true = some k → body = (s.started r).dumpBody e kind.toNat core.toNat →
      32 + body.length ≤ len.toNat →
      exec (.dump e dst len kind core) s = .next (((s.started r).writeBytes k (leBytes 4 0x31504D44 ++ leBytes 1 kind.toNat ++ [0] ++
        leBytes 2 1 ++ leBytes 4 (32 + body.length) ++ [0, 0, 0, 0] ++ leBytes 8 s.tmr.count ++ [0, 0, 0, 0, 0, 0, 0, 0] ++
          body)).finish r.id .ok (leBytes 4 (32 + body.length))))

/-- 13 R312, R314, R315, R320: a known-answer round that passes ends the round due on its core; one that fails counts,
writes event 0x0061 and fails the core; either way the round's six tiles have gone to the core; a unit that fails leaves service with event 0x0068 and journal action 0x65; a
failed logic self-test fails a spare or idle position. 13 R321, R324, R329, R330: a lockstep mismatch brings Trivet
with cause 2, after event 0x0069 and journal action 0x64 unless the pair is CP0; the new map of a die ends its holds
and counts a remap; the hourly measurement holds wear, forecast and the day's history, and takes the present counts as
the next one's base; the daily write enters the log. (The model's choices: the forecast's formula is a
free value, log 107; ports DISABLED in Trivet, log 104; KATFAIL by unit rounds and the operating hours, log 69; the wear index,
log 117.) -/
def Obligations.SelfTestAndFaultRows : Prop :=
  (∀ s : State, s.running = true →
     (∀ c u : Nat, s.grid.hasCore c = true → s.inPartition c = true → ∀ v : State, v = Nat.repeat (fun x : State =>
         x.managerPacket 3 c) 6 { s with fab := { s.fab with
           cores := s.fab.cores.map fun x => if x.idx == c then { x with katDue := false } else x } } →
       exec (.katRound (.core c) true u) s = .next v ∧
       exec (.katRound (.core c) false u) s =
         .next ((({ v with health := { v.health with katFail := min (2 ^ 32 - 1) (v.health.katFail + 1) } } : State).event
           (52 + s.grid.dieOf (coreCol c)) 0x0061 (leBytes 2 c ++ leBytes 1 u)).failCore c)) ∧
     (∀ k d u : Nat, 3 ≤ k → k ≤ 5 → d ≤ 3 → exec (.katRound (.unit k d) true u) s = .next s ∧
       (∀ v : State, s.grid.elements.contains ⟨k, d, 0⟩ = false → v = (({ s with
           health := { s.health with katFail := min (2 ^ 32 - 1) (s.health.katFail + 1) }
           grid := { s.grid with elements := s.grid.elements ++ [⟨k, d, 0⟩] }
           boot := { s.boot with warnUnit := true } } : State).event 76 0x0068
           (leBytes 1 k ++ [0] ++ leBytes 2 d)).journalAction 0x65 (leBytes 1 k ++ leBytes 2 d) →
         exec (.katRound (.unit k d) false u) s =
           .next (if k = 4 then (v.waitingOn d).foldl (fun x c => x.tearDown c .fault) v else v))) ∧
     (∀ d row pos : Nat, d < 4 → row < 80 → pos < 82 → s.testable d row pos = true →
       exec (.lbistCoreRun d row pos true) s = .next s ∧ exec (.lbistCoreRun d row pos false) s = .next (s.failPos d row pos))) ∧
  (∀ s : State, s.working = true →
     (exec (.lockstepMismatch 0) s = .next { s with
       boot := { s.boot with trivet := true, trivetCause := 2 }
       pwr := { s.pwr with fill := false }
       link := { s.link with ports := s.link.ports.map fun x => { x with st := .disabled } } }) ∧
     (∀ p : BitVec 3, p ≠ 0 → s.boot.stage = 9 → ∃ u : State,
       u = (s.event 76 0x0069 (leBytes 1 p.toNat)).journalAction 0x64 (leBytes 1 p.toNat) ∧
       exec (.lockstepMismatch p) s = .next (u.enterTrivet 2)) ∧
     (∀ m : Remap, s.boot.stage = 9 → s.grid.remaps = [m] → s.movedQuiet m = true →
       ∃ (t : State) (g : Grid) (n : Nat), exec (.coreRemap m.die m.row m.pos) s = .next t ∧ g = { s.grid with remaps := [] } ∧
         n = ((List.range 80).filter fun r => g.sparesOf m.die r == 0).length ∧
         t.grid = { g with spareShown := (List.range 4).map fun d =>
           (g.spareLeft d, ((List.range 80).filter fun r => g.sparesOf d r == 0).length) } ∧
         t.health.remaps = min (2 ^ 32 - 1) (s.health.remaps + 1)) ∧
     (∀ st rf : List Nat, s.boot.stage = 9 → s.health.wearAt + 360000000000 ≤ s.tmr.elapsed →
       ∃ t, exec (.wearMeasure st rf) s = .next t ∧ t.health.wear = wearIndex st rf ∧ t.health.hours = s.health.hours + 1 ∧
         t.health.wearAt = s.tmr.elapsed ∧ t.health.eolAt = some s.tmr.elapsed ∧
         t.health.wearHist = s.wearRec :: s.health.wearHist ∧
         t.health.eol = s.heldForecast (Config.wearForecast ((s.wearRec :: s.health.wearHist).map (·.spares))
           ((List.range 4).map s.grid.spareLeft)) (s.health.hours + 1) ∧
         t.health.hbmBase = s.health.hbm.map (·.corrected) ∧ t.health.ddrBase = s.health.ddr.map (·.corrected) ∧
         t.grid = s.grid) ∧
     (s.boot.stage = 9 → s.health.logHours + 24 ≤ s.health.hours → ∃ t, exec .wearLogWrite s = .next t ∧
       t.health.logHours = s.health.hours ∧ t.grid = s.grid ∧
       ∀ a, spaceOf a ≠ 5 → s.mem.wf = true → s.grid.stackFailed = [] → t.readByte a = s.readByte a))

/-- 13 R316-R318: where no changed word waits for its first access, scrub counts the words it corrects; an uncorrectable
word of a core's SRAM is poisoned, reported by event 0x0064 and fails the core, and one of a spare's SRAM fails the
position (that a spare's word has no event is the model's choice, log 68); one in HBM is poisoned and makes its row due for repair; one in DDR is poisoned; a
row repair takes a spare row with event 0x0066 and journal action 0x62, and a row without a spare stays in use. -/
def Obligations.ScrubRows : Prop :=
  ∀ s : State, s.working = true → s.mem.upsets = [] →
    (∀ d row pos o : Nat, 6 ≤ s.boot.stage → d < 4 → row < 80 → pos < 82 → s.grid.failed.contains (d, row, pos) = false →
      o < 2 ^ 18 →
      (exec (.sramScrub ⟨d, row, pos⟩ [o] []) s = .next { s with health := { s.health with
        corrected := min (2 ^ 16 - 1) (s.health.corrected + 1), sramCe := min (2 ^ 64 - 1) (s.health.sramCe + 1)
        sramUe := min (2 ^ 64 - 1) s.health.sramUe } }) ∧
      ∃ u : State, u.health.sramUe = min (2 ^ 64 - 1) (s.health.sramUe + 1) ∧ u.mem = s.mem ∧ u.evc = s.evc ∧
        u.grid = s.grid ∧
        (∀ c, s.grid.coreAt d row pos = some c → s.mem.poisonedAt (sramKey c + o) = false →
          exec (.sramScrub ⟨d, row, pos⟩ [] [o]) s = .next (((u.markPoison [sramKey c + o]).event (52 + d) 0x0064
            (leBytes 2 c ++ [0, 0] ++ leBytes 4 o)).failPos d row pos)) ∧
        (s.grid.coreAt d row pos = none → exec (.sramScrub ⟨d, row, pos⟩ [] [o]) s = .next (u.failPos d row pos))) ∧
    (∀ h pc row o : Nat, 8 ≤ s.boot.stage → h < 24 → pc < 32 → s.rangeOk (mkKey 0 o) 1 = true → hbmStack o = h → hbmPc o = pc →
      (∃ t, exec (.hbmPatrolScrub h pc row [o] [] false) s = .next t ∧ t.mem = s.mem ∧ t.grid = s.grid ∧
        t.health.corrected = min (2 ^ 16 - 1) (s.health.corrected + 1)) ∧
      (s.mem.poisonedAt (mkKey 0 o) = false → s.evc.ringN = 0 →
        ∃ t, exec (.hbmPatrolScrub h pc row [] [o] false) s = .next t ∧ t.mem.poisonedAt (mkKey 0 o) = true ∧
          t.mem.cells = s.mem.cells ∧ (h, pc, row) ∈ t.health.hbmDue)) ∧
    (∀ h pc bank row n : Nat, 8 ≤ s.boot.stage → s.health.hbmDue.contains (h, pc, row) = true →
      (∃ t, exec (.hbmRowRepair h pc bank row 0) s = .next t ∧ t.grid = s.grid ∧ (h, pc, row) ∉ t.health.hbmDue) ∧
      ∃ u : State, u.grid = { s.grid with hbmRows := s.grid.hbmRows ++ [(h, pc, bank, row)] } ∧ u.mem = s.mem ∧ u.evc = s.evc ∧
        (h, pc, row) ∉ u.health.hbmDue ∧
        exec (.hbmRowRepair h pc bank row (n + 1)) s =
          .next ((u.event (12 + h) 0x0066 (leBytes 1 pc ++ [0, 0, 0] ++ leBytes 4 row ++ leBytes 1 n)).journalAction 0x62
            (leBytes 1 h ++ leBytes 1 pc ++ leBytes 1 bank ++ leBytes 2 row))) ∧
    (∀ c o : Nat, 8 ≤ s.boot.stage → c < 16 → s.rangeOk (mkKey 1 o) 1 = true →
      s.grid.ddrChannel o = some c → s.ddrZeroedAt o = true →
      (∃ t, exec (.ddrPatrolScrub c [o] []) s = .next t ∧ t.mem = s.mem ∧
        t.health.corrected = min (2 ^ 16 - 1) (s.health.corrected + 1)) ∧
      (s.mem.poisonedAt (mkKey 1 o) = false → s.evc.ringN = 0 →
        ∃ t, exec (.ddrPatrolScrub c [] [o]) s = .next t ∧ t.mem.poisonedAt (mkKey 1 o) = true ∧ t.mem.cells = s.mem.cells))

/-! ### Firmware, identity, attestation -/

/-- 14 R343-R345, R339: at stage 8 an image that passes every check waits for its start, and one that fails leaves its
code, detail and FW_REJECTED; at stage 9 FW_LOAD is WRONG_STATE; when the firmware starts, stage 9 begins, the manager
watch starts and FW_LOAD completes with the version. 14 R347, R348: ID_QUERY returns serial digest, shipped and
present grade; FLASH_RECORD_READ writes the record in force and returns its length. -/
def Obligations.FirmwareAndIdentity : Prop :=
  (∀ (s : State) (e : Env) (r : CmdRec) (image : U64) (len : U32) (k : Nat) (u : State) (bs : List Byte),
     (s.working = true → s.boot.stage = 8 → s.fetched? (.fwLoad e image len) e = some r → s.startable r = true →
       s.boundOk r = true → s.addrsHeld (.fwLoad e image len) = true → len ≠ 0 → k = (s.started r).keyAt e image.toNat len.toNat true false →
       u = (s.started r).touch k len.toNat → bs = u.readBytes k len.toNat →
       (∀ code detail, u.imageFail bs = some (code, detail) →
         exec (.fwLoad e image len) s = .next (({ u with boot := { u.boot with
           code := code, detail := detail, errStage := u.boot.stage } } : State).finish r.id .fwRejected)) ∧
       (fieldAt bs 16 4 = 0 → bs.length = 512 + fieldAt bs 12 4 →
         exec (.fwLoad e image len) s = .next (match u.imageFail bs with
           | some (code, detail) => ({ u with boot := { u.boot with
               code := code, detail := detail, errStage := u.boot.stage } } : State).finish r.id .fwRejected
           | none => { u with boot := { u.boot with
               code := 0, accepted := some ⟨fieldAt bs 8 4, sha384 bs, r.id⟩ } }))) ∧
     (Ready s (.fwLoad e image len) e r → len ≠ 0 → exec (.fwLoad e image len) s =
       .next ((s.started r).finish r.id .wrongState)) ∧
     (∀ (f : FwImage) (ms : Nat), s.working = true → s.boot.stage = 8 → s.boot.accepted = some f →
       exec (.firmwareStart ms) s = .next (({ s with
         boot := { s.boot with cfwVersion := f.version, imageDigest := f.digest, accepted := none, stage := 9, entryMs := ms }
         pwr := { s.pwr with lastBeat := s.tmr.elapsed }
         health := { s.health with katAt := s.tmr.elapsed, katCur := s.health.katInterval } } : State).finish f.cmd .ok (leBytes 4 f.version)))) ∧
  (∀ (s : State) (e : Env) (r : CmdRec),
     (Ready s (.idQuery e) e r → exec (.idQuery e) s = .next ((s.started r).finish r.id .ok
       (leBytes 8 (s.started r).serialDigest.toNat ++ leBytes 1 s.boot.shipGrade ++ leBytes 1 (gradeOf s.grid.retiredAll)))) ∧
     (∀ (ty : Byte) (dst : U64) (n : U32) (k : Nat) (bs : List Byte), Ready s (.flashRecordRead e ty dst n) e r → n ≠ 0 →
       (s.started r).flashRecord ty.toNat = some bs → bs.length ≤ n.toNat → (s.started r).heldAddr e dst.toNat n.toNat false true = some k →
       exec (.flashRecordRead e ty dst n) s =
         .next (((s.started r).writeBytes k bs).finish r.id .ok (leBytes 4 bs.length))))

/-- 14 R349, Table 14.10. ATTEST, answered at stage 8 and stage 9, writes the 256-byte report and returns 256; a
length of zero completes OK_EMPTY; a length below 256 is BAD_SIZE. -/
def Obligations.Attestation : Prop :=
  ∀ (s : State) (e : Env) (dst : U64) (len : U32) (nonce : BitVec 256),
    (∀ (r : CmdRec), s.working = true → (s.boot.stage = 8 ∨ s.boot.stage = 9) →
      s.fetched? (.attest e dst len nonce) e = some r → s.startable r = true → s.boundOk r = true →
      (len = 0 → exec (.attest e dst len nonce) s = .next ((s.started r).finish r.id .okEmpty)) ∧
      (len ≠ 0 → ∀ k body, (s.started r).heldAddr e dst.toNat len.toNat false true = some k →
        body = leBytes 4 0x31545441 ++ leBytes 2 1 ++ leBytes 1 (gradeOf s.grid.retiredAll) ++ leBytes 1 s.boot.shipGrade ++
          leBytes 8 (s.started r).serialDigest.toNat ++ leBytes 4 s.boot.cfwVersion ++ leBytes 4 s.boot.minVersion ++
          leBytes 8 s.tmr.count ++ leBytes 32 nonce.toNat ++
          (if s.boot.stage = 9 then digestBytes s.boot.imageDigest else List.replicate 48 0) ++
          digestBytes (sha384 (s.started r).repairBody) →
        (body ++ beBytes 96 (Config.attestSign (sha384 body)).toNat).length = 256 ∧
        exec (.attest e dst len nonce) s = .next (((s.started r).writeBytes k
          (body ++ beBytes 96 (Config.attestSign (sha384 body)).toNat)).finish r.id .ok (leBytes 4 256)))) ∧
    ∀ p, Arriving s (.attest e dst len nonce) e p → s.envelopeOk 0x0C02 e → len ≠ 0 → len.toNat < 256 →
      (s.addr e dst.toNat len.toNat false true).isSome = true →
      exec (.attest e dst len nonce) s = .next (s.takeIn (.attest e dst len nonce) e (some .badSize))

/-- 14 R350: before stage 4 an SPDM request is answered Busy; from stage 4 each request of the list has its answer,
slot 0 only, and other codes are answered UnsupportedRequest. (The codes of DSP0274 are the model's, log 54.) 14 R351,
Table 14.13, 15 R355: an open sideband answers its control commands, register reads without clearing, and boot status,
changes no state but the endpoint's own, and discards other message types; the mailbox's discovery lists its two
protocols, and before stage 3 configuration space answers with Retry Status (R339; which stages, log 103). (The codes of DSP0236 are the model's, log 54.) -/
def Obligations.ManagementRows : Prop :=
  (∀ (s : State) (via : Via), s.spdmOpen via = true →
     (s.boot.stage < 4 → exec (.getVersion via) s = .next { s with out := s.out ++ [.spdm via "ERROR" 3 []] }) ∧
     (4 ≤ s.boot.stage →
       exec (.getVersion via) s = .next { s with out := s.out ++ [.spdm via "VERSION" 1 [0x00, 0x12]] } ∧
       exec (.getCapabilities via) s = .next { s with out := s.out ++ [.spdm via "CAPABILITIES" 0 (leBytes 4 22)] } ∧
       exec (.negotiateAlgorithms via) s = .next { s with out := s.out ++ [.spdm via "ALGORITHMS" 0
         (leBytes 4 128 ++ leBytes 4 2 ++ leBytes 4 4)] } ∧
       exec (.getDigests via) s = .next { s with out := s.out ++ [.spdm via "DIGESTS" 1 (digestBytes (sha384 s.certChain))] } ∧
       (∀ off len : U16, off.toNat < s.certChain.length → ∀ part, part = (s.certChain.drop off.toNat).take len.toNat →
         exec (.getCertificate via 0 off len) s = .next { s with out := s.out ++ [.spdm via "CERTIFICATE"
           (s.certChain.length - off.toNat - part.length) part] }) ∧
       (∀ nonce : BitVec 256, ∃ bs : List Byte, bs.length = 128 ∧ exec (.challenge via 0 nonce) s = .next { s with
         free := s.free + 48
         out := s.out ++ [.spdm via "CHALLENGE_AUTH" 0 (digestBytes (sha384 s.certChain) ++ bs)] }) ∧
       (∀ (nonce : BitVec 256), ∃ bs : List Byte, bs.length = 128 ∧ exec (.getMeasurements via 0 6 nonce) s = .next { s with
         free := s.free + 48
         out := s.out ++ [.spdm via "MEASUREMENTS" 1 ([6, 1, 0] ++ leBytes 1 (gradeOf s.grid.retiredAll) ++ bs)] }) ∧
       (∀ (slot : Byte) (off len : U16), slot ≠ 0 → exec (.getCertificate via slot off len) s = .next { s with
         out := s.out ++ [.spdm via "ERROR" 7 []] }) ∧
       ∀ code : Byte, exec (.unsupportedRequest (.spdm via code)) s = .next { s with out := s.out ++ [.spdm via "ERROR" 7 []] })) ∧
  (∀ s : State, s.alive = true → s.boot.stage < 3 →
     exec (.getVersion .doe) s = .next { s with out := s.out ++ [.configRetry] } ∧
     exec (.getCapabilities .doe) s = .next { s with out := s.out ++ [.configRetry] } ∧
     exec (.negotiateAlgorithms .doe) s = .next { s with out := s.out ++ [.configRetry] } ∧
     exec (.getDigests .doe) s = .next { s with out := s.out ++ [.configRetry] } ∧
     (∀ (slot : Byte) (off len : U16),
       exec (.getCertificate .doe slot off len) s = .next { s with out := s.out ++ [.configRetry] }) ∧
     (∀ (slot : Byte) (nonce : BitVec 256),
       exec (.challenge .doe slot nonce) s = .next { s with out := s.out ++ [.configRetry] }) ∧
     (∀ (slot index : Byte) (nonce : BitVec 256),
       exec (.getMeasurements .doe slot index nonce) s = .next { s with out := s.out ++ [.configRetry] })) ∧
  (∀ s : State,
     (s.alive = true → 3 ≤ s.boot.stage → ∀ a : BitVec 7, exec (.dynamicAddressAssignment a) s =
       .next { s with side := { s.side with dynAddr := some a.toNat } }) ∧
     (s.alive = true → s.boot.stage < 3 → ∀ i, exec (.doeDiscovery i) s = .next { s with out := s.out ++ [.configRetry] }) ∧
     (s.alive = true → 3 ≤ s.boot.stage → exec (.doeDiscovery 0) s = .next { s with out := s.out ++ [.doe 1 0 1] } ∧
       exec (.doeDiscovery 1) s = .next { s with out := s.out ++ [.doe 1 1 0] }) ∧
     (s.sideOpen = true →
       (∀ eid : Byte, exec (.setEndpointId eid) s = .next { s with
         side := { s.side with eid := eid.toNat }, out := s.out ++ [.mctp [0, 1, 0, 0, eid, 0]] }) ∧
       exec .getEndpointId s = .next { s with out := s.out ++ [.mctp [0, 2, 0, BitVec.ofNat 8 s.side.eid, 0, 0]] } ∧
       exec .getMctpVersionSupport s = .next { s with out := s.out ++ [.mctp [0, 4, 0, 1, 0x00, 0xF1, 0xF3, 0xF1]] } ∧
       exec .getMessageTypeSupport s = .next { s with out := s.out ++ [.mctp [0, 5, 0, 3, 0x00, 0x05, 0x7E]] } ∧
       (∀ off : U32, s.sideReadable off.toNat = true → exec (.sidebandReadRegister off) s = .next { s with
         out := s.out ++ [.mctp ([0x7E] ++ leBytes 2 Config.pciVendorId.toNat ++ [1, 0] ++ leBytes 8 (s.regValue off.toNat) ++
           leBytes 8 0)] }) ∧
       exec .sidebandReadBootStatus s = .next { s with
         out := s.out ++ [.mctp ([0x7E] ++ leBytes 2 Config.pciVendorId.toNat ++ [2, 0] ++ leBytes 8 s.boot.stageReg ++
           leBytes 8 s.boot.errorReg)] } ∧
       (∀ c : Byte, c ∉ [1, 2, 4, 5] → exec (.unsupportedRequest (.mctpControl c)) s = .next { s with
         out := s.out ++ [.mctp [0, c, 5]] })) ∧
     ∀ t : Byte, exec (.unsupportedRequest (.otherType t)) s = .next s)

/-! ### Pins, test port, boot -/

/-- 16 R372: a powered TAP loads BYPASS, IDCODE and SAMPLE/PRELOAD at any time; an instruction that drives pins only
with RESET_N low, and selects BYPASS with it high; BYPASS is one bit, IDCODE gives 0x15C4445B, and a boundary scan gives the
levels of the pins that have cells; EXTEST and CLAMP drive the preloaded cells, HIGHZ leaves an output to its pull resistor;
nothing else of the module changes. 14 R337, R338, 16 R371, R372:
PWR_EN or VIN that rises raises the rails where all of PWR_EN, 32 V and no hard trip hold, and PWR_GOOD follows;
PWR_EN low takes the rails and PWR_GOOD down; RESET_N low, and its release, put every unit back to its reset state,
while package flash keeps its bytes and the other memory reads zero; a release of RESET_N takes a driving TAP
instruction to IDCODE. (The model's readings: other memory reads zero after RESET_N low, and its release too puts every unit
back, log 60; what a scan shifts and captures, log 116.) -/
def Obligations.PinRows : Prop :=
  (∀ (s : State), s.pins.pwrGood = true →
     (∀ x ∈ [(Instr.bypass, TapIr.bypass), (.clamp, .clamp), (.highz, .highz)], exec x.1 s = .next { s with
       pins := { s.pins with trstN := true, tap := if s.pins.resetN then .bypass else x.2 }, out := s.out ++ [.tdo 1 0] }) ∧
     exec .idcode s = .next { s with pins := { s.pins with trstN := true, tap := .idcode }, out := s.out ++ [.tdo 32 0x15C4445B] } ∧
     (∃ seen left : Boundary, seen.pwrEn = s.pins.pwrEn ∧ seen.resetN = s.pins.resetN ∧ seen.pwrGood = s.pwrGoodPin ∧
       seen.alertN = s.alertPin ∧ seen.thermTripN = s.tripPin ∧ seen.trivetN = s.trivetPin ∧
       left.ddr.length = 16 ∧ left.ton.length = 12 ∧
       exec .samplePreload s = .next { s with
         free := s.free + 124, pins := { s.pins with trstN := true, tap := .samplePreload, cells := left }
         out := s.out ++ [.tdoCells seen] }) ∧
     (∀ x ∈ [(Instr.extest, TapIr.extest), (.extestPulse, .extestPulse), (.extestTrain, .extestTrain)],
       (s.pins.resetN = true → exec x.1 s = .next { s with
         pins := { s.pins with trstN := true, tap := .bypass }, out := s.out ++ [.tdo 1 0] }) ∧
       (s.pins.resetN = false → ∃ seen : Boundary, seen.alertN = s.alertPin ∧ seen.trivetN = s.trivetPin ∧
         exec x.1 s = .next { s with
           free := s.free + 62, pins := { s.pins with trstN := true, tap := x.2 }, out := s.out ++ [.tdoCells seen] })) ∧
     (s.pins.resetN = false → ∀ t, exec .clamp s = .next t → t.alertPin = s.pins.cells.alertN ∧
       t.trivetPin = s.pins.cells.trivetN ∧ t.pwrGoodPin = s.pins.cells.pwrGood) ∧
     (s.pins.resetN = false → ∀ t, exec .highz s = .next t → t.alertPin = true ∧ t.trivetPin = true ∧ t.pwrGoodPin = false)) ∧
  (∀ s : State,
     (s.pins.pwrEn = false → exec .pwrEnRise s = .next { s with pins := { s.pins with
       pwrEn := true, rails := s.pins.rails || (s.pins.vinPresent && decide (32000 ≤ s.pins.vinMv) && !s.pins.hardOff) } }) ∧
     (∀ mv : Int, 32000 ≤ mv → s.pins.rails = false → exec (.vinRise mv) s = .next { s with pins := { s.pins with
       vinMv := mv, vinPresent := true, rails := s.pins.pwrEn && !s.pins.hardOff } }) ∧
     (s.pins.rails = true → s.pins.pwrGood = false →
       exec .pwrGoodRise s = .next { s with pins := { s.pins with pwrGood := true } }) ∧
     (s.pins.pwrEn = true → ∃ t, exec .pwrEnFall s = .next t ∧ t.pins.rails = false ∧ t.pins.pwrGood = false ∧
       t.pins.pwrEn = false ∧ t.boot = State.reset.boot ∧ t.q = State.reset.q ∧ t.ctxs = [] ∧ t.tmr.count = 0) ∧
     (s.pins.pwrGood = false → ∃ t, exec .vinRemoval s = .next t ∧ t.pins.vinPresent = false ∧ t.pins.tripLatch = false ∧
       t.pins.rails = false) ∧
     (s.pins.hardOff = true → s.pins.pwrEn = false → exec .tripLatchRelease s = .next { s with pins := { s.pins with
       tripLatch := false, hardOff := false } }) ∧
     (s.pins.resetN = true → s.mem.wf = true → ∃ t, exec .resetNAssert s = .next t ∧
       t.pins = { s.pins with resetN := false } ∧ t.boot = State.reset.boot ∧ t.grid = State.reset.grid ∧
       t.q = State.reset.q ∧ t.evc = State.reset.evc ∧ t.cxl = State.reset.cxl ∧ t.fab = State.reset.fab ∧ t.link = State.reset.link ∧
       t.pwr = State.reset.pwr ∧ t.health = State.reset.health ∧ t.jobs = [] ∧ t.ctxs = [] ∧ t.tmr.count = 0 ∧
       (∀ a, spaceOf a = 5 → t.readByte a = s.readByte a) ∧ (∀ a, spaceOf a < 3 → t.readByte a = 0) ∧ t.mem.poison = []) ∧
     (s.pins.resetN = false → ∃ t, exec .resetNRelease s = .next t ∧ t.pins.resetN = true ∧ t.boot = State.reset.boot ∧
       t.tmr.count = 0 ∧ (s.pins.tap = .extest → t.pins.tap = .idcode) ∧ (s.pins.tap = .bypass → t.pins.tap = .bypass)))

/-- 14 R339-R341, Tables 14.1, 14.5, 07 R376: a boot stage that passes enters the next one at its time; a failed ROM
self-check holds the module in reset; a stage that fails sets BOOT_ERROR and enters Trivet with cause 1; a DDR unit
zeroed adds one and changes no memory; the DIMMs of the DDR channels run at the highest rate that every supported one offers,
a DIMM that is of another type, out of size or does not reach that rate is disabled and has no GiB. 13 R323, R326, R340: stage 6
with nothing failed and no record presents 80 columns on every die, with a rebuilt record; the map of a die without failures
hosts every position at itself. (The model's choices: the common rate, the trained capacity and which channels are disabled,
log 86; a failed rail goes before a stack ID that differs, log 59.) -/
def Obligations.BootStages : Prop :=
  (∀ (s : State) (r : BootResult), s.working = true →
     (s.boot.stage = 1 → exec (.bootStageComplete r) s = .next { s with boot := { s.boot with stage := 2, entryMs := r.ms } }) ∧
     (s.boot.stage = 2 → r.romOk = true → exec (.bootStageComplete r) s = .next { s with boot := { s.boot with
       warnCxl := r.cxlDegraded, stage := 3, entryMs := r.ms } }) ∧
     (s.boot.stage = 2 → r.romOk = false → exec (.bootStageComplete r) s = .next { s with boot := { s.boot with
       resetHold := true } }) ∧
     (s.boot.stage = 3 → r.flashOk = false → exec (.bootStageComplete r) s = .next (({ s with boot := { s.boot with
       code := 0x0101, detail := 0, errStage := 3 } } : State).enterTrivet 1)) ∧
     (s.boot.stage = 3 → r.flashOk = true → exec (.bootStageComplete r) s = .next (
       if s.identityGood = false then
         ({ s with boot := { s.boot with code := 0x0102, detail := 0, errStage := 3 } } : State).enterTrivet 1
       else if r.pufKey ≠ s.akpub then
         ({ s with boot := { s.boot with code := 0x0103, detail := 0, errStage := 3 } } : State).enterTrivet 1
       else { s with boot := { s.boot with
         minVersion := s.minVersionRead, shipGrade := s.shipGradeRead, stage := 4, entryMs := r.ms } })) ∧
     (∀ d, s.boot.stage = 4 → r.railFail = some d → exec (.bootStageComplete r) s = .next (({ s with boot := { s.boot with
       code := 0x0201, detail := d, errStage := 4 } } : State).enterTrivet 1)) ∧
     (s.boot.stage = 4 → r.railFail = none → s.wrongStack r.stackIds = none → exec (.bootStageComplete r) s = .next { s with
       boot := { s.boot with stage := 5, entryMs := r.ms } }) ∧
     (∀ h, s.boot.stage = 4 → r.railFail = none → s.wrongStack r.stackIds = some h →
       exec (.bootStageComplete r) s = .next (({ s with boot := { s.boot with
         code := 0x0104, detail := h, errStage := 4 } } : State).enterTrivet 1)) ∧
     (s.boot.stage = 5 → r.failedPair = none → ∃ t, exec (.bootStageComplete r) s = .next t ∧ t.boot.stage = 6 ∧
       t.grid = { s.grid with failed := r.failedCores.eraseDups, elements := r.elements.eraseDups
                              lanesFailed := r.laneFail.eraseDups } ∧ t.mem = s.mem) ∧
     (s.boot.stage = 7 → r.badStack = none → bootDdrDisabled r = [] → exec (.bootStageComplete r) s = .next { s with
       grid := { s.grid with
         hbmRows := (s.grid.hbmRows ++ r.hbmRows).eraseDups
         ddrGib := r.dimms.map (trainedGib (commonRate r.dimms)), ddrRate := commonRate r.dimms }
       boot := { s.boot with warnDdr := false, stage := 8, entryMs := r.ms } }) ∧
     (s.boot.stage = 7 → r.badStack = none → bootDdrDisabled r ≠ [] → ∃ t, exec (.bootStageComplete r) s = .next t ∧
       t.boot = { s.boot with warnDdr := true, stage := 8, entryMs := r.ms } ∧
       t.grid.ddrGib = r.dimms.map (trainedGib (commonRate r.dimms)) ∧
       ∀ x ∈ bootDdrDisabled r, t.grid.ddrGib.getD x.1 0 = 0) ∧
     (8 ≤ s.boot.stage → s.boot.ddrZeroed < s.grid.ddrUnits → exec .ddrZeroFill s = .next { s with boot := { s.boot with
       ddrZeroed := s.boot.ddrZeroed + 1 } })) ∧
  ((∀ (s : State) (r : BootResult), s.working = true → s.boot.stage = 6 → s.grid.failed = [] → s.flashRecord 2 = none →
     ∃ t, exec (.bootStageComplete r) s = .next t ∧ t.boot.stage = 7 ∧ t.boot.warnRepair = true ∧ t.grid.valid = true ∧
       t.grid.retired = [0, 0, 0, 0] ∧ t.grid.width = 320) ∧
     shiftMap (fun _ => []) 80 = some (List.replicate 80 (List.range 80)))

/-! ### Registers and fetch -/

/-- 15 R352-R354, R363, 12 R294, R362, 13 Table 13.4: an unaligned access completes with Unsupported Request; a write
of a size other than 8 to BAR0 is dropped with event 0x0003; a doorbell written through BAR2 rings; a write to a Power
register before stage 9 is dropped and journaled WRONG_STATE; a cap register takes its value clamped; FLOW_K restarts
the count; an 8-byte read returns the register and clears FAULT_SUMMARY's RC fields,
a 4-byte read returns the addressed half and clears nothing; a doorbell reads zero, and a write of any size to the doorbell
banks above the queue pairs is ignored. 03 R41-R44, R49: SQ_FETCH takes
the entry at SQ_HEAD of the one queue with an entry and moves SQ_HEAD on; an entry that cannot be read puts the pair
in error 2; an undefined opcode completes BAD_OPCODE; nothing to fetch changes nothing. -/
def Obligations.RegisterAndFetchRows : Prop :=
  (∀ s : State, s.working = true →
     (∀ (bar size : Byte) (off : U32) (v : U64), off.toNat % size.toNat ≠ 0 → size ≠ 0 →
       exec (.registerWrite bar off size v) s = .next { s with out := s.out ++ [.unsupportedRequest] }) ∧
     (∀ (size : Byte) (off : U32) (v : U64), size ≠ 0 → size ≠ 8 → off.toNat % size.toNat = 0 →
       off.toNat + size.toNat ≤ 2 ^ 24 → exec (.registerWrite 0 off size v) s =
         .next (s.event 76 0x0003 ([0, 0, 0, 0] ++ leBytes 4 off.toNat))) ∧
     (∀ (q : U16) (v : U64), q.toNat < 2048 → ∀ t, exec (.sqTailDoorbell q v) s = .next t →
       exec (.registerWrite 2 (BitVec.ofNat 32 (8 * q.toNat)) 8 v) s = .next t) ∧
     (∀ v : U64, s.boot.stage ≠ 9 → exec (.registerWrite 0 0x40018 8 v) s =
       .next (s.journal 0 0xFFFE 0x0301 (leBytes 3 0x40018 ++ leBytes 3 v.toNat))) ∧
     (∀ v : U64, s.boot.stage = 9 → exec (.powerCapWrite .sustain v) s =
       .next ((s.journal 0 0xFFFE 0 (leBytes 3 0x40010 ++ leBytes 3 v.toNat)).setLimits (fun p =>
         { p with sustainCap := max 1500 (min 6500 (v.toNat % 65536)) }) 1)) ∧
     (∀ v : U64, s.boot.stage = 9 → ∃ t, exec (.flowKWrite v) s = .next t ∧ t.therm = { s.therm with
       inletMax := max 15 (min 45 (v.toNat / 2 ^ 24 % 256)), flowWarn := max 20 (min 60 (v.toNat / 2 ^ 16 % 256))
       flowK := v.toNat % 65536, pulses := [], flowStart := s.tmr.elapsed }) ∧
     (exec (.registerReadClear ⟨0, 0x60000, 8⟩) s = .next { s with
       out := s.out ++ [.reg (BitVec.ofNat 64 s.faultReg)], health := { s.health with corrected := 0, seen := 0 } }) ∧
     (∀ off : U32, off.toNat % 8 = 0 → off.toNat < 0x60000 → exec (.registerReadClear ⟨0, off, 8⟩) s = .next { s with
       out := s.out ++ [.reg (BitVec.ofNat 64 (s.regValue off.toNat))] }) ∧
     (∀ (size : Byte) (off : U32) (v : U64), size ≠ 0 → off.toNat % size.toNat = 0 → off.toNat + size.toNat ≤ 2 ^ 18 →
       (0x4000 ≤ off.toNat ∧ off.toNat < 0x10000 ∨ 0x14000 ≤ off.toNat ∧ off.toNat < 0x20000) →
       exec (.registerWrite 2 off size v) s = .next s) ∧
     (∀ off : U32, off.toNat % 8 = 0 → off.toNat + 8 ≤ 2 ^ 24 →
       exec (.registerReadClear ⟨0, off, 4⟩) s = .next { s with
         out := s.out ++ [.reg (BitVec.ofNat 64 (s.regValue off.toNat % 2 ^ 32))] } ∧
       exec (.registerReadClear ⟨0, off + 4, 4⟩) s = .next { s with
         out := s.out ++ [.reg (BitVec.ofNat 64 (s.regValue off.toNat / 2 ^ 32 % 2 ^ 32))] }) ∧
     (∀ (off : U32) (size : Byte), (size = 4 ∨ size = 8) → off.toNat % size.toNat = 0 → off.toNat < 0x20000 →
       exec (.registerReadClear ⟨2, off, size⟩) s = .next { s with out := s.out ++ [.reg 0] })) ∧
  (∀ s : State,
     (s.eligible = [] → exec .sqFetch s = .next s) ∧
     (∀ (p : QPair) (k : Nat), s.eligible = [p.id] → s.pair? p.id = some p → k = keyOf (p.sqBase.toNat + 64 * p.sqHead) →
       ((p.sqOwn = false ∨ s.rangeOk k 64 = false) →
         exec .sqFetch s = .next (({ s with q := { s.q with rr := p.id } } : State).pairError p.id 2 0)) ∧
       (p.sqOwn = true → s.rangeOk k 64 = true → ∀ t u : State, t = s.touch k 64 → u = { t with q := { t.q with rr := p.id } } →
         (t.poisonedIn k 64 = true → exec .sqFetch s = .next (u.pairError p.id 2 0)) ∧
         (t.poisonedIn k 64 = false →
           ∀ v : State, v = u.modPair p.id (fun p => { p with sqHead := (p.sqHead + 1) % 2 ^ p.sqLog2 }) → ∀ e,
           (decodePacket p.id (t.readBytes k 64) = (e, none) →
             exec .sqFetch s = .next (v.takeIn .sqFetch e (some .badOpcode))) ∧
           (decodePacket p.id (t.readBytes k 64) = (e, some (.nop e)) →
             exec .sqFetch s = .next (v.takeIn (.nop e) e (t.fetchStatus 0x0101 e none))) ∧
           ∀ b, decodePacket p.id (t.readBytes k 64) = (e, some (.ctxPin e b)) →
             exec .sqFetch s = .next (v.takeIn (.ctxPin e b) e (t.fetchStatus (opcodeOf (.ctxPin e b)) e (checkCtxPin b t)))))))
end

