-- ==== Sys2Proof/Laws/State.lean ====
section
/-! SUPPORT. What each update of one part of the state leaves in each field; all true by unfolding. -/

namespace Sys2Proof.Machine

/-! ### modPins -/
@[simp] theorem modPins_pins (s : State) (f : Pins → Pins) : (s.modPins f).pins = f s.pins := rfl
@[simp] theorem modPins_boot (s : State) (f : Pins → Pins) : (s.modPins f).boot = s.boot := rfl
@[simp] theorem modPins_grid (s : State) (f : Pins → Pins) : (s.modPins f).grid = s.grid := rfl
@[simp] theorem modPins_tmr (s : State) (f : Pins → Pins) : (s.modPins f).tmr = s.tmr := rfl
@[simp] theorem modPins_q (s : State) (f : Pins → Pins) : (s.modPins f).q = s.q := rfl
@[simp] theorem modPins_evc (s : State) (f : Pins → Pins) : (s.modPins f).evc = s.evc := rfl
@[simp] theorem modPins_cxl (s : State) (f : Pins → Pins) : (s.modPins f).cxl = s.cxl := rfl
@[simp] theorem modPins_mem (s : State) (f : Pins → Pins) : (s.modPins f).mem = s.mem := rfl
@[simp] theorem modPins_jobs (s : State) (f : Pins → Pins) : (s.modPins f).jobs = s.jobs := rfl
@[simp] theorem modPins_ctxs (s : State) (f : Pins → Pins) : (s.modPins f).ctxs = s.ctxs := rfl
@[simp] theorem modPins_moves (s : State) (f : Pins → Pins) : (s.modPins f).moves = s.moves := rfl
@[simp] theorem modPins_fab (s : State) (f : Pins → Pins) : (s.modPins f).fab = s.fab := rfl
@[simp] theorem modPins_link (s : State) (f : Pins → Pins) : (s.modPins f).link = s.link := rfl
@[simp] theorem modPins_pwr (s : State) (f : Pins → Pins) : (s.modPins f).pwr = s.pwr := rfl
@[simp] theorem modPins_therm (s : State) (f : Pins → Pins) : (s.modPins f).therm = s.therm := rfl
@[simp] theorem modPins_health (s : State) (f : Pins → Pins) : (s.modPins f).health = s.health := rfl
@[simp] theorem modPins_side (s : State) (f : Pins → Pins) : (s.modPins f).side = s.side := rfl
@[simp] theorem modPins_out (s : State) (f : Pins → Pins) : (s.modPins f).out = s.out := rfl
@[simp] theorem modPins_free (s : State) (f : Pins → Pins) : (s.modPins f).free = s.free := rfl
@[simp] theorem modPins_pending (s : State) (f : Pins → Pins) : (s.modPins f).pending = s.pending := rfl

/-! ### modBoot -/
@[simp] theorem modBoot_pins (s : State) (f : Boot → Boot) : (s.modBoot f).pins = s.pins := rfl
@[simp] theorem modBoot_boot (s : State) (f : Boot → Boot) : (s.modBoot f).boot = f s.boot := rfl
@[simp] theorem modBoot_grid (s : State) (f : Boot → Boot) : (s.modBoot f).grid = s.grid := rfl
@[simp] theorem modBoot_tmr (s : State) (f : Boot → Boot) : (s.modBoot f).tmr = s.tmr := rfl
@[simp] theorem modBoot_q (s : State) (f : Boot → Boot) : (s.modBoot f).q = s.q := rfl
@[simp] theorem modBoot_evc (s : State) (f : Boot → Boot) : (s.modBoot f).evc = s.evc := rfl
@[simp] theorem modBoot_cxl (s : State) (f : Boot → Boot) : (s.modBoot f).cxl = s.cxl := rfl
@[simp] theorem modBoot_mem (s : State) (f : Boot → Boot) : (s.modBoot f).mem = s.mem := rfl
@[simp] theorem modBoot_jobs (s : State) (f : Boot → Boot) : (s.modBoot f).jobs = s.jobs := rfl
@[simp] theorem modBoot_ctxs (s : State) (f : Boot → Boot) : (s.modBoot f).ctxs = s.ctxs := rfl
@[simp] theorem modBoot_moves (s : State) (f : Boot → Boot) : (s.modBoot f).moves = s.moves := rfl
@[simp] theorem modBoot_fab (s : State) (f : Boot → Boot) : (s.modBoot f).fab = s.fab := rfl
@[simp] theorem modBoot_link (s : State) (f : Boot → Boot) : (s.modBoot f).link = s.link := rfl
@[simp] theorem modBoot_pwr (s : State) (f : Boot → Boot) : (s.modBoot f).pwr = s.pwr := rfl
@[simp] theorem modBoot_therm (s : State) (f : Boot → Boot) : (s.modBoot f).therm = s.therm := rfl
@[simp] theorem modBoot_health (s : State) (f : Boot → Boot) : (s.modBoot f).health = s.health := rfl
@[simp] theorem modBoot_side (s : State) (f : Boot → Boot) : (s.modBoot f).side = s.side := rfl
@[simp] theorem modBoot_out (s : State) (f : Boot → Boot) : (s.modBoot f).out = s.out := rfl
@[simp] theorem modBoot_free (s : State) (f : Boot → Boot) : (s.modBoot f).free = s.free := rfl
@[simp] theorem modBoot_pending (s : State) (f : Boot → Boot) : (s.modBoot f).pending = s.pending := rfl

/-! ### modGrid -/
@[simp] theorem modGrid_pins (s : State) (f : Grid → Grid) : (s.modGrid f).pins = s.pins := rfl
@[simp] theorem modGrid_boot (s : State) (f : Grid → Grid) : (s.modGrid f).boot = s.boot := rfl
@[simp] theorem modGrid_grid (s : State) (f : Grid → Grid) : (s.modGrid f).grid = f s.grid := rfl
@[simp] theorem modGrid_tmr (s : State) (f : Grid → Grid) : (s.modGrid f).tmr = s.tmr := rfl
@[simp] theorem modGrid_q (s : State) (f : Grid → Grid) : (s.modGrid f).q = s.q := rfl
@[simp] theorem modGrid_evc (s : State) (f : Grid → Grid) : (s.modGrid f).evc = s.evc := rfl
@[simp] theorem modGrid_cxl (s : State) (f : Grid → Grid) : (s.modGrid f).cxl = s.cxl := rfl
@[simp] theorem modGrid_mem (s : State) (f : Grid → Grid) : (s.modGrid f).mem = s.mem := rfl
@[simp] theorem modGrid_jobs (s : State) (f : Grid → Grid) : (s.modGrid f).jobs = s.jobs := rfl
@[simp] theorem modGrid_ctxs (s : State) (f : Grid → Grid) : (s.modGrid f).ctxs = s.ctxs := rfl
@[simp] theorem modGrid_moves (s : State) (f : Grid → Grid) : (s.modGrid f).moves = s.moves := rfl
@[simp] theorem modGrid_fab (s : State) (f : Grid → Grid) : (s.modGrid f).fab = s.fab := rfl
@[simp] theorem modGrid_link (s : State) (f : Grid → Grid) : (s.modGrid f).link = s.link := rfl
@[simp] theorem modGrid_pwr (s : State) (f : Grid → Grid) : (s.modGrid f).pwr = s.pwr := rfl
@[simp] theorem modGrid_therm (s : State) (f : Grid → Grid) : (s.modGrid f).therm = s.therm := rfl
@[simp] theorem modGrid_health (s : State) (f : Grid → Grid) : (s.modGrid f).health = s.health := rfl
@[simp] theorem modGrid_side (s : State) (f : Grid → Grid) : (s.modGrid f).side = s.side := rfl
@[simp] theorem modGrid_out (s : State) (f : Grid → Grid) : (s.modGrid f).out = s.out := rfl
@[simp] theorem modGrid_free (s : State) (f : Grid → Grid) : (s.modGrid f).free = s.free := rfl
@[simp] theorem modGrid_pending (s : State) (f : Grid → Grid) : (s.modGrid f).pending = s.pending := rfl

/-! ### modTmr -/
@[simp] theorem modTmr_pins (s : State) (f : Timer → Timer) : (s.modTmr f).pins = s.pins := rfl
@[simp] theorem modTmr_boot (s : State) (f : Timer → Timer) : (s.modTmr f).boot = s.boot := rfl
@[simp] theorem modTmr_grid (s : State) (f : Timer → Timer) : (s.modTmr f).grid = s.grid := rfl
@[simp] theorem modTmr_tmr (s : State) (f : Timer → Timer) : (s.modTmr f).tmr = f s.tmr := rfl
@[simp] theorem modTmr_q (s : State) (f : Timer → Timer) : (s.modTmr f).q = s.q := rfl
@[simp] theorem modTmr_evc (s : State) (f : Timer → Timer) : (s.modTmr f).evc = s.evc := rfl
@[simp] theorem modTmr_cxl (s : State) (f : Timer → Timer) : (s.modTmr f).cxl = s.cxl := rfl
@[simp] theorem modTmr_mem (s : State) (f : Timer → Timer) : (s.modTmr f).mem = s.mem := rfl
@[simp] theorem modTmr_jobs (s : State) (f : Timer → Timer) : (s.modTmr f).jobs = s.jobs := rfl
@[simp] theorem modTmr_ctxs (s : State) (f : Timer → Timer) : (s.modTmr f).ctxs = s.ctxs := rfl
@[simp] theorem modTmr_moves (s : State) (f : Timer → Timer) : (s.modTmr f).moves = s.moves := rfl
@[simp] theorem modTmr_fab (s : State) (f : Timer → Timer) : (s.modTmr f).fab = s.fab := rfl
@[simp] theorem modTmr_link (s : State) (f : Timer → Timer) : (s.modTmr f).link = s.link := rfl
@[simp] theorem modTmr_pwr (s : State) (f : Timer → Timer) : (s.modTmr f).pwr = s.pwr := rfl
@[simp] theorem modTmr_therm (s : State) (f : Timer → Timer) : (s.modTmr f).therm = s.therm := rfl
@[simp] theorem modTmr_health (s : State) (f : Timer → Timer) : (s.modTmr f).health = s.health := rfl
@[simp] theorem modTmr_side (s : State) (f : Timer → Timer) : (s.modTmr f).side = s.side := rfl
@[simp] theorem modTmr_out (s : State) (f : Timer → Timer) : (s.modTmr f).out = s.out := rfl
@[simp] theorem modTmr_free (s : State) (f : Timer → Timer) : (s.modTmr f).free = s.free := rfl
@[simp] theorem modTmr_pending (s : State) (f : Timer → Timer) : (s.modTmr f).pending = s.pending := rfl

/-! ### modQ -/
@[simp] theorem modQ_pins (s : State) (f : Queues → Queues) : (s.modQ f).pins = s.pins := rfl
@[simp] theorem modQ_boot (s : State) (f : Queues → Queues) : (s.modQ f).boot = s.boot := rfl
@[simp] theorem modQ_grid (s : State) (f : Queues → Queues) : (s.modQ f).grid = s.grid := rfl
@[simp] theorem modQ_tmr (s : State) (f : Queues → Queues) : (s.modQ f).tmr = s.tmr := rfl
@[simp] theorem modQ_q (s : State) (f : Queues → Queues) : (s.modQ f).q = f s.q := rfl
@[simp] theorem modQ_evc (s : State) (f : Queues → Queues) : (s.modQ f).evc = s.evc := rfl
@[simp] theorem modQ_cxl (s : State) (f : Queues → Queues) : (s.modQ f).cxl = s.cxl := rfl
@[simp] theorem modQ_mem (s : State) (f : Queues → Queues) : (s.modQ f).mem = s.mem := rfl
@[simp] theorem modQ_jobs (s : State) (f : Queues → Queues) : (s.modQ f).jobs = s.jobs := rfl
@[simp] theorem modQ_ctxs (s : State) (f : Queues → Queues) : (s.modQ f).ctxs = s.ctxs := rfl
@[simp] theorem modQ_moves (s : State) (f : Queues → Queues) : (s.modQ f).moves = s.moves := rfl
@[simp] theorem modQ_fab (s : State) (f : Queues → Queues) : (s.modQ f).fab = s.fab := rfl
@[simp] theorem modQ_link (s : State) (f : Queues → Queues) : (s.modQ f).link = s.link := rfl
@[simp] theorem modQ_pwr (s : State) (f : Queues → Queues) : (s.modQ f).pwr = s.pwr := rfl
@[simp] theorem modQ_therm (s : State) (f : Queues → Queues) : (s.modQ f).therm = s.therm := rfl
@[simp] theorem modQ_health (s : State) (f : Queues → Queues) : (s.modQ f).health = s.health := rfl
@[simp] theorem modQ_side (s : State) (f : Queues → Queues) : (s.modQ f).side = s.side := rfl
@[simp] theorem modQ_out (s : State) (f : Queues → Queues) : (s.modQ f).out = s.out := rfl
@[simp] theorem modQ_free (s : State) (f : Queues → Queues) : (s.modQ f).free = s.free := rfl
@[simp] theorem modQ_pending (s : State) (f : Queues → Queues) : (s.modQ f).pending = s.pending := rfl

/-! ### modEvc -/
@[simp] theorem modEvc_pins (s : State) (f : Evc → Evc) : (s.modEvc f).pins = s.pins := rfl
@[simp] theorem modEvc_boot (s : State) (f : Evc → Evc) : (s.modEvc f).boot = s.boot := rfl
@[simp] theorem modEvc_grid (s : State) (f : Evc → Evc) : (s.modEvc f).grid = s.grid := rfl
@[simp] theorem modEvc_tmr (s : State) (f : Evc → Evc) : (s.modEvc f).tmr = s.tmr := rfl
@[simp] theorem modEvc_q (s : State) (f : Evc → Evc) : (s.modEvc f).q = s.q := rfl
@[simp] theorem modEvc_evc (s : State) (f : Evc → Evc) : (s.modEvc f).evc = f s.evc := rfl
@[simp] theorem modEvc_cxl (s : State) (f : Evc → Evc) : (s.modEvc f).cxl = s.cxl := rfl
@[simp] theorem modEvc_mem (s : State) (f : Evc → Evc) : (s.modEvc f).mem = s.mem := rfl
@[simp] theorem modEvc_jobs (s : State) (f : Evc → Evc) : (s.modEvc f).jobs = s.jobs := rfl
@[simp] theorem modEvc_ctxs (s : State) (f : Evc → Evc) : (s.modEvc f).ctxs = s.ctxs := rfl
@[simp] theorem modEvc_moves (s : State) (f : Evc → Evc) : (s.modEvc f).moves = s.moves := rfl
@[simp] theorem modEvc_fab (s : State) (f : Evc → Evc) : (s.modEvc f).fab = s.fab := rfl
@[simp] theorem modEvc_link (s : State) (f : Evc → Evc) : (s.modEvc f).link = s.link := rfl
@[simp] theorem modEvc_pwr (s : State) (f : Evc → Evc) : (s.modEvc f).pwr = s.pwr := rfl
@[simp] theorem modEvc_therm (s : State) (f : Evc → Evc) : (s.modEvc f).therm = s.therm := rfl
@[simp] theorem modEvc_health (s : State) (f : Evc → Evc) : (s.modEvc f).health = s.health := rfl
@[simp] theorem modEvc_side (s : State) (f : Evc → Evc) : (s.modEvc f).side = s.side := rfl
@[simp] theorem modEvc_out (s : State) (f : Evc → Evc) : (s.modEvc f).out = s.out := rfl
@[simp] theorem modEvc_free (s : State) (f : Evc → Evc) : (s.modEvc f).free = s.free := rfl
@[simp] theorem modEvc_pending (s : State) (f : Evc → Evc) : (s.modEvc f).pending = s.pending := rfl

/-! ### modCxl -/
@[simp] theorem modCxl_pins (s : State) (f : Cxl → Cxl) : (s.modCxl f).pins = s.pins := rfl
@[simp] theorem modCxl_boot (s : State) (f : Cxl → Cxl) : (s.modCxl f).boot = s.boot := rfl
@[simp] theorem modCxl_grid (s : State) (f : Cxl → Cxl) : (s.modCxl f).grid = s.grid := rfl
@[simp] theorem modCxl_tmr (s : State) (f : Cxl → Cxl) : (s.modCxl f).tmr = s.tmr := rfl
@[simp] theorem modCxl_q (s : State) (f : Cxl → Cxl) : (s.modCxl f).q = s.q := rfl
@[simp] theorem modCxl_evc (s : State) (f : Cxl → Cxl) : (s.modCxl f).evc = s.evc := rfl
@[simp] theorem modCxl_cxl (s : State) (f : Cxl → Cxl) : (s.modCxl f).cxl = f s.cxl := rfl
@[simp] theorem modCxl_mem (s : State) (f : Cxl → Cxl) : (s.modCxl f).mem = s.mem := rfl
@[simp] theorem modCxl_jobs (s : State) (f : Cxl → Cxl) : (s.modCxl f).jobs = s.jobs := rfl
@[simp] theorem modCxl_ctxs (s : State) (f : Cxl → Cxl) : (s.modCxl f).ctxs = s.ctxs := rfl
@[simp] theorem modCxl_moves (s : State) (f : Cxl → Cxl) : (s.modCxl f).moves = s.moves := rfl
@[simp] theorem modCxl_fab (s : State) (f : Cxl → Cxl) : (s.modCxl f).fab = s.fab := rfl
@[simp] theorem modCxl_link (s : State) (f : Cxl → Cxl) : (s.modCxl f).link = s.link := rfl
@[simp] theorem modCxl_pwr (s : State) (f : Cxl → Cxl) : (s.modCxl f).pwr = s.pwr := rfl
@[simp] theorem modCxl_therm (s : State) (f : Cxl → Cxl) : (s.modCxl f).therm = s.therm := rfl
@[simp] theorem modCxl_health (s : State) (f : Cxl → Cxl) : (s.modCxl f).health = s.health := rfl
@[simp] theorem modCxl_side (s : State) (f : Cxl → Cxl) : (s.modCxl f).side = s.side := rfl
@[simp] theorem modCxl_out (s : State) (f : Cxl → Cxl) : (s.modCxl f).out = s.out := rfl
@[simp] theorem modCxl_free (s : State) (f : Cxl → Cxl) : (s.modCxl f).free = s.free := rfl
@[simp] theorem modCxl_pending (s : State) (f : Cxl → Cxl) : (s.modCxl f).pending = s.pending := rfl

/-! ### modMem -/
@[simp] theorem modMem_pins (s : State) (f : Memory → Memory) : (s.modMem f).pins = s.pins := rfl
@[simp] theorem modMem_boot (s : State) (f : Memory → Memory) : (s.modMem f).boot = s.boot := rfl
@[simp] theorem modMem_grid (s : State) (f : Memory → Memory) : (s.modMem f).grid = s.grid := rfl
@[simp] theorem modMem_tmr (s : State) (f : Memory → Memory) : (s.modMem f).tmr = s.tmr := rfl
@[simp] theorem modMem_q (s : State) (f : Memory → Memory) : (s.modMem f).q = s.q := rfl
@[simp] theorem modMem_evc (s : State) (f : Memory → Memory) : (s.modMem f).evc = s.evc := rfl
@[simp] theorem modMem_cxl (s : State) (f : Memory → Memory) : (s.modMem f).cxl = s.cxl := rfl
@[simp] theorem modMem_mem (s : State) (f : Memory → Memory) : (s.modMem f).mem = f s.mem := rfl
@[simp] theorem modMem_jobs (s : State) (f : Memory → Memory) : (s.modMem f).jobs = s.jobs := rfl
@[simp] theorem modMem_ctxs (s : State) (f : Memory → Memory) : (s.modMem f).ctxs = s.ctxs := rfl
@[simp] theorem modMem_moves (s : State) (f : Memory → Memory) : (s.modMem f).moves = s.moves := rfl
@[simp] theorem modMem_fab (s : State) (f : Memory → Memory) : (s.modMem f).fab = s.fab := rfl
@[simp] theorem modMem_link (s : State) (f : Memory → Memory) : (s.modMem f).link = s.link := rfl
@[simp] theorem modMem_pwr (s : State) (f : Memory → Memory) : (s.modMem f).pwr = s.pwr := rfl
@[simp] theorem modMem_therm (s : State) (f : Memory → Memory) : (s.modMem f).therm = s.therm := rfl
@[simp] theorem modMem_health (s : State) (f : Memory → Memory) : (s.modMem f).health = s.health := rfl
@[simp] theorem modMem_side (s : State) (f : Memory → Memory) : (s.modMem f).side = s.side := rfl
@[simp] theorem modMem_out (s : State) (f : Memory → Memory) : (s.modMem f).out = s.out := rfl
@[simp] theorem modMem_free (s : State) (f : Memory → Memory) : (s.modMem f).free = s.free := rfl
@[simp] theorem modMem_pending (s : State) (f : Memory → Memory) : (s.modMem f).pending = s.pending := rfl

/-! ### modFab -/
@[simp] theorem modFab_pins (s : State) (f : Fabric → Fabric) : (s.modFab f).pins = s.pins := rfl
@[simp] theorem modFab_boot (s : State) (f : Fabric → Fabric) : (s.modFab f).boot = s.boot := rfl
@[simp] theorem modFab_grid (s : State) (f : Fabric → Fabric) : (s.modFab f).grid = s.grid := rfl
@[simp] theorem modFab_tmr (s : State) (f : Fabric → Fabric) : (s.modFab f).tmr = s.tmr := rfl
@[simp] theorem modFab_q (s : State) (f : Fabric → Fabric) : (s.modFab f).q = s.q := rfl
@[simp] theorem modFab_evc (s : State) (f : Fabric → Fabric) : (s.modFab f).evc = s.evc := rfl
@[simp] theorem modFab_cxl (s : State) (f : Fabric → Fabric) : (s.modFab f).cxl = s.cxl := rfl
@[simp] theorem modFab_mem (s : State) (f : Fabric → Fabric) : (s.modFab f).mem = s.mem := rfl
@[simp] theorem modFab_jobs (s : State) (f : Fabric → Fabric) : (s.modFab f).jobs = s.jobs := rfl
@[simp] theorem modFab_ctxs (s : State) (f : Fabric → Fabric) : (s.modFab f).ctxs = s.ctxs := rfl
@[simp] theorem modFab_moves (s : State) (f : Fabric → Fabric) : (s.modFab f).moves = s.moves := rfl
@[simp] theorem modFab_fab (s : State) (f : Fabric → Fabric) : (s.modFab f).fab = f s.fab := rfl
@[simp] theorem modFab_link (s : State) (f : Fabric → Fabric) : (s.modFab f).link = s.link := rfl
@[simp] theorem modFab_pwr (s : State) (f : Fabric → Fabric) : (s.modFab f).pwr = s.pwr := rfl
@[simp] theorem modFab_therm (s : State) (f : Fabric → Fabric) : (s.modFab f).therm = s.therm := rfl
@[simp] theorem modFab_health (s : State) (f : Fabric → Fabric) : (s.modFab f).health = s.health := rfl
@[simp] theorem modFab_side (s : State) (f : Fabric → Fabric) : (s.modFab f).side = s.side := rfl
@[simp] theorem modFab_out (s : State) (f : Fabric → Fabric) : (s.modFab f).out = s.out := rfl
@[simp] theorem modFab_free (s : State) (f : Fabric → Fabric) : (s.modFab f).free = s.free := rfl
@[simp] theorem modFab_pending (s : State) (f : Fabric → Fabric) : (s.modFab f).pending = s.pending := rfl

/-! ### modLink -/
@[simp] theorem modLink_pins (s : State) (f : Links → Links) : (s.modLink f).pins = s.pins := rfl
@[simp] theorem modLink_boot (s : State) (f : Links → Links) : (s.modLink f).boot = s.boot := rfl
@[simp] theorem modLink_grid (s : State) (f : Links → Links) : (s.modLink f).grid = s.grid := rfl
@[simp] theorem modLink_tmr (s : State) (f : Links → Links) : (s.modLink f).tmr = s.tmr := rfl
@[simp] theorem modLink_q (s : State) (f : Links → Links) : (s.modLink f).q = s.q := rfl
@[simp] theorem modLink_evc (s : State) (f : Links → Links) : (s.modLink f).evc = s.evc := rfl
@[simp] theorem modLink_cxl (s : State) (f : Links → Links) : (s.modLink f).cxl = s.cxl := rfl
@[simp] theorem modLink_mem (s : State) (f : Links → Links) : (s.modLink f).mem = s.mem := rfl
@[simp] theorem modLink_jobs (s : State) (f : Links → Links) : (s.modLink f).jobs = s.jobs := rfl
@[simp] theorem modLink_ctxs (s : State) (f : Links → Links) : (s.modLink f).ctxs = s.ctxs := rfl
@[simp] theorem modLink_moves (s : State) (f : Links → Links) : (s.modLink f).moves = s.moves := rfl
@[simp] theorem modLink_fab (s : State) (f : Links → Links) : (s.modLink f).fab = s.fab := rfl
@[simp] theorem modLink_link (s : State) (f : Links → Links) : (s.modLink f).link = f s.link := rfl
@[simp] theorem modLink_pwr (s : State) (f : Links → Links) : (s.modLink f).pwr = s.pwr := rfl
@[simp] theorem modLink_therm (s : State) (f : Links → Links) : (s.modLink f).therm = s.therm := rfl
@[simp] theorem modLink_health (s : State) (f : Links → Links) : (s.modLink f).health = s.health := rfl
@[simp] theorem modLink_side (s : State) (f : Links → Links) : (s.modLink f).side = s.side := rfl
@[simp] theorem modLink_out (s : State) (f : Links → Links) : (s.modLink f).out = s.out := rfl
@[simp] theorem modLink_free (s : State) (f : Links → Links) : (s.modLink f).free = s.free := rfl
@[simp] theorem modLink_pending (s : State) (f : Links → Links) : (s.modLink f).pending = s.pending := rfl

/-! ### modPwr -/
@[simp] theorem modPwr_pins (s : State) (f : Power → Power) : (s.modPwr f).pins = s.pins := rfl
@[simp] theorem modPwr_boot (s : State) (f : Power → Power) : (s.modPwr f).boot = s.boot := rfl
@[simp] theorem modPwr_grid (s : State) (f : Power → Power) : (s.modPwr f).grid = s.grid := rfl
@[simp] theorem modPwr_tmr (s : State) (f : Power → Power) : (s.modPwr f).tmr = s.tmr := rfl
@[simp] theorem modPwr_q (s : State) (f : Power → Power) : (s.modPwr f).q = s.q := rfl
@[simp] theorem modPwr_evc (s : State) (f : Power → Power) : (s.modPwr f).evc = s.evc := rfl
@[simp] theorem modPwr_cxl (s : State) (f : Power → Power) : (s.modPwr f).cxl = s.cxl := rfl
@[simp] theorem modPwr_mem (s : State) (f : Power → Power) : (s.modPwr f).mem = s.mem := rfl
@[simp] theorem modPwr_jobs (s : State) (f : Power → Power) : (s.modPwr f).jobs = s.jobs := rfl
@[simp] theorem modPwr_ctxs (s : State) (f : Power → Power) : (s.modPwr f).ctxs = s.ctxs := rfl
@[simp] theorem modPwr_moves (s : State) (f : Power → Power) : (s.modPwr f).moves = s.moves := rfl
@[simp] theorem modPwr_fab (s : State) (f : Power → Power) : (s.modPwr f).fab = s.fab := rfl
@[simp] theorem modPwr_link (s : State) (f : Power → Power) : (s.modPwr f).link = s.link := rfl
@[simp] theorem modPwr_pwr (s : State) (f : Power → Power) : (s.modPwr f).pwr = f s.pwr := rfl
@[simp] theorem modPwr_therm (s : State) (f : Power → Power) : (s.modPwr f).therm = s.therm := rfl
@[simp] theorem modPwr_health (s : State) (f : Power → Power) : (s.modPwr f).health = s.health := rfl
@[simp] theorem modPwr_side (s : State) (f : Power → Power) : (s.modPwr f).side = s.side := rfl
@[simp] theorem modPwr_out (s : State) (f : Power → Power) : (s.modPwr f).out = s.out := rfl
@[simp] theorem modPwr_free (s : State) (f : Power → Power) : (s.modPwr f).free = s.free := rfl
@[simp] theorem modPwr_pending (s : State) (f : Power → Power) : (s.modPwr f).pending = s.pending := rfl

/-! ### modTherm -/
@[simp] theorem modTherm_pins (s : State) (f : Therm → Therm) : (s.modTherm f).pins = s.pins := rfl
@[simp] theorem modTherm_boot (s : State) (f : Therm → Therm) : (s.modTherm f).boot = s.boot := rfl
@[simp] theorem modTherm_grid (s : State) (f : Therm → Therm) : (s.modTherm f).grid = s.grid := rfl
@[simp] theorem modTherm_tmr (s : State) (f : Therm → Therm) : (s.modTherm f).tmr = s.tmr := rfl
@[simp] theorem modTherm_q (s : State) (f : Therm → Therm) : (s.modTherm f).q = s.q := rfl
@[simp] theorem modTherm_evc (s : State) (f : Therm → Therm) : (s.modTherm f).evc = s.evc := rfl
@[simp] theorem modTherm_cxl (s : State) (f : Therm → Therm) : (s.modTherm f).cxl = s.cxl := rfl
@[simp] theorem modTherm_mem (s : State) (f : Therm → Therm) : (s.modTherm f).mem = s.mem := rfl
@[simp] theorem modTherm_jobs (s : State) (f : Therm → Therm) : (s.modTherm f).jobs = s.jobs := rfl
@[simp] theorem modTherm_ctxs (s : State) (f : Therm → Therm) : (s.modTherm f).ctxs = s.ctxs := rfl
@[simp] theorem modTherm_moves (s : State) (f : Therm → Therm) : (s.modTherm f).moves = s.moves := rfl
@[simp] theorem modTherm_fab (s : State) (f : Therm → Therm) : (s.modTherm f).fab = s.fab := rfl
@[simp] theorem modTherm_link (s : State) (f : Therm → Therm) : (s.modTherm f).link = s.link := rfl
@[simp] theorem modTherm_pwr (s : State) (f : Therm → Therm) : (s.modTherm f).pwr = s.pwr := rfl
@[simp] theorem modTherm_therm (s : State) (f : Therm → Therm) : (s.modTherm f).therm = f s.therm := rfl
@[simp] theorem modTherm_health (s : State) (f : Therm → Therm) : (s.modTherm f).health = s.health := rfl
@[simp] theorem modTherm_side (s : State) (f : Therm → Therm) : (s.modTherm f).side = s.side := rfl
@[simp] theorem modTherm_out (s : State) (f : Therm → Therm) : (s.modTherm f).out = s.out := rfl
@[simp] theorem modTherm_free (s : State) (f : Therm → Therm) : (s.modTherm f).free = s.free := rfl
@[simp] theorem modTherm_pending (s : State) (f : Therm → Therm) : (s.modTherm f).pending = s.pending := rfl

/-! ### modHealth -/
@[simp] theorem modHealth_pins (s : State) (f : Health → Health) : (s.modHealth f).pins = s.pins := rfl
@[simp] theorem modHealth_boot (s : State) (f : Health → Health) : (s.modHealth f).boot = s.boot := rfl
@[simp] theorem modHealth_grid (s : State) (f : Health → Health) : (s.modHealth f).grid = s.grid := rfl
@[simp] theorem modHealth_tmr (s : State) (f : Health → Health) : (s.modHealth f).tmr = s.tmr := rfl
@[simp] theorem modHealth_q (s : State) (f : Health → Health) : (s.modHealth f).q = s.q := rfl
@[simp] theorem modHealth_evc (s : State) (f : Health → Health) : (s.modHealth f).evc = s.evc := rfl
@[simp] theorem modHealth_cxl (s : State) (f : Health → Health) : (s.modHealth f).cxl = s.cxl := rfl
@[simp] theorem modHealth_mem (s : State) (f : Health → Health) : (s.modHealth f).mem = s.mem := rfl
@[simp] theorem modHealth_jobs (s : State) (f : Health → Health) : (s.modHealth f).jobs = s.jobs := rfl
@[simp] theorem modHealth_ctxs (s : State) (f : Health → Health) : (s.modHealth f).ctxs = s.ctxs := rfl
@[simp] theorem modHealth_moves (s : State) (f : Health → Health) : (s.modHealth f).moves = s.moves := rfl
@[simp] theorem modHealth_fab (s : State) (f : Health → Health) : (s.modHealth f).fab = s.fab := rfl
@[simp] theorem modHealth_link (s : State) (f : Health → Health) : (s.modHealth f).link = s.link := rfl
@[simp] theorem modHealth_pwr (s : State) (f : Health → Health) : (s.modHealth f).pwr = s.pwr := rfl
@[simp] theorem modHealth_therm (s : State) (f : Health → Health) : (s.modHealth f).therm = s.therm := rfl
@[simp] theorem modHealth_health (s : State) (f : Health → Health) : (s.modHealth f).health = f s.health := rfl
@[simp] theorem modHealth_side (s : State) (f : Health → Health) : (s.modHealth f).side = s.side := rfl
@[simp] theorem modHealth_out (s : State) (f : Health → Health) : (s.modHealth f).out = s.out := rfl
@[simp] theorem modHealth_free (s : State) (f : Health → Health) : (s.modHealth f).free = s.free := rfl
@[simp] theorem modHealth_pending (s : State) (f : Health → Health) : (s.modHealth f).pending = s.pending := rfl

/-! ### modSide -/
@[simp] theorem modSide_pins (s : State) (f : Side → Side) : (s.modSide f).pins = s.pins := rfl
@[simp] theorem modSide_boot (s : State) (f : Side → Side) : (s.modSide f).boot = s.boot := rfl
@[simp] theorem modSide_grid (s : State) (f : Side → Side) : (s.modSide f).grid = s.grid := rfl
@[simp] theorem modSide_tmr (s : State) (f : Side → Side) : (s.modSide f).tmr = s.tmr := rfl
@[simp] theorem modSide_q (s : State) (f : Side → Side) : (s.modSide f).q = s.q := rfl
@[simp] theorem modSide_evc (s : State) (f : Side → Side) : (s.modSide f).evc = s.evc := rfl
@[simp] theorem modSide_cxl (s : State) (f : Side → Side) : (s.modSide f).cxl = s.cxl := rfl
@[simp] theorem modSide_mem (s : State) (f : Side → Side) : (s.modSide f).mem = s.mem := rfl
@[simp] theorem modSide_jobs (s : State) (f : Side → Side) : (s.modSide f).jobs = s.jobs := rfl
@[simp] theorem modSide_ctxs (s : State) (f : Side → Side) : (s.modSide f).ctxs = s.ctxs := rfl
@[simp] theorem modSide_moves (s : State) (f : Side → Side) : (s.modSide f).moves = s.moves := rfl
@[simp] theorem modSide_fab (s : State) (f : Side → Side) : (s.modSide f).fab = s.fab := rfl
@[simp] theorem modSide_link (s : State) (f : Side → Side) : (s.modSide f).link = s.link := rfl
@[simp] theorem modSide_pwr (s : State) (f : Side → Side) : (s.modSide f).pwr = s.pwr := rfl
@[simp] theorem modSide_therm (s : State) (f : Side → Side) : (s.modSide f).therm = s.therm := rfl
@[simp] theorem modSide_health (s : State) (f : Side → Side) : (s.modSide f).health = s.health := rfl
@[simp] theorem modSide_side (s : State) (f : Side → Side) : (s.modSide f).side = f s.side := rfl
@[simp] theorem modSide_out (s : State) (f : Side → Side) : (s.modSide f).out = s.out := rfl
@[simp] theorem modSide_free (s : State) (f : Side → Side) : (s.modSide f).free = s.free := rfl
@[simp] theorem modSide_pending (s : State) (f : Side → Side) : (s.modSide f).pending = s.pending := rfl

/-! ### send -/
@[simp] theorem send_pins (s : State) (x : Out) : (s.send x).pins = s.pins := rfl
@[simp] theorem send_boot (s : State) (x : Out) : (s.send x).boot = s.boot := rfl
@[simp] theorem send_grid (s : State) (x : Out) : (s.send x).grid = s.grid := rfl
@[simp] theorem send_tmr (s : State) (x : Out) : (s.send x).tmr = s.tmr := rfl
@[simp] theorem send_q (s : State) (x : Out) : (s.send x).q = s.q := rfl
@[simp] theorem send_evc (s : State) (x : Out) : (s.send x).evc = s.evc := rfl
@[simp] theorem send_cxl (s : State) (x : Out) : (s.send x).cxl = s.cxl := rfl
@[simp] theorem send_mem (s : State) (x : Out) : (s.send x).mem = s.mem := rfl
@[simp] theorem send_jobs (s : State) (x : Out) : (s.send x).jobs = s.jobs := rfl
@[simp] theorem send_ctxs (s : State) (x : Out) : (s.send x).ctxs = s.ctxs := rfl
@[simp] theorem send_moves (s : State) (x : Out) : (s.send x).moves = s.moves := rfl
@[simp] theorem send_fab (s : State) (x : Out) : (s.send x).fab = s.fab := rfl
@[simp] theorem send_link (s : State) (x : Out) : (s.send x).link = s.link := rfl
@[simp] theorem send_pwr (s : State) (x : Out) : (s.send x).pwr = s.pwr := rfl
@[simp] theorem send_therm (s : State) (x : Out) : (s.send x).therm = s.therm := rfl
@[simp] theorem send_health (s : State) (x : Out) : (s.send x).health = s.health := rfl
@[simp] theorem send_side (s : State) (x : Out) : (s.send x).side = s.side := rfl
@[simp] theorem send_out (s : State) (x : Out) : (s.send x).out = s.out ++ [x] := rfl
@[simp] theorem send_free (s : State) (x : Out) : (s.send x).free = s.free := rfl
@[simp] theorem send_pending (s : State) (x : Out) : (s.send x).pending = s.pending := rfl

/-! ### modPair -/
@[simp] theorem modPair_pins (s : State) (n : Nat) (f : QPair → QPair) : (s.modPair n f).pins = s.pins := rfl
@[simp] theorem modPair_boot (s : State) (n : Nat) (f : QPair → QPair) : (s.modPair n f).boot = s.boot := rfl
@[simp] theorem modPair_grid (s : State) (n : Nat) (f : QPair → QPair) : (s.modPair n f).grid = s.grid := rfl
@[simp] theorem modPair_tmr (s : State) (n : Nat) (f : QPair → QPair) : (s.modPair n f).tmr = s.tmr := rfl
@[simp] theorem modPair_evc (s : State) (n : Nat) (f : QPair → QPair) : (s.modPair n f).evc = s.evc := rfl
@[simp] theorem modPair_cxl (s : State) (n : Nat) (f : QPair → QPair) : (s.modPair n f).cxl = s.cxl := rfl
@[simp] theorem modPair_mem (s : State) (n : Nat) (f : QPair → QPair) : (s.modPair n f).mem = s.mem := rfl
@[simp] theorem modPair_jobs (s : State) (n : Nat) (f : QPair → QPair) : (s.modPair n f).jobs = s.jobs := rfl
@[simp] theorem modPair_ctxs (s : State) (n : Nat) (f : QPair → QPair) : (s.modPair n f).ctxs = s.ctxs := rfl
@[simp] theorem modPair_moves (s : State) (n : Nat) (f : QPair → QPair) : (s.modPair n f).moves = s.moves := rfl
@[simp] theorem modPair_fab (s : State) (n : Nat) (f : QPair → QPair) : (s.modPair n f).fab = s.fab := rfl
@[simp] theorem modPair_link (s : State) (n : Nat) (f : QPair → QPair) : (s.modPair n f).link = s.link := rfl
@[simp] theorem modPair_pwr (s : State) (n : Nat) (f : QPair → QPair) : (s.modPair n f).pwr = s.pwr := rfl
@[simp] theorem modPair_therm (s : State) (n : Nat) (f : QPair → QPair) : (s.modPair n f).therm = s.therm := rfl
@[simp] theorem modPair_health (s : State) (n : Nat) (f : QPair → QPair) : (s.modPair n f).health = s.health := rfl
@[simp] theorem modPair_side (s : State) (n : Nat) (f : QPair → QPair) : (s.modPair n f).side = s.side := rfl
@[simp] theorem modPair_out (s : State) (n : Nat) (f : QPair → QPair) : (s.modPair n f).out = s.out := rfl
@[simp] theorem modPair_free (s : State) (n : Nat) (f : QPair → QPair) : (s.modPair n f).free = s.free := rfl
@[simp] theorem modPair_pending (s : State) (n : Nat) (f : QPair → QPair) : (s.modPair n f).pending = s.pending := rfl

/-! ### modRec -/
@[simp] theorem modRec_pins (s : State) (n : Nat) (f : CmdRec → CmdRec) : (s.modRec n f).pins = s.pins := rfl
@[simp] theorem modRec_boot (s : State) (n : Nat) (f : CmdRec → CmdRec) : (s.modRec n f).boot = s.boot := rfl
@[simp] theorem modRec_grid (s : State) (n : Nat) (f : CmdRec → CmdRec) : (s.modRec n f).grid = s.grid := rfl
@[simp] theorem modRec_tmr (s : State) (n : Nat) (f : CmdRec → CmdRec) : (s.modRec n f).tmr = s.tmr := rfl
@[simp] theorem modRec_evc (s : State) (n : Nat) (f : CmdRec → CmdRec) : (s.modRec n f).evc = s.evc := rfl
@[simp] theorem modRec_cxl (s : State) (n : Nat) (f : CmdRec → CmdRec) : (s.modRec n f).cxl = s.cxl := rfl
@[simp] theorem modRec_mem (s : State) (n : Nat) (f : CmdRec → CmdRec) : (s.modRec n f).mem = s.mem := rfl
@[simp] theorem modRec_jobs (s : State) (n : Nat) (f : CmdRec → CmdRec) : (s.modRec n f).jobs = s.jobs := rfl
@[simp] theorem modRec_ctxs (s : State) (n : Nat) (f : CmdRec → CmdRec) : (s.modRec n f).ctxs = s.ctxs := rfl
@[simp] theorem modRec_moves (s : State) (n : Nat) (f : CmdRec → CmdRec) : (s.modRec n f).moves = s.moves := rfl
@[simp] theorem modRec_fab (s : State) (n : Nat) (f : CmdRec → CmdRec) : (s.modRec n f).fab = s.fab := rfl
@[simp] theorem modRec_link (s : State) (n : Nat) (f : CmdRec → CmdRec) : (s.modRec n f).link = s.link := rfl
@[simp] theorem modRec_pwr (s : State) (n : Nat) (f : CmdRec → CmdRec) : (s.modRec n f).pwr = s.pwr := rfl
@[simp] theorem modRec_therm (s : State) (n : Nat) (f : CmdRec → CmdRec) : (s.modRec n f).therm = s.therm := rfl
@[simp] theorem modRec_health (s : State) (n : Nat) (f : CmdRec → CmdRec) : (s.modRec n f).health = s.health := rfl
@[simp] theorem modRec_side (s : State) (n : Nat) (f : CmdRec → CmdRec) : (s.modRec n f).side = s.side := rfl
@[simp] theorem modRec_out (s : State) (n : Nat) (f : CmdRec → CmdRec) : (s.modRec n f).out = s.out := rfl
@[simp] theorem modRec_free (s : State) (n : Nat) (f : CmdRec → CmdRec) : (s.modRec n f).free = s.free := rfl
@[simp] theorem modRec_pending (s : State) (n : Nat) (f : CmdRec → CmdRec) : (s.modRec n f).pending = s.pending := rfl

/-! ### writeBytes and markPoison -/
@[simp] theorem writeBytes_pins (s : State) (k : Nat) (bs : List Byte) : (s.writeBytes k bs).pins = s.pins := rfl
@[simp] theorem markPoison_pins (s : State) (ks : List Nat) : (s.markPoison ks).pins = s.pins := rfl
@[simp] theorem writeBytes_boot (s : State) (k : Nat) (bs : List Byte) : (s.writeBytes k bs).boot = s.boot := rfl
@[simp] theorem markPoison_boot (s : State) (ks : List Nat) : (s.markPoison ks).boot = s.boot := rfl
@[simp] theorem writeBytes_grid (s : State) (k : Nat) (bs : List Byte) : (s.writeBytes k bs).grid = s.grid := rfl
@[simp] theorem markPoison_grid (s : State) (ks : List Nat) : (s.markPoison ks).grid = s.grid := rfl
@[simp] theorem writeBytes_tmr (s : State) (k : Nat) (bs : List Byte) : (s.writeBytes k bs).tmr = s.tmr := rfl
@[simp] theorem markPoison_tmr (s : State) (ks : List Nat) : (s.markPoison ks).tmr = s.tmr := rfl
@[simp] theorem writeBytes_q (s : State) (k : Nat) (bs : List Byte) : (s.writeBytes k bs).q = s.q := rfl
@[simp] theorem markPoison_q (s : State) (ks : List Nat) : (s.markPoison ks).q = s.q := rfl
@[simp] theorem writeBytes_evc (s : State) (k : Nat) (bs : List Byte) : (s.writeBytes k bs).evc = s.evc := rfl
@[simp] theorem markPoison_evc (s : State) (ks : List Nat) : (s.markPoison ks).evc = s.evc := rfl
@[simp] theorem writeBytes_cxl (s : State) (k : Nat) (bs : List Byte) : (s.writeBytes k bs).cxl = s.cxl := rfl
@[simp] theorem markPoison_cxl (s : State) (ks : List Nat) : (s.markPoison ks).cxl = s.cxl := rfl
@[simp] theorem writeBytes_jobs (s : State) (k : Nat) (bs : List Byte) : (s.writeBytes k bs).jobs = s.jobs := rfl
@[simp] theorem markPoison_jobs (s : State) (ks : List Nat) : (s.markPoison ks).jobs = s.jobs := rfl
@[simp] theorem writeBytes_ctxs (s : State) (k : Nat) (bs : List Byte) : (s.writeBytes k bs).ctxs = s.ctxs := rfl
@[simp] theorem markPoison_ctxs (s : State) (ks : List Nat) : (s.markPoison ks).ctxs = s.ctxs := rfl
@[simp] theorem writeBytes_moves (s : State) (k : Nat) (bs : List Byte) : (s.writeBytes k bs).moves = s.moves := rfl
@[simp] theorem markPoison_moves (s : State) (ks : List Nat) : (s.markPoison ks).moves = s.moves := rfl
@[simp] theorem writeBytes_fab (s : State) (k : Nat) (bs : List Byte) : (s.writeBytes k bs).fab = s.fab := rfl
@[simp] theorem markPoison_fab (s : State) (ks : List Nat) : (s.markPoison ks).fab = s.fab := rfl
@[simp] theorem writeBytes_link (s : State) (k : Nat) (bs : List Byte) : (s.writeBytes k bs).link = s.link := rfl
@[simp] theorem markPoison_link (s : State) (ks : List Nat) : (s.markPoison ks).link = s.link := rfl
@[simp] theorem writeBytes_pwr (s : State) (k : Nat) (bs : List Byte) : (s.writeBytes k bs).pwr = s.pwr := rfl
@[simp] theorem markPoison_pwr (s : State) (ks : List Nat) : (s.markPoison ks).pwr = s.pwr := rfl
@[simp] theorem writeBytes_therm (s : State) (k : Nat) (bs : List Byte) : (s.writeBytes k bs).therm = s.therm := rfl
@[simp] theorem markPoison_therm (s : State) (ks : List Nat) : (s.markPoison ks).therm = s.therm := rfl
@[simp] theorem writeBytes_health (s : State) (k : Nat) (bs : List Byte) : (s.writeBytes k bs).health = s.health := rfl
@[simp] theorem markPoison_health (s : State) (ks : List Nat) : (s.markPoison ks).health = s.health := rfl
@[simp] theorem writeBytes_side (s : State) (k : Nat) (bs : List Byte) : (s.writeBytes k bs).side = s.side := rfl
@[simp] theorem markPoison_side (s : State) (ks : List Nat) : (s.markPoison ks).side = s.side := rfl
@[simp] theorem writeBytes_out (s : State) (k : Nat) (bs : List Byte) : (s.writeBytes k bs).out = s.out := rfl
@[simp] theorem markPoison_out (s : State) (ks : List Nat) : (s.markPoison ks).out = s.out := rfl
@[simp] theorem writeBytes_free (s : State) (k : Nat) (bs : List Byte) : (s.writeBytes k bs).free = s.free := rfl
@[simp] theorem markPoison_free (s : State) (ks : List Nat) : (s.markPoison ks).free = s.free := rfl
@[simp] theorem writeBytes_pending (s : State) (k : Nat) (bs : List Byte) : (s.writeBytes k bs).pending = s.pending := rfl
@[simp] theorem markPoison_pending (s : State) (ks : List Nat) : (s.markPoison ks).pending = s.pending := rfl
@[simp] theorem writeBytes_allocs (s : State) (k : Nat) (bs : List Byte) : (s.writeBytes k bs).mem.allocs = s.mem.allocs := rfl
@[simp] theorem markPoison_allocs (s : State) (ks : List Nat) : (s.markPoison ks).mem.allocs = s.mem.allocs := rfl
@[simp] theorem writeBytes_reserves (s : State) (k : Nat) (bs : List Byte) : (s.writeBytes k bs).mem.reserves = s.mem.reserves := rfl
@[simp] theorem markPoison_reserves (s : State) (ks : List Nat) : (s.markPoison ks).mem.reserves = s.mem.reserves := rfl
@[simp] theorem writeBytes_nextUid (s : State) (k : Nat) (bs : List Byte) : (s.writeBytes k bs).mem.nextUid = s.mem.nextUid := rfl
@[simp] theorem markPoison_nextUid (s : State) (ks : List Nat) : (s.markPoison ks).mem.nextUid = s.mem.nextUid := rfl
@[simp] theorem markPoison_cells (s : State) (ks : List Nat) : (s.markPoison ks).mem.cells = s.mem.cells := rfl

@[simp] theorem now_eq (s : State) : s.now = s.tmr.count := rfl

end Sys2Proof.Machine
end

