-- ==== Sys2Proof/Laws/Frames.lean ====
section
/-! SUPPORT. The frames of events, trace, journal and completion: which parts of the state they leave alone. -/

namespace Sys2Proof.Machine

theorem SameUnits.refl (s : State) : SameUnits s s := by
  constructor <;> rfl

theorem SameUnits.trans {s t u : State} (h : SameUnits s t) (k : SameUnits t u) : SameUnits s u where
  pins := k.pins.trans h.pins
  boot := k.boot.trans h.boot
  grid := k.grid.trans h.grid
  tmr := k.tmr.trans h.tmr
  jobs := k.jobs.trans h.jobs
  ctxs := k.ctxs.trans h.ctxs
  moves := k.moves.trans h.moves
  fab := k.fab.trans h.fab
  link := k.link.trans h.link
  pwr := k.pwr.trans h.pwr
  therm := k.therm.trans h.therm
  side := k.side.trans h.side
  allocs := k.allocs.trans h.allocs
  reserves := k.reserves.trans h.reserves
  pending := k.pending.trans h.pending

/-- A fold of steps that each leave the units alone does so too. -/
theorem SameUnits.foldl {α : Type} (f : State → α → State) (h : ∀ s a, SameUnits s (f s a)) :
    ∀ (l : List α) (s : State), SameUnits s (l.foldl f s)
  | [], s => .refl s
  | a :: l, s => (h s a).trans (SameUnits.foldl f h l (f s a))

theorem msix_same (s : State) (v : Nat) : SameUnits s (s.msix v) := by
  unfold State.msix
  split <;> constructor <;> rfl

theorem evcSet_same (s : State) (w : Nat) (p m : U64) : SameUnits s (s.evcSet w p m) := by
  refine SameUnits.trans ?_ (SameUnits.foldl _ (fun s b => ?_) _ _)
  · constructor <;> rfl
  · split
    · exact msix_same _ _
    · exact .refl _

theorem edge_same (s : State) (src : Nat) : SameUnits s (s.edge src) := evcSet_same _ _ _ _

theorem event_same (s : State) (src kind : Nat) (pl : List Byte) : SameUnits s (s.event src kind pl) := by
  unfold State.event
  dsimp only
  split
  · refine SameUnits.trans ?_ (edge_same _ _)
    split <;> constructor <;> rfl
  · split <;> constructor <;> rfl

theorem trace_same (s : State) (b o : Nat) (d : List Byte) : SameUnits s (s.trace b o d) := by
  unfold State.trace
  dsimp only
  split
  · split <;> constructor <;> rfl
  · exact .refl _

theorem journal_same (s : State) (op q st : Nat) (d : List Byte) : SameUnits s (s.journal op q st d) := by
  unfold State.journal
  refine SameUnits.trans ?_ (event_same _ _ _ _)
  constructor <;> rfl

theorem journalAction_same (s : State) (c : Nat) (o : List Byte) : SameUnits s (s.journalAction c o) := journal_same _ _ _ _ _

theorem modPair_same (s : State) (n : Nat) (f : QPair → QPair) : SameUnits s (s.modPair n f) := by
  constructor <;> rfl

theorem modRec_same (s : State) (n : Nat) (f : CmdRec → CmdRec) : SameUnits s (s.modRec n f) := by
  constructor <;> rfl

theorem pairError_same (s : State) (q c v : Nat) : SameUnits s (s.pairError q c v) := by
  unfold State.pairError
  split
  · dsimp only
    split
    · exact .refl _
    · exact (modPair_same _ _ _).trans (event_same _ _ _ _)
  · exact .refl _

theorem writeCq_same (s : State) (q : Nat) (e : Env) (st : Status) (res : List Byte) (t : Nat) :
    SameUnits s (s.writeCq q e st res t) := by
  unfold State.writeCq
  split
  · dsimp only
    have hw : ∀ k bs, SameUnits s (s.writeBytes k bs) := by
      intro k bs
      constructor <;> rfl
    split
    · split
      · exact (hw _ _).trans (pairError_same _ _ _ _)
      · split
        · exact ((hw _ _).trans (modPair_same _ _ _)).trans (msix_same _ _)
        · exact (hw _ _).trans (modPair_same _ _ _)
    · exact pairError_same _ _ _ _
  · exact .refl _

theorem markDone_same (s : State) (id : Nat) (st : Status) (res : List Byte) : SameUnits s (s.markDone id st res) := by
  unfold State.markDone
  split
  · dsimp only
    refine SameUnits.trans (SameUnits.trans ?_ (modRec_same _ _ _)) (trace_same _ _ _ _)
    split
    · exact journal_same _ _ _ _ _
    · exact .refl _
  · exact .refl _

theorem cancelChain_same (s : State) (id : Nat) (st : Status) : SameUnits s (s.cancelChain id st) := by
  unfold State.cancelChain
  dsimp only
  split
  · split
    · exact .refl _
    · have h : ∀ l : List CmdRec, SameUnits s (l.foldl (fun s x => s.markDone x.id .cancelled []) s) := fun l =>
        SameUnits.foldl _ (fun s x => markDone_same _ _ _ _) _ _
      split
      · split
        · exact (h _).trans (modPair_same _ _ _)
        · exact h _
      · exact (h _).trans (modPair_same _ _ _)
  · exact .refl _

theorem markChain_same (s : State) (id : Nat) (st : Status) (res : List Byte) : SameUnits s (s.markChain id st res) :=
  (markDone_same _ _ _ _).trans (cancelChain_same _ _ _)

theorem settle_same : ∀ (n : Nat) (s : State), SameUnits s (s.settle n)
  | 0, s => .refl s
  | n + 1, s => by
    unfold State.settle
    split
    · split
      · refine SameUnits.trans ?_ (settle_same n _)
        refine SameUnits.trans ?_ (writeCq_same _ _ _ _ _ _)
        constructor <;> rfl
      · exact .refl _
    · split
      · refine SameUnits.trans ?_ (settle_same n _)
        refine SameUnits.trans ?_ (markChain_same _ _ _ _)
        constructor <;> rfl
      · split
        · exact modPair_same _ _ _
        · exact .refl _

theorem settled_same (s : State) : SameUnits s s.settled := settle_same _ _

theorem finish_same (s : State) (id : Nat) (st : Status) (res : List Byte) : SameUnits s (s.finish id st res) :=
  (markChain_same _ _ _ _).trans (settled_same _)

theorem finishAll_same (s : State) (l : List (Nat × Status × List Byte)) : SameUnits s (s.finishAll l) :=
  ((SameUnits.foldl _ (fun _ _ => by
      split
      · exact .refl _
      · exact markDone_same _ _ _ _) _ _).trans
    (SameUnits.foldl _ (fun _ _ => cancelChain_same _ _ _) _ _)).trans (settled_same _)

theorem started_same (s : State) (r : CmdRec) : SameUnits s (s.started r) := (modRec_same _ _ _).trans (trace_same _ _ _ _)

theorem takeIn_same (s : State) (i : Instr) (e : Env) (st : Option Status) : SameUnits s (s.takeIn i e st) := by
  unfold State.takeIn
  dsimp only
  split
  · exact .refl _
  · have h : ∀ r f, SameUnits s (({ s with q := { s.q with recs := s.q.recs ++ [r], nextRec := s.q.nextRec + 1 } } :
        State).modPair e.q.toNat f) := by
      intro r f
      constructor <;> rfl
    split
    · exact (h _ _).trans (finish_same _ _ _ _)
    · split
      · exact (h _ _).trans (finish_same _ _ _ _)
      · exact h _ _

/-! ### msix -/
@[simp] theorem msix_pins (s : State) (v : Nat) : (s.msix v).pins = s.pins := (msix_same _ _).pins
@[simp] theorem msix_boot (s : State) (v : Nat) : (s.msix v).boot = s.boot := (msix_same _ _).boot
@[simp] theorem msix_grid (s : State) (v : Nat) : (s.msix v).grid = s.grid := (msix_same _ _).grid
@[simp] theorem msix_tmr (s : State) (v : Nat) : (s.msix v).tmr = s.tmr := (msix_same _ _).tmr
@[simp] theorem msix_jobs (s : State) (v : Nat) : (s.msix v).jobs = s.jobs := (msix_same _ _).jobs
@[simp] theorem msix_ctxs (s : State) (v : Nat) : (s.msix v).ctxs = s.ctxs := (msix_same _ _).ctxs
@[simp] theorem msix_moves (s : State) (v : Nat) : (s.msix v).moves = s.moves := (msix_same _ _).moves
@[simp] theorem msix_fab (s : State) (v : Nat) : (s.msix v).fab = s.fab := (msix_same _ _).fab
@[simp] theorem msix_link (s : State) (v : Nat) : (s.msix v).link = s.link := (msix_same _ _).link
@[simp] theorem msix_pwr (s : State) (v : Nat) : (s.msix v).pwr = s.pwr := (msix_same _ _).pwr
@[simp] theorem msix_therm (s : State) (v : Nat) : (s.msix v).therm = s.therm := (msix_same _ _).therm
@[simp] theorem msix_side (s : State) (v : Nat) : (s.msix v).side = s.side := (msix_same _ _).side
@[simp] theorem msix_pending (s : State) (v : Nat) : (s.msix v).pending = s.pending := (msix_same _ _).pending
@[simp] theorem msix_allocs (s : State) (v : Nat) : (s.msix v).mem.allocs = s.mem.allocs := (msix_same _ _).allocs
@[simp] theorem msix_reserves (s : State) (v : Nat) : (s.msix v).mem.reserves = s.mem.reserves := (msix_same _ _).reserves

/-! ### event -/
@[simp] theorem event_pins (s : State) (src kind : Nat) (pl : List Byte) : (s.event src kind pl).pins = s.pins := (event_same _ _ _ _).pins
@[simp] theorem event_boot (s : State) (src kind : Nat) (pl : List Byte) : (s.event src kind pl).boot = s.boot := (event_same _ _ _ _).boot
@[simp] theorem event_grid (s : State) (src kind : Nat) (pl : List Byte) : (s.event src kind pl).grid = s.grid := (event_same _ _ _ _).grid
@[simp] theorem event_tmr (s : State) (src kind : Nat) (pl : List Byte) : (s.event src kind pl).tmr = s.tmr := (event_same _ _ _ _).tmr
@[simp] theorem event_jobs (s : State) (src kind : Nat) (pl : List Byte) : (s.event src kind pl).jobs = s.jobs := (event_same _ _ _ _).jobs
@[simp] theorem event_ctxs (s : State) (src kind : Nat) (pl : List Byte) : (s.event src kind pl).ctxs = s.ctxs := (event_same _ _ _ _).ctxs
@[simp] theorem event_moves (s : State) (src kind : Nat) (pl : List Byte) : (s.event src kind pl).moves = s.moves := (event_same _ _ _ _).moves
@[simp] theorem event_fab (s : State) (src kind : Nat) (pl : List Byte) : (s.event src kind pl).fab = s.fab := (event_same _ _ _ _).fab
@[simp] theorem event_link (s : State) (src kind : Nat) (pl : List Byte) : (s.event src kind pl).link = s.link := (event_same _ _ _ _).link
@[simp] theorem event_pwr (s : State) (src kind : Nat) (pl : List Byte) : (s.event src kind pl).pwr = s.pwr := (event_same _ _ _ _).pwr
@[simp] theorem event_therm (s : State) (src kind : Nat) (pl : List Byte) : (s.event src kind pl).therm = s.therm := (event_same _ _ _ _).therm
@[simp] theorem event_side (s : State) (src kind : Nat) (pl : List Byte) : (s.event src kind pl).side = s.side := (event_same _ _ _ _).side
@[simp] theorem event_pending (s : State) (src kind : Nat) (pl : List Byte) : (s.event src kind pl).pending = s.pending := (event_same _ _ _ _).pending
@[simp] theorem event_allocs (s : State) (src kind : Nat) (pl : List Byte) : (s.event src kind pl).mem.allocs = s.mem.allocs := (event_same _ _ _ _).allocs
@[simp] theorem event_reserves (s : State) (src kind : Nat) (pl : List Byte) : (s.event src kind pl).mem.reserves = s.mem.reserves := (event_same _ _ _ _).reserves

/-! ### trace -/
@[simp] theorem trace_pins (s : State) (b o : Nat) (d : List Byte) : (s.trace b o d).pins = s.pins := (trace_same _ _ _ _).pins
@[simp] theorem trace_boot (s : State) (b o : Nat) (d : List Byte) : (s.trace b o d).boot = s.boot := (trace_same _ _ _ _).boot
@[simp] theorem trace_grid (s : State) (b o : Nat) (d : List Byte) : (s.trace b o d).grid = s.grid := (trace_same _ _ _ _).grid
@[simp] theorem trace_tmr (s : State) (b o : Nat) (d : List Byte) : (s.trace b o d).tmr = s.tmr := (trace_same _ _ _ _).tmr
@[simp] theorem trace_jobs (s : State) (b o : Nat) (d : List Byte) : (s.trace b o d).jobs = s.jobs := (trace_same _ _ _ _).jobs
@[simp] theorem trace_ctxs (s : State) (b o : Nat) (d : List Byte) : (s.trace b o d).ctxs = s.ctxs := (trace_same _ _ _ _).ctxs
@[simp] theorem trace_moves (s : State) (b o : Nat) (d : List Byte) : (s.trace b o d).moves = s.moves := (trace_same _ _ _ _).moves
@[simp] theorem trace_fab (s : State) (b o : Nat) (d : List Byte) : (s.trace b o d).fab = s.fab := (trace_same _ _ _ _).fab
@[simp] theorem trace_link (s : State) (b o : Nat) (d : List Byte) : (s.trace b o d).link = s.link := (trace_same _ _ _ _).link
@[simp] theorem trace_pwr (s : State) (b o : Nat) (d : List Byte) : (s.trace b o d).pwr = s.pwr := (trace_same _ _ _ _).pwr
@[simp] theorem trace_therm (s : State) (b o : Nat) (d : List Byte) : (s.trace b o d).therm = s.therm := (trace_same _ _ _ _).therm
@[simp] theorem trace_side (s : State) (b o : Nat) (d : List Byte) : (s.trace b o d).side = s.side := (trace_same _ _ _ _).side
@[simp] theorem trace_pending (s : State) (b o : Nat) (d : List Byte) : (s.trace b o d).pending = s.pending := (trace_same _ _ _ _).pending
@[simp] theorem trace_allocs (s : State) (b o : Nat) (d : List Byte) : (s.trace b o d).mem.allocs = s.mem.allocs := (trace_same _ _ _ _).allocs
@[simp] theorem trace_reserves (s : State) (b o : Nat) (d : List Byte) : (s.trace b o d).mem.reserves = s.mem.reserves := (trace_same _ _ _ _).reserves

/-! ### journal -/
@[simp] theorem journal_pins (s : State) (op q st : Nat) (d : List Byte) : (s.journal op q st d).pins = s.pins := (journal_same _ _ _ _ _).pins
@[simp] theorem journal_boot (s : State) (op q st : Nat) (d : List Byte) : (s.journal op q st d).boot = s.boot := (journal_same _ _ _ _ _).boot
@[simp] theorem journal_grid (s : State) (op q st : Nat) (d : List Byte) : (s.journal op q st d).grid = s.grid := (journal_same _ _ _ _ _).grid
@[simp] theorem journal_tmr (s : State) (op q st : Nat) (d : List Byte) : (s.journal op q st d).tmr = s.tmr := (journal_same _ _ _ _ _).tmr
@[simp] theorem journal_jobs (s : State) (op q st : Nat) (d : List Byte) : (s.journal op q st d).jobs = s.jobs := (journal_same _ _ _ _ _).jobs
@[simp] theorem journal_ctxs (s : State) (op q st : Nat) (d : List Byte) : (s.journal op q st d).ctxs = s.ctxs := (journal_same _ _ _ _ _).ctxs
@[simp] theorem journal_moves (s : State) (op q st : Nat) (d : List Byte) : (s.journal op q st d).moves = s.moves := (journal_same _ _ _ _ _).moves
@[simp] theorem journal_fab (s : State) (op q st : Nat) (d : List Byte) : (s.journal op q st d).fab = s.fab := (journal_same _ _ _ _ _).fab
@[simp] theorem journal_link (s : State) (op q st : Nat) (d : List Byte) : (s.journal op q st d).link = s.link := (journal_same _ _ _ _ _).link
@[simp] theorem journal_pwr (s : State) (op q st : Nat) (d : List Byte) : (s.journal op q st d).pwr = s.pwr := (journal_same _ _ _ _ _).pwr
@[simp] theorem journal_therm (s : State) (op q st : Nat) (d : List Byte) : (s.journal op q st d).therm = s.therm := (journal_same _ _ _ _ _).therm
@[simp] theorem journal_side (s : State) (op q st : Nat) (d : List Byte) : (s.journal op q st d).side = s.side := (journal_same _ _ _ _ _).side
@[simp] theorem journal_pending (s : State) (op q st : Nat) (d : List Byte) : (s.journal op q st d).pending = s.pending := (journal_same _ _ _ _ _).pending
@[simp] theorem journal_allocs (s : State) (op q st : Nat) (d : List Byte) : (s.journal op q st d).mem.allocs = s.mem.allocs := (journal_same _ _ _ _ _).allocs
@[simp] theorem journal_reserves (s : State) (op q st : Nat) (d : List Byte) : (s.journal op q st d).mem.reserves = s.mem.reserves := (journal_same _ _ _ _ _).reserves

/-! ### journalAction -/
@[simp] theorem journalAction_pins (s : State) (c : Nat) (o : List Byte) : (s.journalAction c o).pins = s.pins := (journalAction_same _ _ _).pins
@[simp] theorem journalAction_boot (s : State) (c : Nat) (o : List Byte) : (s.journalAction c o).boot = s.boot := (journalAction_same _ _ _).boot
@[simp] theorem journalAction_grid (s : State) (c : Nat) (o : List Byte) : (s.journalAction c o).grid = s.grid := (journalAction_same _ _ _).grid
@[simp] theorem journalAction_tmr (s : State) (c : Nat) (o : List Byte) : (s.journalAction c o).tmr = s.tmr := (journalAction_same _ _ _).tmr
@[simp] theorem journalAction_jobs (s : State) (c : Nat) (o : List Byte) : (s.journalAction c o).jobs = s.jobs := (journalAction_same _ _ _).jobs
@[simp] theorem journalAction_ctxs (s : State) (c : Nat) (o : List Byte) : (s.journalAction c o).ctxs = s.ctxs := (journalAction_same _ _ _).ctxs
@[simp] theorem journalAction_moves (s : State) (c : Nat) (o : List Byte) : (s.journalAction c o).moves = s.moves := (journalAction_same _ _ _).moves
@[simp] theorem journalAction_fab (s : State) (c : Nat) (o : List Byte) : (s.journalAction c o).fab = s.fab := (journalAction_same _ _ _).fab
@[simp] theorem journalAction_link (s : State) (c : Nat) (o : List Byte) : (s.journalAction c o).link = s.link := (journalAction_same _ _ _).link
@[simp] theorem journalAction_pwr (s : State) (c : Nat) (o : List Byte) : (s.journalAction c o).pwr = s.pwr := (journalAction_same _ _ _).pwr
@[simp] theorem journalAction_therm (s : State) (c : Nat) (o : List Byte) : (s.journalAction c o).therm = s.therm := (journalAction_same _ _ _).therm
@[simp] theorem journalAction_side (s : State) (c : Nat) (o : List Byte) : (s.journalAction c o).side = s.side := (journalAction_same _ _ _).side
@[simp] theorem journalAction_pending (s : State) (c : Nat) (o : List Byte) : (s.journalAction c o).pending = s.pending := (journalAction_same _ _ _).pending
@[simp] theorem journalAction_allocs (s : State) (c : Nat) (o : List Byte) : (s.journalAction c o).mem.allocs = s.mem.allocs := (journalAction_same _ _ _).allocs
@[simp] theorem journalAction_reserves (s : State) (c : Nat) (o : List Byte) : (s.journalAction c o).mem.reserves = s.mem.reserves := (journalAction_same _ _ _).reserves

/-! ### pairError -/
@[simp] theorem pairError_pins (s : State) (q c v : Nat) : (s.pairError q c v).pins = s.pins := (pairError_same _ _ _ _).pins
@[simp] theorem pairError_boot (s : State) (q c v : Nat) : (s.pairError q c v).boot = s.boot := (pairError_same _ _ _ _).boot
@[simp] theorem pairError_grid (s : State) (q c v : Nat) : (s.pairError q c v).grid = s.grid := (pairError_same _ _ _ _).grid
@[simp] theorem pairError_tmr (s : State) (q c v : Nat) : (s.pairError q c v).tmr = s.tmr := (pairError_same _ _ _ _).tmr
@[simp] theorem pairError_jobs (s : State) (q c v : Nat) : (s.pairError q c v).jobs = s.jobs := (pairError_same _ _ _ _).jobs
@[simp] theorem pairError_ctxs (s : State) (q c v : Nat) : (s.pairError q c v).ctxs = s.ctxs := (pairError_same _ _ _ _).ctxs
@[simp] theorem pairError_moves (s : State) (q c v : Nat) : (s.pairError q c v).moves = s.moves := (pairError_same _ _ _ _).moves
@[simp] theorem pairError_fab (s : State) (q c v : Nat) : (s.pairError q c v).fab = s.fab := (pairError_same _ _ _ _).fab
@[simp] theorem pairError_link (s : State) (q c v : Nat) : (s.pairError q c v).link = s.link := (pairError_same _ _ _ _).link
@[simp] theorem pairError_pwr (s : State) (q c v : Nat) : (s.pairError q c v).pwr = s.pwr := (pairError_same _ _ _ _).pwr
@[simp] theorem pairError_therm (s : State) (q c v : Nat) : (s.pairError q c v).therm = s.therm := (pairError_same _ _ _ _).therm
@[simp] theorem pairError_side (s : State) (q c v : Nat) : (s.pairError q c v).side = s.side := (pairError_same _ _ _ _).side
@[simp] theorem pairError_pending (s : State) (q c v : Nat) : (s.pairError q c v).pending = s.pending := (pairError_same _ _ _ _).pending
@[simp] theorem pairError_allocs (s : State) (q c v : Nat) : (s.pairError q c v).mem.allocs = s.mem.allocs := (pairError_same _ _ _ _).allocs
@[simp] theorem pairError_reserves (s : State) (q c v : Nat) : (s.pairError q c v).mem.reserves = s.mem.reserves := (pairError_same _ _ _ _).reserves

/-! ### markChain -/
@[simp] theorem markChain_pins (s : State) (id : Nat) (st : Status) (res : List Byte) : (s.markChain id st res).pins = s.pins := (markChain_same _ _ _ _).pins
@[simp] theorem markChain_boot (s : State) (id : Nat) (st : Status) (res : List Byte) : (s.markChain id st res).boot = s.boot := (markChain_same _ _ _ _).boot
@[simp] theorem markChain_grid (s : State) (id : Nat) (st : Status) (res : List Byte) : (s.markChain id st res).grid = s.grid := (markChain_same _ _ _ _).grid
@[simp] theorem markChain_tmr (s : State) (id : Nat) (st : Status) (res : List Byte) : (s.markChain id st res).tmr = s.tmr := (markChain_same _ _ _ _).tmr
@[simp] theorem markChain_jobs (s : State) (id : Nat) (st : Status) (res : List Byte) : (s.markChain id st res).jobs = s.jobs := (markChain_same _ _ _ _).jobs
@[simp] theorem markChain_ctxs (s : State) (id : Nat) (st : Status) (res : List Byte) : (s.markChain id st res).ctxs = s.ctxs := (markChain_same _ _ _ _).ctxs
@[simp] theorem markChain_moves (s : State) (id : Nat) (st : Status) (res : List Byte) : (s.markChain id st res).moves = s.moves := (markChain_same _ _ _ _).moves
@[simp] theorem markChain_fab (s : State) (id : Nat) (st : Status) (res : List Byte) : (s.markChain id st res).fab = s.fab := (markChain_same _ _ _ _).fab
@[simp] theorem markChain_link (s : State) (id : Nat) (st : Status) (res : List Byte) : (s.markChain id st res).link = s.link := (markChain_same _ _ _ _).link
@[simp] theorem markChain_pwr (s : State) (id : Nat) (st : Status) (res : List Byte) : (s.markChain id st res).pwr = s.pwr := (markChain_same _ _ _ _).pwr
@[simp] theorem markChain_therm (s : State) (id : Nat) (st : Status) (res : List Byte) : (s.markChain id st res).therm = s.therm := (markChain_same _ _ _ _).therm
@[simp] theorem markChain_side (s : State) (id : Nat) (st : Status) (res : List Byte) : (s.markChain id st res).side = s.side := (markChain_same _ _ _ _).side
@[simp] theorem markChain_pending (s : State) (id : Nat) (st : Status) (res : List Byte) : (s.markChain id st res).pending = s.pending := (markChain_same _ _ _ _).pending
@[simp] theorem markChain_allocs (s : State) (id : Nat) (st : Status) (res : List Byte) : (s.markChain id st res).mem.allocs = s.mem.allocs := (markChain_same _ _ _ _).allocs
@[simp] theorem markChain_reserves (s : State) (id : Nat) (st : Status) (res : List Byte) : (s.markChain id st res).mem.reserves = s.mem.reserves := (markChain_same _ _ _ _).reserves

/-! ### settled -/
@[simp] theorem settled_pins (s : State) : (s.settled).pins = s.pins := (settled_same _).pins
@[simp] theorem settled_boot (s : State) : (s.settled).boot = s.boot := (settled_same _).boot
@[simp] theorem settled_grid (s : State) : (s.settled).grid = s.grid := (settled_same _).grid
@[simp] theorem settled_tmr (s : State) : (s.settled).tmr = s.tmr := (settled_same _).tmr
@[simp] theorem settled_jobs (s : State) : (s.settled).jobs = s.jobs := (settled_same _).jobs
@[simp] theorem settled_ctxs (s : State) : (s.settled).ctxs = s.ctxs := (settled_same _).ctxs
@[simp] theorem settled_moves (s : State) : (s.settled).moves = s.moves := (settled_same _).moves
@[simp] theorem settled_fab (s : State) : (s.settled).fab = s.fab := (settled_same _).fab
@[simp] theorem settled_link (s : State) : (s.settled).link = s.link := (settled_same _).link
@[simp] theorem settled_pwr (s : State) : (s.settled).pwr = s.pwr := (settled_same _).pwr
@[simp] theorem settled_therm (s : State) : (s.settled).therm = s.therm := (settled_same _).therm
@[simp] theorem settled_side (s : State) : (s.settled).side = s.side := (settled_same _).side
@[simp] theorem settled_pending (s : State) : (s.settled).pending = s.pending := (settled_same _).pending
@[simp] theorem settled_allocs (s : State) : (s.settled).mem.allocs = s.mem.allocs := (settled_same _).allocs
@[simp] theorem settled_reserves (s : State) : (s.settled).mem.reserves = s.mem.reserves := (settled_same _).reserves

/-! ### finish -/
@[simp] theorem finish_pins (s : State) (id : Nat) (st : Status) (res : List Byte) : (s.finish id st res).pins = s.pins := (finish_same _ _ _ _).pins
@[simp] theorem finish_boot (s : State) (id : Nat) (st : Status) (res : List Byte) : (s.finish id st res).boot = s.boot := (finish_same _ _ _ _).boot
@[simp] theorem finish_grid (s : State) (id : Nat) (st : Status) (res : List Byte) : (s.finish id st res).grid = s.grid := (finish_same _ _ _ _).grid
@[simp] theorem finish_tmr (s : State) (id : Nat) (st : Status) (res : List Byte) : (s.finish id st res).tmr = s.tmr := (finish_same _ _ _ _).tmr
@[simp] theorem finish_jobs (s : State) (id : Nat) (st : Status) (res : List Byte) : (s.finish id st res).jobs = s.jobs := (finish_same _ _ _ _).jobs
@[simp] theorem finish_ctxs (s : State) (id : Nat) (st : Status) (res : List Byte) : (s.finish id st res).ctxs = s.ctxs := (finish_same _ _ _ _).ctxs
@[simp] theorem finish_moves (s : State) (id : Nat) (st : Status) (res : List Byte) : (s.finish id st res).moves = s.moves := (finish_same _ _ _ _).moves
@[simp] theorem finish_fab (s : State) (id : Nat) (st : Status) (res : List Byte) : (s.finish id st res).fab = s.fab := (finish_same _ _ _ _).fab
@[simp] theorem finish_link (s : State) (id : Nat) (st : Status) (res : List Byte) : (s.finish id st res).link = s.link := (finish_same _ _ _ _).link
@[simp] theorem finish_pwr (s : State) (id : Nat) (st : Status) (res : List Byte) : (s.finish id st res).pwr = s.pwr := (finish_same _ _ _ _).pwr
@[simp] theorem finish_therm (s : State) (id : Nat) (st : Status) (res : List Byte) : (s.finish id st res).therm = s.therm := (finish_same _ _ _ _).therm
@[simp] theorem finish_side (s : State) (id : Nat) (st : Status) (res : List Byte) : (s.finish id st res).side = s.side := (finish_same _ _ _ _).side
@[simp] theorem finish_pending (s : State) (id : Nat) (st : Status) (res : List Byte) : (s.finish id st res).pending = s.pending := (finish_same _ _ _ _).pending
@[simp] theorem finish_allocs (s : State) (id : Nat) (st : Status) (res : List Byte) : (s.finish id st res).mem.allocs = s.mem.allocs := (finish_same _ _ _ _).allocs
@[simp] theorem finish_reserves (s : State) (id : Nat) (st : Status) (res : List Byte) : (s.finish id st res).mem.reserves = s.mem.reserves := (finish_same _ _ _ _).reserves

/-! ### finishAll -/
@[simp] theorem finishAll_pins (s : State) (l : List (Nat × Status × List Byte)) : (s.finishAll l).pins = s.pins := (finishAll_same _ _).pins
@[simp] theorem finishAll_boot (s : State) (l : List (Nat × Status × List Byte)) : (s.finishAll l).boot = s.boot := (finishAll_same _ _).boot
@[simp] theorem finishAll_grid (s : State) (l : List (Nat × Status × List Byte)) : (s.finishAll l).grid = s.grid := (finishAll_same _ _).grid
@[simp] theorem finishAll_tmr (s : State) (l : List (Nat × Status × List Byte)) : (s.finishAll l).tmr = s.tmr := (finishAll_same _ _).tmr
@[simp] theorem finishAll_jobs (s : State) (l : List (Nat × Status × List Byte)) : (s.finishAll l).jobs = s.jobs := (finishAll_same _ _).jobs
@[simp] theorem finishAll_ctxs (s : State) (l : List (Nat × Status × List Byte)) : (s.finishAll l).ctxs = s.ctxs := (finishAll_same _ _).ctxs
@[simp] theorem finishAll_moves (s : State) (l : List (Nat × Status × List Byte)) : (s.finishAll l).moves = s.moves := (finishAll_same _ _).moves
@[simp] theorem finishAll_fab (s : State) (l : List (Nat × Status × List Byte)) : (s.finishAll l).fab = s.fab := (finishAll_same _ _).fab
@[simp] theorem finishAll_link (s : State) (l : List (Nat × Status × List Byte)) : (s.finishAll l).link = s.link := (finishAll_same _ _).link
@[simp] theorem finishAll_pwr (s : State) (l : List (Nat × Status × List Byte)) : (s.finishAll l).pwr = s.pwr := (finishAll_same _ _).pwr
@[simp] theorem finishAll_therm (s : State) (l : List (Nat × Status × List Byte)) : (s.finishAll l).therm = s.therm := (finishAll_same _ _).therm
@[simp] theorem finishAll_side (s : State) (l : List (Nat × Status × List Byte)) : (s.finishAll l).side = s.side := (finishAll_same _ _).side
@[simp] theorem finishAll_pending (s : State) (l : List (Nat × Status × List Byte)) : (s.finishAll l).pending = s.pending := (finishAll_same _ _).pending
@[simp] theorem finishAll_allocs (s : State) (l : List (Nat × Status × List Byte)) : (s.finishAll l).mem.allocs = s.mem.allocs := (finishAll_same _ _).allocs
@[simp] theorem finishAll_reserves (s : State) (l : List (Nat × Status × List Byte)) : (s.finishAll l).mem.reserves = s.mem.reserves := (finishAll_same _ _).reserves

/-! ### started -/
@[simp] theorem started_pins (s : State) (r : CmdRec) : (s.started r).pins = s.pins := (started_same _ _).pins
@[simp] theorem started_boot (s : State) (r : CmdRec) : (s.started r).boot = s.boot := (started_same _ _).boot
@[simp] theorem started_grid (s : State) (r : CmdRec) : (s.started r).grid = s.grid := (started_same _ _).grid
@[simp] theorem started_tmr (s : State) (r : CmdRec) : (s.started r).tmr = s.tmr := (started_same _ _).tmr
@[simp] theorem started_jobs (s : State) (r : CmdRec) : (s.started r).jobs = s.jobs := (started_same _ _).jobs
@[simp] theorem started_ctxs (s : State) (r : CmdRec) : (s.started r).ctxs = s.ctxs := (started_same _ _).ctxs
@[simp] theorem started_moves (s : State) (r : CmdRec) : (s.started r).moves = s.moves := (started_same _ _).moves
@[simp] theorem started_fab (s : State) (r : CmdRec) : (s.started r).fab = s.fab := (started_same _ _).fab
@[simp] theorem started_link (s : State) (r : CmdRec) : (s.started r).link = s.link := (started_same _ _).link
@[simp] theorem started_pwr (s : State) (r : CmdRec) : (s.started r).pwr = s.pwr := (started_same _ _).pwr
@[simp] theorem started_therm (s : State) (r : CmdRec) : (s.started r).therm = s.therm := (started_same _ _).therm
@[simp] theorem started_side (s : State) (r : CmdRec) : (s.started r).side = s.side := (started_same _ _).side
@[simp] theorem started_pending (s : State) (r : CmdRec) : (s.started r).pending = s.pending := (started_same _ _).pending
@[simp] theorem started_allocs (s : State) (r : CmdRec) : (s.started r).mem.allocs = s.mem.allocs := (started_same _ _).allocs
@[simp] theorem started_reserves (s : State) (r : CmdRec) : (s.started r).mem.reserves = s.mem.reserves := (started_same _ _).reserves

/-! ### takeIn -/
@[simp] theorem takeIn_pins (s : State) (i : Instr) (e : Env) (st : Option Status) : (s.takeIn i e st).pins = s.pins := (takeIn_same _ _ _ _).pins
@[simp] theorem takeIn_boot (s : State) (i : Instr) (e : Env) (st : Option Status) : (s.takeIn i e st).boot = s.boot := (takeIn_same _ _ _ _).boot
@[simp] theorem takeIn_grid (s : State) (i : Instr) (e : Env) (st : Option Status) : (s.takeIn i e st).grid = s.grid := (takeIn_same _ _ _ _).grid
@[simp] theorem takeIn_tmr (s : State) (i : Instr) (e : Env) (st : Option Status) : (s.takeIn i e st).tmr = s.tmr := (takeIn_same _ _ _ _).tmr
@[simp] theorem takeIn_jobs (s : State) (i : Instr) (e : Env) (st : Option Status) : (s.takeIn i e st).jobs = s.jobs := (takeIn_same _ _ _ _).jobs
@[simp] theorem takeIn_ctxs (s : State) (i : Instr) (e : Env) (st : Option Status) : (s.takeIn i e st).ctxs = s.ctxs := (takeIn_same _ _ _ _).ctxs
@[simp] theorem takeIn_moves (s : State) (i : Instr) (e : Env) (st : Option Status) : (s.takeIn i e st).moves = s.moves := (takeIn_same _ _ _ _).moves
@[simp] theorem takeIn_fab (s : State) (i : Instr) (e : Env) (st : Option Status) : (s.takeIn i e st).fab = s.fab := (takeIn_same _ _ _ _).fab
@[simp] theorem takeIn_link (s : State) (i : Instr) (e : Env) (st : Option Status) : (s.takeIn i e st).link = s.link := (takeIn_same _ _ _ _).link
@[simp] theorem takeIn_pwr (s : State) (i : Instr) (e : Env) (st : Option Status) : (s.takeIn i e st).pwr = s.pwr := (takeIn_same _ _ _ _).pwr
@[simp] theorem takeIn_therm (s : State) (i : Instr) (e : Env) (st : Option Status) : (s.takeIn i e st).therm = s.therm := (takeIn_same _ _ _ _).therm
@[simp] theorem takeIn_side (s : State) (i : Instr) (e : Env) (st : Option Status) : (s.takeIn i e st).side = s.side := (takeIn_same _ _ _ _).side
@[simp] theorem takeIn_pending (s : State) (i : Instr) (e : Env) (st : Option Status) : (s.takeIn i e st).pending = s.pending := (takeIn_same _ _ _ _).pending
@[simp] theorem takeIn_allocs (s : State) (i : Instr) (e : Env) (st : Option Status) : (s.takeIn i e st).mem.allocs = s.mem.allocs := (takeIn_same _ _ _ _).allocs
@[simp] theorem takeIn_reserves (s : State) (i : Instr) (e : Env) (st : Option Status) : (s.takeIn i e st).mem.reserves = s.mem.reserves := (takeIn_same _ _ _ _).reserves

end Sys2Proof.Machine
end

