-- ==== Sys2Proof/Laws/Commands.lean ====
section
/-! SUPPORT. Starting a command: what `command` answers for a command that stands ready, and what the start of a command
leaves alone. -/

namespace Sys2Proof.Machine

/-- The record found for a command holds that command. -/
theorem fetched_cmd {s : State} {i : Instr} {e : Env} {r : CmdRec} (h : s.fetched? i e = some r) :
    r.cmd = i ∧ r.env.q = e.q ∧ r.phase = .fetched := by
  have := List.find?_some h
  simp at this
  exact ⟨this.2, this.1.1, this.1.2⟩

/-- A ready command whose length is not zero starts its own effect. -/
theorem command_ready {s : State} {i : Instr} {e : Env} {r : CmdRec} (h : Ready s i e r) (chk : State → Option Status)
    (zero : State → Bool) (start : Nat → State → State) (hz : zero s = false) :
    command i e chk zero start s = .next (start r.id (s.started r)) := by
  have hw := h.works
  have hs := h.stage
  have hr := h.record
  have ho := h.order
  have hb := h.bound
  have hh := h.held
  have hc := (fetched_cmd hr).1
  unfold command
  simp [hw, hr, State.when, ho, State.startCmd, hs, hz, hb, hc, hh, State.started]

/-- A ready command whose length is zero completes OK_EMPTY (R54). -/
theorem command_zero {s : State} {i : Instr} {e : Env} {r : CmdRec} (h : Ready s i e r) (chk : State → Option Status)
    (zero : State → Bool) (start : Nat → State → State) (hz : zero s = true) :
    command i e chk zero start s = .next ((s.started r).finish r.id .okEmpty) := by
  have hw := h.works
  have hs := h.stage
  have hr := h.record
  have ho := h.order
  unfold command
  simp [hw, hr, State.when, ho, State.startCmd, hs, hz, State.started]

/-- A command answered by the ROM as well starts at stage 8 and at stage 9. -/
theorem command_rom {s : State} {i : Instr} {e : Env} {r : CmdRec} (hw : s.working = true)
    (hr : s.fetched? i e = some r) (ho : s.startable r = true) (hb : s.boundOk r = true)
    (hh : s.addrsHeld i = true) (hi : r.cmd = i) (hrom : romAnswers (opcodeOf i) = true) (chk : State → Option Status)
    (zero : State → Bool) (start : Nat → State → State) :
    command i e chk zero start s =
      .next (if zero s then (s.started r).finish r.id .okEmpty else start r.id (s.started r)) := by
  unfold command
  cases hz : zero s <;> simp [hw, hr, State.when, ho, State.startCmd, hi, hrom, hb, hh, State.started]

/-- A command that arrives with a failing check only enters and completes. -/
theorem command_refused {s : State} {i : Instr} {e : Env} {p : QPair} (h : Arriving s i e p) (chk : State → Option Status)
    (zero : State → Bool) (start : Nat → State → State) {st : Status} (hst : s.fetchStatus (opcodeOf i) e (chk s) = some st)
    (hf : (s.takeIn i e (some st)).fetched? i e = none) :
    command i e chk zero start s = .next (s.takeIn i e (some st)) := by
  unfold command
  simp [h.works, h.fresh, h.room, hst, hf]

/-! ### What trace, event and the start of a command leave of the health block and of the draws -/

@[simp] theorem trace_free (s : State) (b o : Nat) (d : List Byte) : (s.trace b o d).free = s.free := by
  unfold State.trace
  dsimp only
  split
  · split <;> rfl
  · rfl

@[simp] theorem trace_evc (s : State) (b o : Nat) (d : List Byte) : (s.trace b o d).evc = s.evc := by
  unfold State.trace
  dsimp only
  split
  · split <;> rfl
  · rfl

@[simp] theorem started_evc (s : State) (r : CmdRec) : (s.started r).evc = s.evc := trace_evc _ _ _ _

@[simp] theorem trace_cxl (s : State) (b o : Nat) (d : List Byte) : (s.trace b o d).cxl = s.cxl := by
  unfold State.trace
  dsimp only
  split
  · split <;> rfl
  · rfl

@[simp] theorem started_cxl (s : State) (r : CmdRec) : (s.started r).cxl = s.cxl := trace_cxl _ _ _ _

@[simp] theorem trace_out (s : State) (b o : Nat) (d : List Byte) : (s.trace b o d).out = s.out := by
  unfold State.trace
  dsimp only
  split
  · split <;> rfl
  · rfl

@[simp] theorem started_out (s : State) (r : CmdRec) : (s.started r).out = s.out := trace_out _ _ _ _

@[simp] theorem started_free (s : State) (r : CmdRec) : (s.started r).free = s.free := trace_free _ _ _ _

theorem trace_q (s : State) (b o : Nat) (d : List Byte) : (s.trace b o d).q = s.q := by
  unfold State.trace
  dsimp only
  split
  · split <;> rfl
  · rfl

theorem trace_health (s : State) (b o : Nat) (d : List Byte) :
    (s.trace b o d).health = { s.health with traceSeq := (s.trace b o d).health.traceSeq } := by
  unfold State.trace
  dsimp only
  split
  · split <;> rfl
  · rfl

theorem started_q (s : State) (r : CmdRec) : (s.started r).q =
    (s.modRec r.id fun r => { r with phase := .running, launched := r.env.atTick && !launchesLater r.cmd }).q := trace_q _ _ _ _

theorem started_health (s : State) (r : CmdRec) :
    (s.started r).health = { s.health with traceSeq := (s.started r).health.traceSeq } := trace_health _ _ _ _

@[simp] theorem msix_health (s : State) (v : Nat) : (s.msix v).health = s.health := by
  unfold State.msix
  split <;> rfl

@[simp] theorem msix_evc (s : State) (v : Nat) : (s.msix v).evc = s.evc := by
  unfold State.msix
  split <;> rfl

@[simp] theorem msix_mem (s : State) (v : Nat) : (s.msix v).mem = s.mem := by
  unfold State.msix
  split <;> rfl

@[simp] theorem msix_q (s : State) (v : Nat) : (s.msix v).q = s.q := by
  unfold State.msix
  split <;> rfl

@[simp] theorem msix_free (s : State) (v : Nat) : (s.msix v).free = s.free := by
  unfold State.msix
  split <;> rfl

/-- A property that no message changes survives any number of them. -/
theorem msixes_keep {α : Type} (f : State → α) (hf : ∀ s v, f (s.msix v) = f s) (p : State → Nat → Bool) (v : State → Nat → Nat) :
    ∀ (l : List Nat) (s : State), f (l.foldl (fun s b => if p s b then s.msix (v s b) else s) s) = f s
  | [], _ => rfl
  | b :: l, s => by
    rw [List.foldl_cons, msixes_keep f hf p v l]
    split
    · exact hf _ _
    · rfl

@[simp] theorem evcSet_health (s : State) (w : Nat) (p m : U64) : (s.evcSet w p m).health = s.health := by
  unfold State.evcSet
  exact msixes_keep State.health msix_health _ (fun s b => s.evc.vector (64 * w + b)) _ _

@[simp] theorem evcSet_mem (s : State) (w : Nat) (p m : U64) : (s.evcSet w p m).mem = s.mem := by
  unfold State.evcSet
  exact msixes_keep State.mem msix_mem _ (fun s b => s.evc.vector (64 * w + b)) _ _

@[simp] theorem evcSet_q (s : State) (w : Nat) (p m : U64) : (s.evcSet w p m).q = s.q := by
  unfold State.evcSet
  exact msixes_keep State.q msix_q _ (fun s b => s.evc.vector (64 * w + b)) _ _

@[simp] theorem evcSet_free (s : State) (w : Nat) (p m : U64) : (s.evcSet w p m).free = s.free := by
  unfold State.evcSet
  exact msixes_keep State.free msix_free _ (fun s b => s.evc.vector (64 * w + b)) _ _

theorem evcSet_evc (s : State) (w : Nat) (p m : U64) : (s.evcSet w p m).evc =
    if w = 0 then { s.evc with pend0 := p &&& evcValid w, mask0 := m &&& evcValid w }
    else { s.evc with pend1 := p &&& evcValid w, mask1 := m &&& evcValid w } := by
  unfold State.evcSet
  exact msixes_keep State.evc msix_evc _ (fun s b => s.evc.vector (64 * w + b)) _ _

/-- An event changes SEEN of the health block and nothing else of it. -/
theorem event_health (s : State) (src kind : Nat) (pl : List Byte) :
    (s.event src kind pl).health = { s.health with seen := (s.event src kind pl).health.seen } := by
  unfold State.event
  dsimp only
  split <;> split <;> simp [State.edge]

@[simp] theorem event_free (s : State) (src kind : Nat) (pl : List Byte) : (s.event src kind pl).free = s.free := by
  unfold State.event
  dsimp only
  split <;> split <;> simp [State.edge]

@[simp] theorem event_q (s : State) (src kind : Nat) (pl : List Byte) : (s.event src kind pl).q = s.q := by
  unfold State.event
  dsimp only
  split <;> split <;> simp [State.edge]

theorem journal_health (s : State) (op q st : Nat) (d : List Byte) :
    (s.journal op q st d).health = { s.health with seen := (s.journal op q st d).health.seen } := by
  unfold State.journal
  dsimp only
  exact event_health _ _ _ _

@[simp] theorem journal_free (s : State) (op q st : Nat) (d : List Byte) : (s.journal op q st d).free = s.free := by
  unfold State.journal
  simp

@[simp] theorem trace_corrected (s : State) (b o : Nat) (d : List Byte) : (s.trace b o d).health.corrected = s.health.corrected := by
  rw [trace_health]
@[simp] theorem started_corrected (s : State) (r : CmdRec) : (s.started r).health.corrected = s.health.corrected := by
  rw [started_health]
@[simp] theorem event_corrected (s : State) (src kind : Nat) (pl : List Byte) : (s.event src kind pl).health.corrected = s.health.corrected := by
  rw [event_health]
@[simp] theorem journalAction_corrected (s : State) (c : Nat) (o : List Byte) : (s.journalAction c o).health.corrected = s.health.corrected := by
  unfold State.journalAction
  rw [journal_health]
@[simp] theorem trace_katInterval (s : State) (b o : Nat) (d : List Byte) : (s.trace b o d).health.katInterval = s.health.katInterval := by
  rw [trace_health]
@[simp] theorem started_katInterval (s : State) (r : CmdRec) : (s.started r).health.katInterval = s.health.katInterval := by
  rw [started_health]
@[simp] theorem event_katInterval (s : State) (src kind : Nat) (pl : List Byte) : (s.event src kind pl).health.katInterval = s.health.katInterval := by
  rw [event_health]
@[simp] theorem journalAction_katInterval (s : State) (c : Nat) (o : List Byte) : (s.journalAction c o).health.katInterval = s.health.katInterval := by
  unfold State.journalAction
  rw [journal_health]
@[simp] theorem trace_rounds (s : State) (b o : Nat) (d : List Byte) : (s.trace b o d).health.rounds = s.health.rounds := by
  rw [trace_health]
@[simp] theorem started_rounds (s : State) (r : CmdRec) : (s.started r).health.rounds = s.health.rounds := by
  rw [started_health]
@[simp] theorem event_rounds (s : State) (src kind : Nat) (pl : List Byte) : (s.event src kind pl).health.rounds = s.health.rounds := by
  rw [event_health]
@[simp] theorem journalAction_rounds (s : State) (c : Nat) (o : List Byte) : (s.journalAction c o).health.rounds = s.health.rounds := by
  unfold State.journalAction
  rw [journal_health]
@[simp] theorem trace_ddrS (s : State) (b o : Nat) (d : List Byte) : (s.trace b o d).health.ddrS = s.health.ddrS := by
  rw [trace_health]
@[simp] theorem started_ddrS (s : State) (r : CmdRec) : (s.started r).health.ddrS = s.health.ddrS := by
  rw [started_health]
@[simp] theorem event_ddrS (s : State) (src kind : Nat) (pl : List Byte) : (s.event src kind pl).health.ddrS = s.health.ddrS := by
  rw [event_health]
@[simp] theorem journalAction_ddrS (s : State) (c : Nat) (o : List Byte) : (s.journalAction c o).health.ddrS = s.health.ddrS := by
  unfold State.journalAction
  rw [journal_health]
@[simp] theorem trace_hbmS (s : State) (b o : Nat) (d : List Byte) : (s.trace b o d).health.hbmS = s.health.hbmS := by
  rw [trace_health]
@[simp] theorem started_hbmS (s : State) (r : CmdRec) : (s.started r).health.hbmS = s.health.hbmS := by
  rw [started_health]
@[simp] theorem event_hbmS (s : State) (src kind : Nat) (pl : List Byte) : (s.event src kind pl).health.hbmS = s.health.hbmS := by
  rw [event_health]
@[simp] theorem journalAction_hbmS (s : State) (c : Nat) (o : List Byte) : (s.journalAction c o).health.hbmS = s.health.hbmS := by
  unfold State.journalAction
  rw [journal_health]
@[simp] theorem trace_wear (s : State) (b o : Nat) (d : List Byte) : (s.trace b o d).health.wear = s.health.wear := by
  rw [trace_health]
@[simp] theorem started_wear (s : State) (r : CmdRec) : (s.started r).health.wear = s.health.wear := by
  rw [started_health]
@[simp] theorem event_wear (s : State) (src kind : Nat) (pl : List Byte) : (s.event src kind pl).health.wear = s.health.wear := by
  rw [event_health]
@[simp] theorem journalAction_wear (s : State) (c : Nat) (o : List Byte) : (s.journalAction c o).health.wear = s.health.wear := by
  unfold State.journalAction
  rw [journal_health]
@[simp] theorem trace_eol (s : State) (b o : Nat) (d : List Byte) : (s.trace b o d).health.eol = s.health.eol := by
  rw [trace_health]
@[simp] theorem started_eol (s : State) (r : CmdRec) : (s.started r).health.eol = s.health.eol := by
  rw [started_health]
@[simp] theorem event_eol (s : State) (src kind : Nat) (pl : List Byte) : (s.event src kind pl).health.eol = s.health.eol := by
  rw [event_health]
@[simp] theorem journalAction_eol (s : State) (c : Nat) (o : List Byte) : (s.journalAction c o).health.eol = s.health.eol := by
  unfold State.journalAction
  rw [journal_health]
@[simp] theorem trace_sramCe (s : State) (b o : Nat) (d : List Byte) : (s.trace b o d).health.sramCe = s.health.sramCe := by
  rw [trace_health]
@[simp] theorem started_sramCe (s : State) (r : CmdRec) : (s.started r).health.sramCe = s.health.sramCe := by
  rw [started_health]
@[simp] theorem event_sramCe (s : State) (src kind : Nat) (pl : List Byte) : (s.event src kind pl).health.sramCe = s.health.sramCe := by
  rw [event_health]
@[simp] theorem journalAction_sramCe (s : State) (c : Nat) (o : List Byte) : (s.journalAction c o).health.sramCe = s.health.sramCe := by
  unfold State.journalAction
  rw [journal_health]
@[simp] theorem trace_sramUe (s : State) (b o : Nat) (d : List Byte) : (s.trace b o d).health.sramUe = s.health.sramUe := by
  rw [trace_health]
@[simp] theorem started_sramUe (s : State) (r : CmdRec) : (s.started r).health.sramUe = s.health.sramUe := by
  rw [started_health]
@[simp] theorem event_sramUe (s : State) (src kind : Nat) (pl : List Byte) : (s.event src kind pl).health.sramUe = s.health.sramUe := by
  rw [event_health]
@[simp] theorem journalAction_sramUe (s : State) (c : Nat) (o : List Byte) : (s.journalAction c o).health.sramUe = s.health.sramUe := by
  unfold State.journalAction
  rw [journal_health]
@[simp] theorem trace_hbm (s : State) (b o : Nat) (d : List Byte) : (s.trace b o d).health.hbm = s.health.hbm := by
  rw [trace_health]
@[simp] theorem started_hbm (s : State) (r : CmdRec) : (s.started r).health.hbm = s.health.hbm := by
  rw [started_health]
@[simp] theorem event_hbm (s : State) (src kind : Nat) (pl : List Byte) : (s.event src kind pl).health.hbm = s.health.hbm := by
  rw [event_health]
@[simp] theorem journalAction_hbm (s : State) (c : Nat) (o : List Byte) : (s.journalAction c o).health.hbm = s.health.hbm := by
  unfold State.journalAction
  rw [journal_health]
@[simp] theorem trace_ddr (s : State) (b o : Nat) (d : List Byte) : (s.trace b o d).health.ddr = s.health.ddr := by
  rw [trace_health]
@[simp] theorem started_ddr (s : State) (r : CmdRec) : (s.started r).health.ddr = s.health.ddr := by
  rw [started_health]
@[simp] theorem event_ddr (s : State) (src kind : Nat) (pl : List Byte) : (s.event src kind pl).health.ddr = s.health.ddr := by
  rw [event_health]
@[simp] theorem journalAction_ddr (s : State) (c : Nat) (o : List Byte) : (s.journalAction c o).health.ddr = s.health.ddr := by
  unfold State.journalAction
  rw [journal_health]
@[simp] theorem trace_katFail (s : State) (b o : Nat) (d : List Byte) : (s.trace b o d).health.katFail = s.health.katFail := by
  rw [trace_health]
@[simp] theorem started_katFail (s : State) (r : CmdRec) : (s.started r).health.katFail = s.health.katFail := by
  rw [started_health]
@[simp] theorem event_katFail (s : State) (src kind : Nat) (pl : List Byte) : (s.event src kind pl).health.katFail = s.health.katFail := by
  rw [event_health]
@[simp] theorem journalAction_katFail (s : State) (c : Nat) (o : List Byte) : (s.journalAction c o).health.katFail = s.health.katFail := by
  unfold State.journalAction
  rw [journal_health]
@[simp] theorem trace_sieve (s : State) (b o : Nat) (d : List Byte) : (s.trace b o d).health.sieve = s.health.sieve := by
  rw [trace_health]
@[simp] theorem started_sieve (s : State) (r : CmdRec) : (s.started r).health.sieve = s.health.sieve := by
  rw [started_health]
@[simp] theorem event_sieve (s : State) (src kind : Nat) (pl : List Byte) : (s.event src kind pl).health.sieve = s.health.sieve := by
  rw [event_health]
@[simp] theorem journalAction_sieve (s : State) (c : Nat) (o : List Byte) : (s.journalAction c o).health.sieve = s.health.sieve := by
  unfold State.journalAction
  rw [journal_health]
@[simp] theorem trace_remaps (s : State) (b o : Nat) (d : List Byte) : (s.trace b o d).health.remaps = s.health.remaps := by
  rw [trace_health]
@[simp] theorem started_remaps (s : State) (r : CmdRec) : (s.started r).health.remaps = s.health.remaps := by
  rw [started_health]
@[simp] theorem event_remaps (s : State) (src kind : Nat) (pl : List Byte) : (s.event src kind pl).health.remaps = s.health.remaps := by
  rw [event_health]
@[simp] theorem journalAction_remaps (s : State) (c : Nat) (o : List Byte) : (s.journalAction c o).health.remaps = s.health.remaps := by
  unfold State.journalAction
  rw [journal_health]
@[simp] theorem trace_ddrDay (s : State) (b o : Nat) (d : List Byte) : (s.trace b o d).health.ddrDay = s.health.ddrDay := by
  rw [trace_health]
@[simp] theorem started_ddrDay (s : State) (r : CmdRec) : (s.started r).health.ddrDay = s.health.ddrDay := by
  rw [started_health]
@[simp] theorem event_ddrDay (s : State) (src kind : Nat) (pl : List Byte) : (s.event src kind pl).health.ddrDay = s.health.ddrDay := by
  rw [event_health]
@[simp] theorem journalAction_ddrDay (s : State) (c : Nat) (o : List Byte) : (s.journalAction c o).health.ddrDay = s.health.ddrDay := by
  unfold State.journalAction
  rw [journal_health]
@[simp] theorem trace_hbmDay (s : State) (b o : Nat) (d : List Byte) : (s.trace b o d).health.hbmDay = s.health.hbmDay := by
  rw [trace_health]
@[simp] theorem started_hbmDay (s : State) (r : CmdRec) : (s.started r).health.hbmDay = s.health.hbmDay := by
  rw [started_health]
@[simp] theorem event_hbmDay (s : State) (src kind : Nat) (pl : List Byte) : (s.event src kind pl).health.hbmDay = s.health.hbmDay := by
  rw [event_health]
@[simp] theorem journalAction_hbmDay (s : State) (c : Nat) (o : List Byte) : (s.journalAction c o).health.hbmDay = s.health.hbmDay := by
  unfold State.journalAction
  rw [journal_health]
@[simp] theorem trace_hbmDue (s : State) (b o : Nat) (d : List Byte) : (s.trace b o d).health.hbmDue = s.health.hbmDue := by
  rw [trace_health]
@[simp] theorem started_hbmDue (s : State) (r : CmdRec) : (s.started r).health.hbmDue = s.health.hbmDue := by
  rw [started_health]
@[simp] theorem event_hbmDue (s : State) (src kind : Nat) (pl : List Byte) : (s.event src kind pl).health.hbmDue = s.health.hbmDue := by
  rw [event_health]
@[simp] theorem journalAction_hbmDue (s : State) (c : Nat) (o : List Byte) : (s.journalAction c o).health.hbmDue = s.health.hbmDue := by
  unfold State.journalAction
  rw [journal_health]
@[simp] theorem trace_hbmBase (s : State) (b o : Nat) (d : List Byte) : (s.trace b o d).health.hbmBase = s.health.hbmBase := by
  rw [trace_health]
@[simp] theorem started_hbmBase (s : State) (r : CmdRec) : (s.started r).health.hbmBase = s.health.hbmBase := by
  rw [started_health]
@[simp] theorem event_hbmBase (s : State) (src kind : Nat) (pl : List Byte) : (s.event src kind pl).health.hbmBase = s.health.hbmBase := by
  rw [event_health]
@[simp] theorem journalAction_hbmBase (s : State) (c : Nat) (o : List Byte) : (s.journalAction c o).health.hbmBase = s.health.hbmBase := by
  unfold State.journalAction
  rw [journal_health]
@[simp] theorem trace_ddrBase (s : State) (b o : Nat) (d : List Byte) : (s.trace b o d).health.ddrBase = s.health.ddrBase := by
  rw [trace_health]
@[simp] theorem started_ddrBase (s : State) (r : CmdRec) : (s.started r).health.ddrBase = s.health.ddrBase := by
  rw [started_health]
@[simp] theorem event_ddrBase (s : State) (src kind : Nat) (pl : List Byte) : (s.event src kind pl).health.ddrBase = s.health.ddrBase := by
  rw [event_health]
@[simp] theorem journalAction_ddrBase (s : State) (c : Nat) (o : List Byte) : (s.journalAction c o).health.ddrBase = s.health.ddrBase := by
  unfold State.journalAction
  rw [journal_health]
@[simp] theorem trace_katAt (s : State) (b o : Nat) (d : List Byte) : (s.trace b o d).health.katAt = s.health.katAt := by
  rw [trace_health]
@[simp] theorem started_katAt (s : State) (r : CmdRec) : (s.started r).health.katAt = s.health.katAt := by
  rw [started_health]
@[simp] theorem event_katAt (s : State) (src kind : Nat) (pl : List Byte) : (s.event src kind pl).health.katAt = s.health.katAt := by
  rw [event_health]
@[simp] theorem journalAction_katAt (s : State) (c : Nat) (o : List Byte) : (s.journalAction c o).health.katAt = s.health.katAt := by
  unfold State.journalAction
  rw [journal_health]
@[simp] theorem trace_selftest (s : State) (b o : Nat) (d : List Byte) : (s.trace b o d).health.selftest = s.health.selftest := by
  rw [trace_health]
@[simp] theorem started_selftest (s : State) (r : CmdRec) : (s.started r).health.selftest = s.health.selftest := by
  rw [started_health]
@[simp] theorem event_selftest (s : State) (src kind : Nat) (pl : List Byte) : (s.event src kind pl).health.selftest = s.health.selftest := by
  rw [event_health]
@[simp] theorem journalAction_selftest (s : State) (c : Nat) (o : List Byte) : (s.journalAction c o).health.selftest = s.health.selftest := by
  unfold State.journalAction
  rw [journal_health]
@[simp] theorem trace_hours (s : State) (b o : Nat) (d : List Byte) : (s.trace b o d).health.hours = s.health.hours := by
  rw [trace_health]
@[simp] theorem started_hours (s : State) (r : CmdRec) : (s.started r).health.hours = s.health.hours := by
  rw [started_health]
@[simp] theorem event_hours (s : State) (src kind : Nat) (pl : List Byte) : (s.event src kind pl).health.hours = s.health.hours := by
  rw [event_health]
@[simp] theorem journalAction_hours (s : State) (c : Nat) (o : List Byte) : (s.journalAction c o).health.hours = s.health.hours := by
  unfold State.journalAction
  rw [journal_health]
@[simp] theorem trace_traceBase (s : State) (b o : Nat) (d : List Byte) : (s.trace b o d).health.traceBase = s.health.traceBase := by
  rw [trace_health]
@[simp] theorem started_traceBase (s : State) (r : CmdRec) : (s.started r).health.traceBase = s.health.traceBase := by
  rw [started_health]
@[simp] theorem event_traceBase (s : State) (src kind : Nat) (pl : List Byte) : (s.event src kind pl).health.traceBase = s.health.traceBase := by
  rw [event_health]
@[simp] theorem journalAction_traceBase (s : State) (c : Nat) (o : List Byte) : (s.journalAction c o).health.traceBase = s.health.traceBase := by
  unfold State.journalAction
  rw [journal_health]
@[simp] theorem trace_traceSize (s : State) (b o : Nat) (d : List Byte) : (s.trace b o d).health.traceSize = s.health.traceSize := by
  rw [trace_health]
@[simp] theorem started_traceSize (s : State) (r : CmdRec) : (s.started r).health.traceSize = s.health.traceSize := by
  rw [started_health]
@[simp] theorem event_traceSize (s : State) (src kind : Nat) (pl : List Byte) : (s.event src kind pl).health.traceSize = s.health.traceSize := by
  rw [event_health]
@[simp] theorem journalAction_traceSize (s : State) (c : Nat) (o : List Byte) : (s.journalAction c o).health.traceSize = s.health.traceSize := by
  unfold State.journalAction
  rw [journal_health]
@[simp] theorem trace_traceMask (s : State) (b o : Nat) (d : List Byte) : (s.trace b o d).health.traceMask = s.health.traceMask := by
  rw [trace_health]
@[simp] theorem started_traceMask (s : State) (r : CmdRec) : (s.started r).health.traceMask = s.health.traceMask := by
  rw [started_health]
@[simp] theorem event_traceMask (s : State) (src kind : Nat) (pl : List Byte) : (s.event src kind pl).health.traceMask = s.health.traceMask := by
  rw [event_health]
@[simp] theorem journalAction_traceMask (s : State) (c : Nat) (o : List Byte) : (s.journalAction c o).health.traceMask = s.health.traceMask := by
  unfold State.journalAction
  rw [journal_health]

@[simp] theorem started_working (s : State) (r : CmdRec) : (s.started r).working = s.working := by
  simp [State.working, State.alive]

@[simp] theorem started_running (s : State) (r : CmdRec) : (s.started r).running = s.running := by
  simp [State.running]

theorem Ready.running {s : State} {i : Instr} {e : Env} {r : CmdRec} (h : Ready s i e r) : s.running = true := by
  simp [State.running, h.works, h.stage]

/-! ### Addresses of a command that starts -/

/-- The start of a command leaves what its addresses name. -/
theorem started_heldAddr (s : State) (r : CmdRec) (e : Env) (a n : Nat) (rd wr : Bool) :
    (s.started r).heldAddr e a n rd wr = s.heldAddr e a n rd wr := by
  simp [State.heldAddr, State.gaHeld, State.translate, State.rangeOk, State.room, State.ctx?]

/-- Every address parameter of a ready command has its key when the command starts. -/
theorem Ready.heldAddr {s : State} {i : Instr} {e e' : Env} {r : CmdRec} (h : Ready s i e' r) (he : envOf i = some e)
    {x : Nat × Nat × Bool × Bool} (hx : x ∈ addrsOf i) (h0 : x.2.1 ≠ 0) :
    ((s.started r).heldAddr e x.1 x.2.1 x.2.2.1 x.2.2.2).isSome = true := by
  rw [started_heldAddr]
  have := h.held
  simp only [State.addrsHeld, he, Option.all_some, List.all_eq_true] at this
  simpa [h0] using this x hx

end Sys2Proof.Machine
end

