-- ==== Sys2Proof/Laws/Memory.lean ====
section
/-! SUPPORT. The laws of memory: a byte written reads back, the others read as before, and every operation that writes
bytes keeps the canonical form. -/

namespace Sys2Proof.Machine

/-! ### One byte in a list of cells -/

/-- A cell before a well-formed list: its byte is one to be listed, every later address is higher, the rest is well
formed. -/
theorem cellsWf_cons (a : Nat) (b : Byte) (cs : List Host.Cell) :
    cellsWf ((a, b) :: cs) = true ↔ b ≠ unlisted a ∧ (∀ c ∈ cs, a < c.1) ∧ cellsWf cs = true := by
  induction cs generalizing a b with
  | nil => simp [cellsWf]
  | cons c cs ih =>
    obtain ⟨x, y⟩ := c
    simp only [cellsWf, Bool.and_eq_true, bne_iff_ne, decide_eq_true_eq, List.mem_cons, forall_eq_or_imp]
    constructor
    · rintro ⟨⟨h1, h2⟩, h3⟩
      exact ⟨h1, ⟨h2, fun d hd => h2.trans (((ih x y).mp h3).2.1 d hd)⟩, h3⟩
    · rintro ⟨h1, ⟨h2, -⟩, h3⟩
      exact ⟨⟨h1, h2⟩, h3⟩

/-- The addresses of a list after one byte is set are those before it and that byte's. -/
theorem setCell_mem {cs : List Host.Cell} {k : Nat} {v : Byte} {c : Host.Cell} (h : c ∈ setCell cs k v) :
    c ∈ cs ∨ c = (k, v) := by
  induction cs with
  | nil =>
    unfold setCell at h
    split at h <;> simp_all
  | cons d cs ih =>
    obtain ⟨a, b⟩ := d
    unfold setCell at h
    split at h
    · split at h <;> simp_all
      tauto
    · split at h
      · split at h <;> simp_all
        tauto
      · rcases List.mem_cons.mp h with h | h
        · simp_all
        · rcases ih h with h | h <;> simp_all

/-- Setting a byte keeps the canonical form. -/
theorem setCell_wf {cs : List Host.Cell} (h : cellsWf cs = true) (k : Nat) (v : Byte) : cellsWf (setCell cs k v) = true := by
  induction cs with
  | nil =>
    unfold setCell
    split <;> simp_all [cellsWf]
  | cons d cs ih =>
    obtain ⟨a, b⟩ := d
    obtain ⟨h1, h2, h3⟩ := (cellsWf_cons a b cs).mp h
    unfold setCell
    split
    · rename_i hk
      split
      · exact h
      · refine (cellsWf_cons _ _ _).mpr ⟨‹_›, ?_, h⟩
        intro c hc
        rcases List.mem_cons.mp hc with rfl | hc
        · exact hk
        · exact hk.trans (h2 c hc)
    · split
      · subst k
        split
        · exact h3
        · exact (cellsWf_cons _ _ _).mpr ⟨‹_›, h2, h3⟩
      · refine (cellsWf_cons _ _ _).mpr ⟨h1, ?_, ih h3⟩
        intro c hc
        rcases setCell_mem hc with hc | rfl
        · exact h2 c hc
        · simp only
          omega

/-- An address below every listed one is not listed. -/
theorem getCell_below {cs : List Host.Cell} {k : Nat} (h : ∀ c ∈ cs, k < c.1) : getCell cs k = none := by
  cases cs with
  | nil => rfl
  | cons d cs =>
    have := h d (by simp)
    unfold getCell
    split <;> first | omega | simp_all

/-- A byte set reads back. -/
theorem setCell_get {cs : List Host.Cell} (h : cellsWf cs = true) (k : Nat) (v : Byte) :
    (getCell (setCell cs k v) k).getD (unlisted k) = v := by
  induction cs with
  | nil =>
    unfold setCell
    split <;> simp_all [getCell]
  | cons d cs ih =>
    obtain ⟨a, b⟩ := d
    obtain ⟨h1, h2, h3⟩ := (cellsWf_cons a b cs).mp h
    unfold setCell
    split
    · rename_i hk
      split
      · rw [getCell_below]
        · simp_all
        · intro c hc
          rcases List.mem_cons.mp hc with rfl | hc
          · exact hk
          · exact hk.trans (h2 c hc)
      · simp [getCell]
    · split
      · subst k
        split
        · rw [getCell_below h2]
          simp_all
        · simp [getCell]
      · have ha : ¬ a = k := by omega
        have hl : ¬ k < a := by omega
        simp [getCell, ha, hl, ih h3]

/-- Setting a byte leaves every other byte. -/
theorem setCell_other {cs : List Host.Cell} (h : cellsWf cs = true) {k x : Nat} (v : Byte) (hx : x ≠ k) :
    getCell (setCell cs k v) x = getCell cs x := by
  induction cs with
  | nil =>
    unfold setCell
    split
    · rfl
    · have : ¬ k = x := fun h => hx h.symm
      simp [getCell, this]
  | cons d cs ih =>
    obtain ⟨a, b⟩ := d
    obtain ⟨h1, h2, h3⟩ := (cellsWf_cons a b cs).mp h
    have hkx : ¬ k = x := fun h => hx h.symm
    unfold setCell
    split
    · rename_i hk
      split
      · rfl
      · by_cases hl : x < k
        · have : ¬ a = x := by omega
          simp [getCell, hkx, hl, this, hl.trans hk]
        · simp [getCell, hkx, hl]
    · split
      · subst k
        split
        · by_cases hl : x < a
          · rw [getCell_below (fun c hc => hl.trans (h2 c hc))]
            simp [getCell, hkx, hl]
          · simp [getCell, hkx, hl]
        · simp [getCell, hkx]
      · simp only [getCell, ih h3]

/-! ### Several bytes -/

theorem setCells_wf {cs : List Host.Cell} (h : cellsWf cs = true) (k : Nat) (bs : List Byte) :
    cellsWf (setCells cs k bs) = true := by
  induction bs generalizing cs k with
  | nil => exact h
  | cons b bs ih => exact ih (setCell_wf h k b) (k + 1)

theorem setCells_other {cs : List Host.Cell} (h : cellsWf cs = true) {k x : Nat} {bs : List Byte}
    (hx : x < k ∨ k + bs.length ≤ x) : getCell (setCells cs k bs) x = getCell cs x := by
  induction bs generalizing cs k with
  | nil => rfl
  | cons b bs ih =>
    simp only [List.length_cons] at hx
    rw [setCells, ih (setCell_wf h k b) (by omega), setCell_other h b (by omega)]

theorem setCells_get {cs : List Host.Cell} (h : cellsWf cs = true) (k : Nat) (bs : List Byte) {i : Nat}
    (hi : i < bs.length) : (getCell (setCells cs k bs) (k + i)).getD (unlisted (k + i)) = bs.getD i 0 := by
  induction bs generalizing cs k i with
  | nil => simp at hi
  | cons b bs ih =>
    cases i with
    | zero =>
      simp only [Nat.add_zero, setCells, List.getD_cons_zero]
      rw [setCells_other (setCell_wf h k b) (by omega), setCell_get h]
    | succ i =>
      have := ih (setCell_wf h k b) (k + 1) (i := i) (by simpa using hi)
      rw [show k + (i + 1) = k + 1 + i by omega, setCells, this]
      simp

/-! ### The operations of the machine -/

/-- With no failed stack and no line that the host refuses, every byte reaches memory. -/
theorem reaching_all {s : State} (h : s.grid.stackFailed = []) (hd : s.mem.hostDead = []) (k : Nat) (bs : List Byte) :
    s.reaching k bs = bs := by
  simp [State.reaching, h, hd]

@[simp] theorem reaching_length (s : State) (k : Nat) (bs : List Byte) : (s.reaching k bs).length = bs.length := by
  unfold State.reaching
  split <;> simp

/-- Writing bytes keeps the canonical form of memory. -/
theorem writeBytes_wf {s : State} (h : s.mem.wf = true) (k : Nat) (bs : List Byte) : (s.writeBytes k bs).mem.wf = true :=
  setCells_wf h k _

@[simp] theorem markPoison_wf (s : State) (ks : List Nat) : (s.markPoison ks).mem.wf = s.mem.wf := rfl

/-- Writing bytes with marks keeps the canonical form of memory. -/
theorem writeMarked_wf {s : State} (h : s.mem.wf = true) (k : Nat) (bs : List Byte) (offs : List Nat) :
    (s.writeMarked k bs offs).mem.wf = true := writeBytes_wf h k bs

/-- Copying a range keeps the canonical form of memory. -/
theorem copyRange_wf {s : State} (h : s.mem.wf = true) (src dst len : Nat) : (s.copyRange src dst len).mem.wf = true :=
  writeMarked_wf h _ _ _

@[simp] theorem markPoison_readByte (s : State) (ks : List Nat) (a : Nat) : (s.markPoison ks).readByte a = s.readByte a := rfl

@[simp] theorem writeMarked_readByte (s : State) (k : Nat) (bs : List Byte) (offs : List Nat) (a : Nat) :
    (s.writeMarked k bs offs).readByte a = (s.writeBytes k bs).readByte a := rfl

/-- Without a changed word and without a failed stack an access finds nothing to correct or count. -/
theorem touch_clean {s : State} (hu : s.mem.upsets = []) (h : s.grid.stackFailed = []) (k len : Nat) : s.touch k len = s := by
  simp [State.touch, State.deadIn, hu, h]

theorem touchAll_clean {s : State} (hu : s.mem.upsets = []) (h : s.grid.stackFailed = []) (rs : List (Nat × Nat)) :
    s.touchAll rs = s := by
  induction rs with
  | nil => rfl
  | cons r rs ih => rw [State.touchAll, List.foldl_cons, touch_clean hu h]; exact ih

/-- A write leaves every byte outside its range. -/
theorem writeBytes_other {s : State} (h : s.mem.wf = true) {k a : Nat} {bs : List Byte} (ha : a < k ∨ k + bs.length ≤ a) :
    (s.writeBytes k bs).readByte a = s.readByte a := by
  simp only [State.readByte, Memory.byte, State.writeBytes]
  rw [setCells_other h (by simpa using ha)]

/-- A byte that reaches memory reads back. -/
theorem writeBytes_read {s : State} (h : s.mem.wf = true) (k : Nat) (bs : List Byte) {i : Nat} (hi : i < bs.length) :
    (s.writeBytes k bs).readByte (k + i) = (s.reaching k bs).getD i 0 :=
  setCells_get h k _ (by simpa using hi)

/-- Inserting into an ascending list adds exactly the one member. -/
theorem mem_insSorted (l : List Nat) (x y : Nat) : y ∈ insSorted l x ↔ y = x ∨ y ∈ l := by
  induction l with
  | nil => simp [insSorted]
  | cons z l ih =>
    unfold insSorted
    split
    · simp
    · split
      · simp_all
      · simp [ih]
        tauto

/-- The poison marks after marking: those before and the words of the given bytes outside host memory. -/
theorem markPoison_mem (s : State) (ks : List Nat) (w : Nat) :
    w ∈ (s.markPoison ks).mem.poison ↔ w ∈ s.mem.poison ∨ ∃ k ∈ ks, spaceOf k ≠ 3 ∧ w = eccBase k := by
  simp only [State.markPoison]
  generalize s.mem.poison = ps
  induction ks generalizing ps with
  | nil => simp
  | cons k ks ih =>
    rw [List.foldl_cons, ih]
    split
    · simp_all
    · rename_i hk
      simp only [mem_insSorted, List.mem_cons, exists_eq_or_imp]
      tauto

end Sys2Proof.Machine
end

