-- ==== Sys2Proof/WellFormed.lean ====
section
/-! DEFINITION. Well-formed commands: every number a row carries names something the module has. -/

namespace Sys2Proof

/-- Virtual core index: row below 80, column below 320 (R11). -/
def coreIndexOk (c : Nat) : Bool := c < 25600

def portOk (p : Nat) : Bool := p < 12

/-- A tile header's fields fit Table 4.3. -/
def TileHdr.wf (h : TileHdr) : Bool :=
  h.kind < 16 && h.fmt < 16 && h.scheme < 4 && h.vrows ≤ 32 && h.vcols ≤ 32 && h.epoch < 65536 && h.stream < 4096 &&
    h.seq < 2 ^ 32 && h.trow < 65536 && h.tcol < 65536 && h.cscale < 2 ^ 32 && h.aux < 2 ^ 32 && h.ctx < 1024 && h.crc < 2 ^ 32

def Element.wf (e : Element) : Bool := e.kind < 6 && e.dir < 4

def BootResult.wf (r : BootResult) : Bool := r.dimms.length == 16 && r.elements.all Element.wf &&
  r.stackIds.length == 24 && r.stackIds.all fun x => x.length == 16

/-- What the operands of a command must satisfy for it to name things the module has. -/
def Instr.wf : Instr → Bool
  | .bootStageComplete r => r.wf
  | .timeMarker port _ _ _ => port.toNat < 12
  | .retrain port _ => port.toNat < 12
  | .mma core _ | .mmaBt core _ | .vec1 core | .vec2 core | .vecacc core | .red core | .cvt core | .emit core
  | .move core | .drop core | .oneos core | .jump core | .ldc core | .loop core | .ticket core | .phase core
  | .eosout core | .endStep core | .wavefrontSourceSwitch core | .coreSwitch core => coreIndexOk core
  | .ticketRequest r rail _ => coreIndexOk r && rail < 64
  | .ticketReply r => coreIndexOk r
  | .ldb core eng | .streamLoop core eng | .stride core eng | .shape core eng | .fmt core eng | .gather core eng
  | .wait core eng | .signal core eng | .run core eng | .runIteration core eng | .streamJump core eng
  | .endp core eng => coreIndexOk core && eng < 4
  | .tileSend core oq => coreIndexOk core && oq < 4
  | .tileArrival _ rx hop => (rx.all fun t => t.hdr.wf) && hop.wf
  | .katRound target _ unit => unit < 4 && (match target with | .core c => coreIndexOk c | .unit k d => k < 6 && d < 4)
  | .lbistCoreRun die row pos _ => die < 4 && row < 80 && pos < 82
  | .sramScrub c _ _ => c.die < 4 && c.row < 80 && c.pos < 82
  | .hbmPatrolScrub stack pc _ _ _ _ => stack < 24 && pc < 32
  | .hbmRowRepair stack pc _ _ _ => stack < 24 && pc < 32
  | .ddrPatrolScrub ch _ _ => ch < 16
  | .coreRemap die row pos => die < 4 && row < 80 && pos < 82
  | .laneFailure port lane => portOk port && lane < 9
  | .farEndIdle port => portOk port
  | .linkTrainingComplete port lanes eye => portOk port && lanes.all (· < 9) && eye < 256
  | .identityTimeout port => portOk port
  | .wearMeasure st rf => st.length == 256 && rf.length == 256
  | .identity port _ _ _ _ _ => portOk port
  | .acknowledgement port _ _ _ => portOk port
  | .credit port _ _ _ _ => portOk port
  | .timeProbe port _ _ _ _ _ _ => portOk port
  | .ackTimer port => portOk port
  | .creditFrameTimer port vc _ => portOk port && vc.toNat < 3
  | .packetReceive port _ got => portOk port && got.bytes.length < 65556 && got.marks.all (· < got.bytes.length)
  | .vcStall port vc => portOk port && vc < 3
  | .heldPacketDiscard port => portOk port
  | .hostMemWrite _ _ data => data.length == 64
  | .evictionOrRestoreEnd job => job < 16
  | _ => true

end Sys2Proof
end

