-- ==== Sys2Proof/Tests/Slice0.lean ====
section
/-! SUPPORT. The model's own tests: ill-formed commands, single steps, and for each statement a state and operands that
meet its hypotheses. -/

namespace Sys2Proof.Machine

/-! ### Small states -/

/-- Queue pair 0, enabled, with rings of 16 entries in host memory. -/
def tPair : QPair := { QPair.reset 0 with
  enable := true, sqLog2 := 4, cqLog2 := 4, phase := true, sqBase := 0x3000000001000, cqBase := 0x3000000002000 }

/-- The module at stage 9 with queue pair 0 enabled. -/
def tUp : State := { State.reset with
  boot := { State.reset.boot with stage := 9 }, grid := { State.reset.grid with valid := true },
  q := { State.reset.q with pairs := [tPair] } }

/-- Count and time passed both at `n`. -/
def State.tCount (s : State) (n : Nat) : State := s.modTmr fun t => { t with count := n, elapsed := n }

/-- Follower of queue pair 0 without context, tick and fence. -/
def tEnv : Env := ⟨0, false, false, false, false, false, false, 0x3FF, 7, 0⟩

/-- The record of a command that stands fetched alone. -/
def tRecOf (i : Instr) (e : Env) : CmdRec := ⟨1, i, e, none, none, false, false, false, .fetched, none⟩

def State.tWith (s : State) (i : Instr) (e : Env) : State :=
  { s with q := { s.q with recs := [tRecOf i e], nextRec := 2 } }

/-- The same with a running command whose transfer is `x`. -/
def State.tRun (s : State) (i : Instr) (x : Option Xfer) : State :=
  { s with q := { s.q with recs := [{ tRecOf i tEnv with phase := .running, xfer := x }], nextRec := 2 } }

/-- Every command can stand ready. -/
theorem test_ready (s : State) (i : Instr) (e : Env) (hw : s.working = true) (h9 : s.boot.stage = 9)
    (hh : s.addrsHeld i = true := by first | rfl | decide +kernel) : Ready (s.tWith i e) i e (tRecOf i e) where
  works := hw
  stage := h9
  record := by simp [State.fetched?, State.tWith, tRecOf]
  order := by
    simp [State.startable, State.orderOk, State.predecessor, State.recsOf, State.fenceOk, State.tWith, tRecOf]
  bound := by simp [State.boundOk, tRecOf]
  held := hh

theorem test_up_ready (i : Instr) (hh : tUp.addrsHeld i = true := by first | rfl | decide +kernel) :
    Ready (tUp.tWith i tEnv) i tEnv (tRecOf i tEnv) := test_ready _ _ _ (by decide) (by decide) hh

/-! ### Witnesses: the machine and the command plane -/

theorem test_witness_StepRunsFront :
    (∃ (s : State) (c : Instr) (rest : List Instr), s.pending = c :: rest) ∧ ∃ s : State, s.pending = [] :=
  ⟨⟨{ State.reset with pending := [.timerTick] }, .timerTick, [], rfl⟩, State.reset, rfl⟩

theorem test_witness_Steps : ∃ s t : State,
    s.mem.wf = true ∧ s.evc.wf = true ∧ s.pending = .timerTick :: [] ∧ step s = .next t :=
  ⟨{ State.reset with boot := { State.reset.boot with trivet := true }, pending := [.timerTick] }, _, by decide, by decide, rfl, rfl⟩

theorem test_witness_WriteThenRead : ∃ (s : State) (k : Nat) (bs : List Byte),
    s.mem.wf = true ∧ s.grid.stackFailed = [] ∧ s.mem.hostDead = [] ∧ (∃ i, i < bs.length) ∧ ∃ a, a < k ∨ k + bs.length ≤ a :=
  ⟨State.reset, 5, [1], by decide, rfl, rfl, ⟨0, by decide⟩, ⟨6, by decide⟩⟩

theorem test_witness_CompletionEntry : ∃ (s : State) (r : CmdRec) (p : QPair) (st : Status) (res : List Byte),
    s.q.recs = [r] ∧ s.q.pairs = [p] ∧ r.env.q.toNat = p.id ∧ p.id ≠ 0 ∧ r.late = false ∧ r.env.chain = false ∧
      s.journalDetail r.cmd st res = none ∧ s.health.traceMask = 0 ∧ p.closing = none ∧ p.vecEn = false ∧
      p.cqOwn = true ∧ s.mem.hostRefuses (keyOf (p.cqBase.toNat + 32 * p.cqTail)) 32 = false ∧
      s.rangeOk (keyOf (p.cqBase.toNat + 32 * p.cqTail)) 32 = true ∧
      spaceOf (keyOf (p.cqBase.toNat + 32 * p.cqTail)) ∈ [0, 1, 3] :=
  let e : Env := { tEnv with q := 5 }
  let p : QPair := { tPair with id := 5 }
  ⟨{ tUp with q := { tUp.q with pairs := [p], recs := [tRecOf (.nop e) e] } }, tRecOf (.nop e) e, p, .ok, [],
    rfl, rfl, rfl, by decide, rfl, rfl, rfl, rfl, rfl, rfl, rfl, by decide, by decide, by decide⟩

theorem test_witness_CompletionFrame : ∃ (s : State) (a : Nat), s.mem.wf = true ∧ s.grid.stackFailed = [] ∧ s.untold a := by
  refine ⟨State.reset, 2 ^ 60, by decide, rfl, ?_, ?_, ?_⟩
  · rintro p hp ⟨n, hn, h1, h2⟩
    have : p = QPair.reset 0 := by simpa [State.reset] using hp
    subst this
    have hn : n < 1 ∨ n = 0 := by simpa [QPair.reset, QPair.cqDepth] using hn
    have : n = 0 := by omega
    subst this
    revert h2
    decide
  · rintro ⟨n, hn, -⟩
    simp [State.reset] at hn
  · rintro ⟨n, hn, -⟩
    simp [State.reset] at hn

theorem test_witness_ArrivingCommands :
    (∃ (i : Instr) (p : QPair), Arriving tUp i tEnv p ∧ tUp.envelopeOk (opcodeOf i) tEnv ∧ tEnv.atTick = false ∧
      tEnv.fence = false ∧ tUp.recsOf tEnv.q.toNat = [] ∧ tUp.boot.stage = 9 ∧ tEnv.ctx = 0x3FF) ∧
    ∃ (s : State), s.mem.wf = true ∧ s.grid.stackFailed = [] :=
  ⟨⟨.nop tEnv, tPair, ⟨by decide, by decide, by decide, by decide, by decide⟩, by unfold State.envelopeOk; decide, rfl, rfl,
    by decide, rfl, rfl⟩, tUp, by decide, rfl⟩

theorem test_witness_QueueFamily :
    (∃ (s : State) (q : U64) (d : U32) (job : Byte) (r : CmdRec),
      Ready s (.qpCreate tEnv q q d d 0 false job) tEnv r ∧
        (job = 0xFF ∨ (job.toNat < 16 ∧ (s.started r).jobTakesPair job.toNat = true)) ∧ (s.started r).freeQueueIds ≠ []) ∧
    (∃ (s : State) (qid : U16) (p : QPair) (r : CmdRec), Ready s (.qpDestroy tEnv qid) tEnv r ∧ 1 ≤ qid.toNat ∧
      qid.toNat < 2048 ∧ qid ≠ tEnv.q ∧ (s.started r).pair? qid.toNat = some p ∧ p.closing = none ∧ s.q.barriers = []) ∧
    (∃ (s : State) (members : U16) (r : CmdRec), Ready s (.barrier tEnv 3 members) tEnv r ∧ members ≠ 0 ∧
      s.q.barriers = [] ∧ tEnv.atTick = false ∧ tEnv.lateRun = false ∧ tEnv.launch = 0) ∧
    ∃ (s : State) (first maxn : U32) (r : CmdRec) (j : Journal) (js : List Journal),
      Ready s (.journalRead tEnv 0x3000000000000 first maxn) tEnv r ∧ maxn ≠ 0 ∧
        ((s.started r).q.journal.filter fun x => max first.toNat 1 ≤ x.index).take maxn.toNat = j :: js := by
  refine ⟨⟨_, 0, 16, 0xFF, _, test_up_ready _, .inl rfl, ?_⟩, ⟨_, 2047, { tPair with id := 2047 }, _,
    test_ready { tUp with q := { tUp.q with pairs := [tPair, { tPair with id := 2047 }] } } _ _ (by decide) (by decide),
    by decide, by decide, by decide, by decide, rfl, rfl⟩, ⟨_, 1, _, test_up_ready _, by decide, rfl, rfl, rfl, rfl⟩,
    ⟨_, 0, 1, _, ⟨1, 0, 0, 0, 0, [], 0⟩, [], test_ready { tUp with q := { tUp.q with journal := [⟨1, 0, 0, 0, 0, [], 0⟩] } } _ _
      (by decide) (by decide), by decide, by decide⟩⟩
  intro h
  have : (1 : Nat) ∈ (([] : List Nat)) := h ▸ (by
    refine List.mem_filter.mpr ⟨List.mem_range.mpr (by decide), by decide⟩)
  simp at this

theorem test_witness_HostQueueRows :
    (∃ (s : State) (q : U16) (v : U64) (p : QPair), s.working = true ∧ q.toNat < 2048 ∧ s.pair? q.toNat = some p ∧
      p.error = false ∧ p.enable = true ∧ v.toNat % 65536 < 2 ^ p.sqLog2 ∧ p.headOk (v.toNat % 65536) = true) ∧
    (∃ (s : State) (q : U16) (v : U64) (p : QPair), s.working = true ∧ q.toNat < 2048 ∧ s.pair? q.toNat = some p ∧
      p.error = false ∧ p.enable = true ∧ ¬ v.toNat % 65536 < 2 ^ p.sqLog2 ∧ p.headOk (v.toNat % 65536) = false) ∧
    (∃ (s : State) (q : U16) (p : QPair), s.working = true ∧ q.toNat < 2048 ∧ s.pair? q.toNat = some p ∧ p.error = true) ∧
    (∃ (s : State) (q : U16), s.working = true ∧ q.toNat < 2048 ∧ s.pair? q.toNat = none) ∧
    (∃ (s : State) (ctrl : U64) (p : QPair), s.working = true ∧ s.pair? 0 = some p ∧ (∀ x ∈ s.q.pairs, x.id = 0 → x = p) ∧
      p.enable = false ∧ s.pair0Valid (p.withCtrl ctrl) = true) ∧
    (∃ (s : State) (ctrl : U64) (p : QPair), s.working = true ∧ s.pair? 0 = some p ∧ (∀ x ∈ s.q.pairs, x.id = 0 → x = p) ∧
      p.enable = false ∧ s.pair0Valid (p.withCtrl ctrl) = false ∧ 16 ≤ (p.withCtrl ctrl).job) ∧
    ∃ (s : State) (p : QPair), s.working = true ∧ s.pair? 0 = some p ∧ (∀ x ∈ s.q.pairs, x.id = 0 → x = p) ∧ p.enable = true :=
  let off : QPair := { tPair with enable := false }
  ⟨⟨tUp, 0, 0, tPair, by decide, by decide, by decide, rfl, rfl, by decide, by decide⟩,
   ⟨tUp, 0, 16, tPair, by decide, by decide, by decide, rfl, rfl, by decide, by decide⟩,
   ⟨{ tUp with q := { tUp.q with pairs := [{ tPair with error := true }] } }, 0, { tPair with error := true },
     by decide, by decide, by decide, rfl⟩,
   ⟨tUp, 2047, by decide, by decide, by decide⟩,
   ⟨{ tUp with q := { tUp.q with pairs := [off] } }, 0xFF00000404, off, by decide, by decide, by decide, rfl, by decide⟩,
   ⟨{ tUp with q := { tUp.q with pairs := [off] } }, 0xFF00000000, off, by decide, by decide, by decide, rfl, by decide, by decide⟩,
   ⟨tUp, tPair, by decide, by decide, by decide, rfl⟩⟩

/-! ### Witnesses: host accesses, memory commands, timer -/

theorem test_witness_EventRegisters : ∃ (s : State) (v : U64), s.working = true ∧
    v &&& ~~~s.evc.mask0 &&& ~~~(s.evc.pend0 &&& ~~~s.evc.mask0) = 0 ∧
    ∃ (t : State) (b : Nat), t.working = true ∧ b < 64 ∧ 0x8000000000000000 = t.evc.pend0 ||| (1#64 <<< b) ∧
      t.evc.pend0.getLsbD b = false ∧ t.evc.mask0.getLsbD b = false ∧ t.msixSendable (t.evc.vector b) = true ∧
      ∀ x ∈ [((0 : BitVec 1), 63), (1, 12)], ∃ (q : State) (v : U64), q.working = true ∧ q.evc.wf = true ∧
        (q.evc.pend x.1.toNat).getLsbD x.2 = true ∧ (q.evc.mask x.1.toNat).getLsbD x.2 = true ∧
        v = q.evc.mask x.1.toNat &&& ~~~(1#64 <<< x.2) ∧ q.msixSendable (q.evc.vector (64 * x.1.toNat + x.2)) = true :=
  ⟨tUp, 0, by decide, by decide,
   { tUp with evc := { tUp.evc with mask0 := 0 },
              cxl := { tUp.cxl with enable := true, entries := List.replicate 64 ⟨0, 0, 0⟩ } }, 63, by decide, by decide,
   by decide, by decide, by decide, by decide, fun x h => ⟨{ tUp with
     evc := { tUp.evc with mask0 := 0x8000000000000000, pend0 := 0x8000000000000000, mask1 := 0x1000, pend1 := 0x1000 }
     cxl := { tUp.cxl with enable := true, entries := List.replicate 64 ⟨0, 0, 0⟩ } }, _, by
       fin_cases h <;> exact ⟨by decide, by decide, by decide, by decide, rfl, by decide⟩⟩⟩

theorem test_witness_EventRecords :
    (∃ (s : State) (src : Nat), src < 77 ∧ s.evc.seqs.length = 77 ∧ s.mem.wf = true ∧ s.grid.stackFailed = [] ∧
      s.evc.ringN = 0) ∧
    ∃ (s : State) (src : Nat), src < 77 ∧ s.evc.seqs.length = 77 ∧ s.mem.wf = true ∧ s.grid.stackFailed = [] ∧
      s.slotOk (s.evc.slot src (s.evc.nextSeq src)) = true :=
  ⟨⟨tUp, 76, by decide, by decide, by decide, rfl, rfl⟩,
   { tUp with evc := { tUp.evc with ringN := 16 } }, 76, by decide, by decide, by decide, rfl, by decide⟩

theorem test_witness_HostMemory :
    (∃ (s : State), s.alive = true ∧ s.boot.trivet = false ∧ s.cxl.hdmLen.length = 2) ∧
    (∃ (s : State) (d : BitVec 1) (off : U64) (data : List Byte), s.alive = true ∧ s.boot.trivet = false ∧
      8 ≤ s.boot.stage ∧ s.cxl.hdmCommitted.getD d.toNat false = true ∧ off.toNat < hdmSize d.toNat ∧
      off.toNat % 64 = 0 ∧ data.length = 64 ∧ s.rangeOk (mkKey d.toNat off.toNat) 64 = true) ∧
    ∃ (s : State) (d : BitVec 1) (off : U64) (data : List Byte), s.alive = true ∧ s.boot.trivet = false ∧
      8 ≤ s.boot.stage ∧ s.cxl.hdmCommitted.getD d.toNat false = true ∧ off.toNat < hdmSize d.toNat ∧
      off.toNat % 64 = 0 ∧ data.length = 64 ∧ s.rangeOk (mkKey d.toNat off.toNat) 64 = false :=
  let s : State := { tUp with cxl := { tUp.cxl with hdmCommitted := [true, true] } }
  ⟨⟨tUp, by decide, by decide, by decide⟩,
   ⟨s, 0, 154618822592, zeros 64, by decide, by decide, by decide, by decide, by decide, by decide, by decide, by decide⟩,
   s, 0, 154618822656, zeros 64, by decide, by decide, by decide, by decide, by decide, by decide, by decide, by decide⟩

/-- A job with a grant of 1 MiB of HBM. -/
def tJob : Job := { num := 0, nctx := 4, nqp := 4, rects := [], grants := [(0, 2 ^ 20)], hosts := [] }

theorem test_witness_MemoryCommandsStart :
    (∃ (s : State) (r : CmdRec) (size : U64) (j : Job) (k : Nat), Ready s (.memAlloc tEnv size 0 0 12) tEnv r ∧
      (s.started r).job? 0 = some j ∧
      (s.started r).firstFit j 0 (alignUp size.toNat 4096) (max 4096 (2 ^ 12)) = some k) ∧
    (∃ (s : State) (r : CmdRec) (ga : U64) (a : Alloc), Ready s (.memFree tEnv ga) tEnv r ∧
      (s.started r).mem.allocs.find? (fun a => some a.uid == ((s.started r).rec? r.id).bind (·.alloc)) = some a ∧
      (s.started r).allocInUse a = false) ∧
    (∃ (s : State) (r : CmdRec) (src dst len : U64) (a b : Nat), Ready s (.memCopy tEnv src dst len) tEnv r ∧ len ≠ 0 ∧
      (s.started r).heldAddr tEnv src.toNat len.toNat true false = some a ∧
      (s.started r).heldAddr tEnv dst.toNat len.toNat false true = some b ∧
      (s.started r).sramBusy a len.toNat = false ∧ (s.started r).sramBusy b len.toNat = false) ∧
    (∃ (s : State) (r : CmdRec) (dst len pat : U64) (b : Nat), Ready s (.memFill tEnv dst len pat) tEnv r ∧ len ≠ 0 ∧
      (s.started r).heldAddr tEnv dst.toNat len.toNat false true = some b ∧ (s.started r).sramBusy b len.toNat = false) ∧
    ∀ desc ∈ [(0 : U64), 2], ∃ (s u : State) (r : CmdRec) (src dst len : U64) (a b : Nat),
      Ready s (.memConvert tEnv src dst len desc) tEnv r ∧
      len ≠ 0 ∧ (s.started r).heldAddr tEnv src.toNat len.toNat true false = some a ∧
      (s.started r).heldAddr tEnv dst.toNat 1 false true = some b ∧
      u = (if (Desc.of desc.toNat).mode = 2 then (s.started r).touch a 16 else s.started r) ∧ u.sramBusy a len.toNat = false ∧
      u.sramBusy b (u.convertLen (Desc.of desc.toNat) a len.toNat) = false ∧ u.unitFailed 3 (mandolineOf a b) = false := by
  refine ⟨⟨_, _, 2 ^ 20, tJob, 0, test_ready { tUp with jobs := [tJob] } _ _ (by decide) (by decide), by decide, by decide +kernel⟩,
    ⟨{ tUp with mem := { tUp.mem with allocs := [⟨1, 0, 0, 4096⟩] },
                q := { tUp.q with recs := [{ tRecOf (.memFree tEnv 0) tEnv with alloc := some 1 }] } },
      { tRecOf (.memFree tEnv 0) tEnv with alloc := some 1 }, 0, ⟨1, 0, 0, 4096⟩,
      ⟨by decide, by decide, by decide, by decide, by decide, by decide⟩, by decide, by decide⟩,
    ⟨_, _, 0, 2 ^ 20, 2 ^ 20, 0, 2 ^ 20, test_up_ready _, by decide, by decide, by decide, by decide, by decide⟩,
    ⟨_, _, 0, 1, 5, 0, test_up_ready _, by decide, by decide, by decide⟩,
    fun desc h => ⟨_, (tUp.tWith (.memConvert tEnv 0 (2 ^ 20) 64 desc) tEnv).started (tRecOf (.memConvert tEnv 0 (2 ^ 20) 64 desc) tEnv), _, 0,
      2 ^ 20, 64, 0, 2 ^ 20, test_up_ready _, by decide, by fin_cases h <;> decide, by fin_cases h <;> decide, by
        split
        · exact (touch_clean (by fin_cases h <;> decide) (by fin_cases h <;> decide) _ _).symm
        · rfl, by fin_cases h <;> decide, by fin_cases h <;> decide +kernel, by fin_cases h <;> decide⟩⟩

theorem test_witness_TransfersEnd :
    (∃ (s : State) (r : CmdRec) (src dst len : Nat), s.running = true ∧ s.rec? 1 = some r ∧ r.phase = .running ∧
      r.xfer = some (.copy src dst len) ∧ (s.touchAll [(src, len)]).xferOf 1 = some (r, .copy src dst len)) ∧
    (∃ (s : State) (r : CmdRec) (dst len : Nat) (pat : U64), s.running = true ∧ s.rec? 1 = some r ∧ r.phase = .running ∧
      r.xfer = some (.fill dst len pat)) ∧
    (∃ (s u : State) (r : CmdRec) (src dst len : Nat) (desc : U64) (o : ConvOut), s.running = true ∧ s.rec? 1 = some r ∧
      r.phase = .running ∧ r.xfer = some (.convert src dst len desc) ∧ u = s.touchAll [(src, len)] ∧
      u.xferOf 1 = some (r, .convert src dst len desc) ∧ u.unitFailed 3 (mandolineOf src dst) = false ∧
      u.runDesc desc.toNat src len = .ok o ∧ u.decodeFits r o.bytes.length = true) ∧
    ∃ (s u : State) (r : CmdRec) (src dst len : Nat) (desc : U64), s.running = true ∧ s.rec? 1 = some r ∧
      r.phase = .running ∧ r.xfer = some (.convert src dst len desc) ∧ u = s.touchAll [(src, len)] ∧
      u.xferOf 1 = some (r, .convert src dst len desc) ∧ u.unitFailed 3 (mandolineOf src dst) = true :=
  let k : State := ({ tUp with mem := { tUp.mem with allocs := [⟨1, 0, 0, 8192⟩] }, jobs := [tJob] } : State).tRun
    (.memConvert tEnv 0 4096 8 0) (some (.convert 0 4096 8 0))
  let f : State := k.modGrid fun g => { g with elements := (List.range 4).map fun d => ⟨3, d, 0⟩ }
  ⟨⟨tUp.tRun (.memCopy tEnv 0 4096 8) (some (.copy 0 4096 8)), _, 0, 4096, 8, by decide, rfl, rfl, rfl, rfl⟩,
   ⟨tUp.tRun (.memFill tEnv 0 9 5) (some (.fill 0 9 5)), _, 0, 9, 5, by decide, rfl, rfl, rfl⟩,
   ⟨k, k, _, 0, 4096, 8, 0, _, by decide, rfl, rfl, rfl, rfl, rfl, by decide, rfl, by decide⟩,
   f, f, _, 0, 4096, 8, 0, by decide, rfl, rfl, rfl, rfl, rfl, by decide⟩

theorem test_witness_CopyMovesBytes : ∃ (s : State) (src dst len i a : Nat), s.mem.wf = true ∧ s.grid.stackFailed = [] ∧
    s.mem.hostDead = [] ∧ i < len ∧ (a < dst ∨ dst + len ≤ a) ∧ spaceOf (dst + i) ≠ 3 ∧ s.mem.poisonedAt (src + i) = true :=
  ⟨{ tUp with mem := { tUp.mem with poison := [0] } }, 0, 64, 32, 31, 96, by decide, rfl, rfl, by decide, by decide, by decide,
    by decide⟩

theorem test_witness_TickAdvances :
    (∃ s : State, s.alive = true ∧ s.boot.trivet = true) ∧
    (∃ s : State, s.alive = true ∧ s.boot.trivet = false ∧ s.q.recs = [] ∧ s.q.barriers = [] ∧ s.fab.invs = [] ∧
      s.boot.stage ≠ 9 ∧ (∀ p ∈ s.q.pairs, p.closing = none ∧ (p.enable = true ∨ (p.sqHead = 0 ∧ p.cqTail = 0))) ∧
      s.tmr.lock = .unlocked) ∧
    ∃ s : State, s.alive = true ∧ s.boot.trivet = false :=
  ⟨⟨{ tUp with boot := { tUp.boot with trivet := true } }, by decide, rfl⟩,
   ⟨State.reset, by decide, rfl, rfl, rfl, rfl, by decide, by decide, rfl⟩, tUp, by decide, rfl⟩

/-- A follower in HOLDOVER with its last good marker at the limit. -/
def tHold : State := tUp.modTmr fun t => { t with
  count := 10, elapsed := 10, lock := .holdover, lastGood := some 0, limit := 10, limitNext := some 10 }

theorem test_witness_HoldoverLimit : ∃ (s : State) (n g : Nat), s.working = true ∧ s.tmr.limitNext = some n ∧
    s.tmr.role = .follower ∧ s.tmr.lock = .holdover ∧ s.tmr.lastGood = some g ∧ n < s.tmr.elapsed + 1 - g ∧
    s.q.barriers = [] :=
  ⟨tHold, 10, 0, by decide, rfl, rfl, rfl, rfl, by decide, rfl⟩

/-- A follower of master 9 with port 2 up. -/
def tFollow : State := ({ tUp with link := { tUp.link with ports := tUp.link.ports.set 2 { Port.reset with st := .up } } } :
  State).modTmr fun t => { t with named := true, master := 9, count := 4096, elapsed := 4096 }

/-- The marker of a locked module: hops, master, count (Table 2.3). -/
def tMarker (hops master count : Nat) : List Byte :=
  withCrc (leBytes 1 0x31 ++ leBytes 1 3 ++ leBytes 1 hops ++ [0] ++ leBytes 2 master ++ leBytes 2 9 ++ leBytes 8 count)

/-- The 16 bytes and the CRC of a control frame. -/
def tBody (frame : List Byte) : BitVec 128 := BitVec.ofNat 128 (fieldAt frame 0 16)
def tCrc (frame : List Byte) : U32 := BitVec.ofNat 32 (fieldAt frame 16 4)

theorem test_witness_TimerRows :
    (∃ s : State, s.running = true ∧ s.tmr.isMaster = true ∧ s.tmr.count % 1024 = 0) ∧
    (∃ (s : State) (port : BitVec 4) (body : BitVec 128) (crc : U32), s.running = true ∧ s.tmr.role = .follower ∧
      s.tmr.lock = .unlocked ∧ s.tmr.upstream = none ∧ crcGood (markerFrame body crc) = true ∧
      s.markerGood port.toNat true (Marker.of (markerFrame body crc)) = true) ∧
    (∃ (s : State) (port : BitVec 4) (body : BitVec 128) (crc : U32) (p : Port), s.running = true ∧ s.tmr.role = .follower ∧
      s.tmr.named = true ∧ s.link.ports[port.toNat]? = some p ∧ crcGood (markerFrame body crc) = true ∧
      (Marker.of (markerFrame body crc)).kind = 0x31 ∧ (Marker.of (markerFrame body crc)).master.toNat ≠ s.tmr.master) ∧
    (∃ (s : State) (u : Nat) (m : PortMark), s.running = true ∧ s.tmr.role = .follower ∧ s.tmr.upstream = some u ∧
      s.tmr.ports.find? (fun x => x.port == u) = some m ∧ m.lastGood + 2048 ≤ s.tmr.elapsed) ∧
    (∃ s : State, s.running = true ∧ s.tmr.starved = true ∧ s.tmr.limit ≠ 0) ∧
    (∃ s : State, s.running = true ∧ s.tmr.expired = true) ∧
    (∃ s : State, s.working = true ∧ s.tmr.trefPresent = true ∧ s.tmr.waits ≠ []) ∧
    (∃ s : State, s.working = true ∧ s.tmr.trefPresent = true ∧ s.tmr.waits = [] ∧ s.tmr.role = .masterRef ∧
      s.tmr.refLost = false ∧ s.tmr.loadCount = 0 ∧ s.tmr.count % 100000000 ≠ 0) ∧
    (∃ s : State, s.working = true ∧ s.tmr.trefPresent = false ∧ s.tmr.role = .masterRef ∧ s.tmr.refLost = true) ∧
    ∃ (s : State) (w : MasterWait) (ws : List MasterWait), s.working = true ∧ s.tmr.waits = w :: ws ∧
      w.start + 200000000 ≤ s.tmr.elapsed :=
  ⟨⟨tUp.modTmr fun t => { t with role := .masterFree }, by decide, by decide, by decide⟩,
   ⟨tFollow, 2, tBody (tMarker 62 9 4096), tCrc (tMarker 62 9 4096), by decide, rfl, rfl, rfl, by decide +kernel, by decide +kernel⟩,
   ⟨tFollow, 2, tBody (tMarker 0 8 0), tCrc (tMarker 0 8 0), { Port.reset with st := .up }, by decide, rfl, rfl, rfl,
     by decide +kernel, by decide +kernel, by decide +kernel⟩,
   ⟨tFollow.modTmr fun t => { t with upstream := some 2, ports := [⟨2, 1, 2048, false, 0, 0⟩] }, 2, ⟨2, 1, 2048, false, 0, 0⟩,
     by decide, rfl, rfl, rfl, by decide⟩,
   ⟨tUp.modTmr fun t => { t with lock := .locked, lastGood := some 0, elapsed := 102400 }, by decide, by decide, by decide⟩,
   ⟨tHold, by decide, by decide⟩,
   ⟨tUp.modTmr fun t => { t with waits := [⟨1, 9, 0, 0⟩] }, by decide, rfl, by decide⟩,
   ⟨tUp.modTmr fun t => { t with role := .masterRef, count := 99999999 }, by decide, rfl, rfl, rfl, rfl, rfl, by decide⟩,
   ⟨tUp.modTmr fun t => { t with role := .masterRef, refLost := true, trefPresent := false }, by decide, rfl, rfl, rfl⟩,
   tUp.modTmr fun t => { t with waits := [⟨1, 9, 0, 0⟩], elapsed := 200000000 }, ⟨1, 9, 0, 0⟩, [], by decide, rfl, by decide⟩

theorem test_witness_TimerCommands :
    (∀ role : Byte, ∃ (s : State) (r : CmdRec) (m : BitVec 12) (init : U64), Ready s (.tmrMasterSet tEnv role m init) tEnv r ∧
      s.rec? r.id = some r) ∧
    (∃ (s : State) (r : CmdRec) (slot : Byte), Ready s (.tmrAlarm tEnv slot 0 100 7) tEnv r ∧
      ∀ a ∈ s.tmr.alarms, a.slot ≠ slot.toNat) ∧
    ∃ (s : State) (slot : BitVec 4) (a : Alarm), s.working = true ∧ s.tmr.alarms = [a] ∧ a.slot = slot.toNat ∧
      a.next ≤ s.tmr.count :=
  ⟨fun _ => ⟨_, _, 4095, 0, test_up_ready _, rfl⟩, ⟨_, _, 15, test_up_ready _, by decide⟩,
   tUp.modTmr fun t => { t with alarms := [⟨15, 0, 7⟩] }, 15, ⟨15, 0, 7⟩, by decide, rfl, rfl, by decide⟩

/-! ### Witnesses: steps of a core and its engines -/

/-- What a lookup finds and satisfies. -/
theorem test_found {α : Type} {o : Option α} {p : α → Bool} (h : o.any p = true) : ∃ a, o = some a ∧ p a = true := by
  cases o with
  | none => simp at h
  | some a => exact ⟨a, rfl, by simpa using h⟩

/-- A tile of one element. -/
def tTile (kind : Nat) : Tile :=
  ⟨⟨kind, 0, 0, false, false, false, 1, 1, 1, 0, 0, 0, 0, 0, 0, 5, 0⟩, List.replicate 1024 0, []⟩

/-- One core with a step program, and a stream program for its engine 0. -/
def tImage (ws : List U64) (sw : List U32) : Image :=
  { flat := false, width := 1, dripKib := 32, stations := [⟨⟨0, 1, 0, 1⟩, 0, [1, 0xFFFF, 0xFFFF, 0xFFFF], List.replicate 8 0, 0, 0⟩],
    streams := [], programs := [.step ws, .stream sw], pool := [], rails := [⟨0, 0, 0, 1⟩], args := [] }

def tCfg (im : Image) : Cfg :=
  { handle := 1, epoch := 1, image := im, active := [0], holds := [], chains := [], degraded := [], rebuilt := [], stale := false }

/-- A resident context whose region at 0 is the core's own SRAM. -/
def tCtx (gs : List Cfg) : Ctx :=
  { id := 5, uid := 1, job := 0, regions := [⟨0, mkKey 2 (ownCoreField * 2 ^ 18), 2 ^ 18, true, true, false⟩], hostRouted := false,
    pinned := false, resident := true, weight := .loaded, shards := [], loadDigest := none, staged := [],
    stageDigest := none, adapters := [], maxVersions := [], wgt := [], verifying := false, epoch := 1, cfgs := gs,
    prefetch := [], serving := none, mirror := none, yield := [], saved := [] }

def tInv : Inv :=
  { id := 1, ctx := 5, handle := 1, epoch := 1, owner := .command 1, phase := .running, args := 0, result := 0,
    deadline := 0, waitSince := 0, launch := 0, late := false, argv := [], cores := [0], stations := [StCnt.zero],
    gated := [], plist := [], started := [], nextEntry := 0, signalled := 0, phaseTok := 0, phaseAt := none,
    poisoned := 0, poisonSeen := false, degraded := false, points := [] }

def tEngine : Engine := { Engine.fresh 1 [] with rows := 1, cols := 1, runB := 64, dbase := 4096 }

def tCoreOf (e : Engine) : Core := Core.fresh 0 (some 1) 1 1 (some 1) 0 [e] []

/-- Core 0 runs one step word and one stream instruction. -/
def tGrid (w : U64) (sw : U32) (x : Core) : State :=
  { tUp with
    jobs := [tJob], ctxs := [tCtx [tCfg (tImage [w] [sw])]]
    fab := { tUp.fab with cores := [x], invs := [tInv] } }

/-- A step word: opcode, input, pop and output masks. -/
def tWord (op ins pops outs : Nat) : U64 := BitVec.ofNat 64 (op * 2 ^ 58 + ins * 2 ^ 54 + pops * 2 ^ 50 + outs * 2 ^ 46)

/-- The core stands at a step with tiles of a kind at the heads of queues 0 and 1. -/
def tStep (w : U64) (kind : Nat) : State :=
  tGrid w 0 { tCoreOf tEngine with
    iqs := [[tTile kind], [tTile kind], [], []], loops := [3, 0, 0, 0] }

/-- The step the core stands at fires, with these tiles. -/
def tFires (s : State) (op : Nat) (ts : List Tile) : Prop := ∃ p, s.stepOf 0 op = some p ∧ (p.1.fire p.2 == .go ts) = true

theorem test_witness_CoreSteps :
    (∀ op ∈ [1, 2, 4], tFires (tStep (tWord op 3 3 0) 0) op [tTile 0, tTile 0]) ∧
    (∀ op ∈ [3, 5, 6, 7, 9, 0x0A], tFires (tStep (tWord op 1 1 (if op = 7 ∨ op = 9 then 2 else 0)) 0) op [tTile 0]) ∧
    tFires (tStep (tWord 8 0 0 1) 0) 8 [] ∧
    ∀ op ∈ [1, 9], (∃ p, (tStep (tWord op 3 3 0) 1).stepOf 0 op = some p ∧ (p.1.fire p.2 == .mismatch) = true) ∧
      ∃ p, (tStep (tWord op 4 0 0) 0).stepOf 0 op = some p ∧ (p.1.fire p.2 == .wait) = true := by
  refine ⟨?_, ?_, test_found (by decide +kernel), ?_⟩
  · intro op h
    fin_cases h <;> exact test_found (by decide +kernel)
  · intro op h
    fin_cases h <;> exact test_found (by decide +kernel)
  · intro op h
    fin_cases h <;> exact ⟨test_found (by decide +kernel), test_found (by decide +kernel)⟩

theorem test_witness_ControlSteps :
    (∃ p, (tStep (tWord 0x10 3 0 0) 1).stepOf 0 0x10 = some p ∧
      (p.2.ins.all fun q => (p.1.head q).any fun h => h.hdr.kind == 1) = true) ∧
    (∃ p, (tStep (tWord 0x10 3 0 0) 0).stepOf 0 0x10 = some p ∧
      (p.2.ins != [] && p.2.ins.all fun q => (p.1.head q).any fun h => h.hdr.kind != 1) = true) ∧
    (∀ op ∈ [0x11, 0x12, 0x14, 0x15, 0x17], ∃ p, (tStep (tWord op 0 0 0) 0).stepOf 0 op = some p ∧ (fun _ => true) p = true) ∧
    (∃ p, (tStep (tWord 0x13 0 0 0) 0).stepOf 0 0x13 = some p ∧ (p.1.x.loops.getD (p.2.imm % 4) 0 == 2 + 1) = true) ∧
    ∃ p, (tStep (tWord 0x16 0 0 3) 0).stepOf 0 0x16 = some p ∧ p.2.outs.all p.1.roomIn = true := by
  refine ⟨test_found (by decide +kernel), test_found (by decide +kernel), ?_, test_found (by decide +kernel),
    test_found (by decide +kernel)⟩
  intro op h
  fin_cases h <;> exact test_found (by decide +kernel)

/-- The core waits for a ticket of rail 0 under number 1; the rail's tags are given. -/
def tTicket (tags : List (Nat × Nat × Nat)) (reply : Option Nat) : State :=
  (tGrid (tWord 0x14 0 0 0) 0 { tCoreOf tEngine with ticket := some ⟨0, 1, reply⟩ }).modFab fun f =>
    { f with rails := [⟨1, 0, 9, tags⟩] }

theorem test_witness_Tickets :
    (∀ tags ∈ [[], [(0, 1, 8)]], ∃ t, (tTicket tags none).site 0 = some t ∧
      (t.x.ticket == some ⟨0, 1, none⟩ && t.i.id == 1 && t.im.rails[0]? == some ⟨0, 0, 0, 1⟩) = true) ∧
    (([] : List (Nat × Nat × Nat)).find? (fun g => g.1 == 0 && g.2.1 == 1) = none) ∧
    ([(0, 1, 8)].find? (fun g => g.1 == 0 && g.2.1 == 1) = some (0, 1, 8)) ∧ (tTicket [] (some 8)).fab.svc = [] ∧
    ∃ t, (tTicket [] (some 8)).site 0 = some t ∧
      (t.x.ticket.bind (·.reply) == some 8 && (t.im.stepProg? t.st.stepProg == some [tWord 0x14 0 0 0]) && t.x.pc == 0) = true := by
  refine ⟨?_, rfl, rfl, rfl, test_found (by decide +kernel)⟩
  intro tags h
  fin_cases h <;> exact test_found (by decide +kernel)

/-- The core's engine 0 stands at an instruction. -/
def tAt (sw : U32) : State := tGrid 0 sw (tCoreOf tEngine)

theorem test_witness_EngineInstructions :
    (∀ op ∈ [1, 2, 3, 4, 5, 6, 8, 9, 10, 11], ∃ p, (tAt (BitVec.ofNat 32 (op * 2 ^ 28))).instrOf 0 0 op = some p ∧
      (siLvl p.2.2 == 0 && siMode p.2.2 != 2) = true) ∧
    (∃ p, (tAt 0x14000000).instrOf 0 0 1 = some p ∧ (siLvl p.2.2 == 2) = true) ∧
    (∃ p, (tAt 0x70000000).instrOf 0 0 7 = some p ∧ (bits p.2.2 15 0 ≤ p.1.x.syncs.getD (siLvl p.2.2) 0 : Bool) = true) ∧
    (∃ p, (tAt 0x70000001).instrOf 0 0 7 = some p ∧ (bits p.2.2 15 0 ≤ p.1.x.syncs.getD (siLvl p.2.2) 0 : Bool) = false) := by
  refine ⟨?_, test_found (by decide +kernel), test_found (by decide +kernel), ?_⟩
  · intro op h
    fin_cases h <;> exact test_found (by decide +kernel)
  · obtain ⟨p, h1, h2⟩ := test_found (o := (tAt 0x70000001).instrOf 0 0 7)
      (p := fun p => !(bits p.2.2 15 0 ≤ p.1.x.syncs.getD (siLvl p.2.2) 0 : Bool)) (by decide +kernel)
    exact ⟨p, h1, by simpa using h2⟩

/-- A RUN in progress. -/
def tRunSt (mode : Nat) (idx : List Nat) : RunSt := ⟨mode, 0, 0, 0, 0, false, false, true, idx, 0, true, []⟩

def tRunning (mode : Nat) (idx : List Nat) : State :=
  tGrid 0 0x90000000 { tCoreOf { tEngine with run := some (tRunSt mode idx) } with oqs := [[tTile 0], [], [], []] }

theorem test_witness_EngineRuns :
    (∃ p, (tRunning 0 [0, 0, 0, 0, 0, 0]).engineOf 0 0 = some p ∧
      (p.2.run == some (tRunSt 0 [0, 0, 0, 0, 0, 0]) && p.2.gathers == [] && p.1.x.idx == 0 && p.1.feedRoom 0 &&
        validAt p.2.rows (p.2.tileAt (tRunSt 0 [0, 0, 0, 0, 0, 0])).1 != 0 &&
        validAt p.2.cols (p.2.tileAt (tRunSt 0 [0, 0, 0, 0, 0, 0])).2 != 0 &&
        (((tRunning 0 [0, 0, 0, 0, 0, 0]).modCore 0 fun x => { x with fed := bump x.fed 0 }).readTile p.1 0 p.2
          { tRunSt 0 [0, 0, 0, 0, 0, 0] with waited := true } 0 1 1 0).isSome) = true) ∧
    (∃ p, (tRunning 1 [0, 0, 0, 0, 0, 0]).engineOf 0 0 = some p ∧
      (p.1.x.oqs.getD 0 [] == [tTile 0] && !p.2.transposed &&
        (((tRunning 1 [0, 0, 0, 0, 0, 0]).takeOq 0 0).writeTile p.1 0 p.2
          { tRunSt 1 [0, 0, 0, 0, 0, 0] with waited := true } (tTile 0) 1 1).isSome) = true) ∧
    (∃ p, (tRunning 2 [0, 0, 0, 0, 0, 0]).engineOf 0 0 = some p ∧
      (((tRunning 2 [0, 0, 0, 0, 0, 0]).access p.1 0 p.2 (p.2.origin (tRunSt 2 [0, 0, 0, 0, 0, 0])) p.2.runB false).isSome &&
        ((tRunning 2 [0, 0, 0, 0, 0, 0]).access p.1 0 p.2 (p.2.blockDst 0) p.2.runB true).isSome) = true) ∧
    ∃ p, (tRunning 0 []).engineOf 0 0 = some p ∧ (p.2.run == some (tRunSt 0 []) && p.1.feedRoom 0) = true :=
  ⟨test_found (by decide +kernel), test_found (by decide +kernel), test_found (by decide +kernel),
    test_found (by decide +kernel)⟩

/-! ### Witnesses: fabric -/

def tChan : Chan :=
  { id := ⟨5, 1, 0, 0⟩, src := 0, srcQ := 0, dst := 0, dstQ := 1, epoch := 1, credits := 1, owed := 1, flight := [],
    nextSeq := 0, expSeq := 0, spilling := false, drip := [], hbm := [], spillCount := 0, fwd := [], link := false }

/-- Core 0 with tiles in its output queue 0 and a channel from there. -/
def tFab (w : U64) (oq : List Tile) (h : Chan) : State :=
  (tGrid w 0 { tCoreOf tEngine with oqs := [oq, [], [], []] }).modFab fun f => { f with chans := [h] }

/-- The tile of the channel's stream, with its CRC. -/
def tSent : Tile := (tTile 0).sealed

theorem test_sealed (t : Tile) : t.sealed.crcOk = true := by
  simp [Tile.crcOk, Tile.sealed, Tile.crcOf, TileHdr.bytes, Tile.body]

theorem test_witness_TileRows :
    (∃ x, (tFab 0 [tTile 0] tChan).core? 0 = some x ∧ ((x.oqs.getD 0 []).head? == some (tTile 0) &&
      (tFab 0 [tTile 0] tChan).spillChan x 0 == some tChan && credited ((tFab 0 [tTile 0] tChan).outChans x 0)) = true) ∧
    ((tFab 0 [] tChan).chan? tChan.id = some tChan ∧ 0 < tChan.owed ∧ tChan.link = false) ∧
    (tFab 0 [] { tChan with flight := [tSent] }).running = true ∧
    (∃ c g x st, (tFab 0 [] { tChan with flight := [tSent] }).ctx? 5 = some c ∧
      (tFab 0 [] { tChan with flight := [tSent] }).cfg? 5 1 = some g ∧
      (tFab 0 [] { tChan with flight := [tSent] }).core? 0 = some x ∧ x.occupant = some c.uid ∧
      (g.image.stationOf 0).bind g.image.station? = some st ∧ x.epoch = 1 ∧ x.ended = false ∧ 0 = st.iq 1 % 64) ∧
    (tSent.crcOk = true ∧ tSent.hdr.stream = 0 ∧ tSent.hdr.ctx = 5 ∧ tSent.hdr.kind = 0 ∧ tSent.hdr.epoch = 1 ∧
      tSent.hdr.seq = 0 ∧ tSent.hdr.fmt + 16 * tSent.hdr.scheme = 0) ∧
    (tFab 0 [] tChan).gatedAt tChan = none ∧
    ((tFab 0 [] tChan).modFab fun f => { f with invs := [{ tInv with gated := [0] }] }).gatedAt tChan = some (1, 0) :=
  ⟨test_found (by decide +kernel), by decide, by decide, ⟨_, _, _, _, rfl, rfl, rfl, rfl, rfl, rfl, rfl, rfl⟩, ⟨test_sealed _, by decide +kernel⟩,
    by decide +kernel, by decide +kernel⟩

/-- The producer of the channel stands at an EOSOUT whose queue is full. -/
def tFull (h : Chan) : State := tFab (tWord 8 0 0 1) [tTile 0, tTile 0, tTile 0, tTile 0, tTile 0, tTile 0, tTile 0, tTile 0] h

theorem test_takeDrip {s : State} (hu : s.mem.upsets = []) (h : s.grid.stackFailed = []) (x : Core) (im : Image) (t : Tile)
    (ch : ChanId) : (s.takeDrip x im t).2.chan? ch = s.chan? ch := by
  unfold State.takeDrip State.takeSpilled State.spillPlace State.draw
  dsimp only
  split
  · rfl
  · show State.chan? (State.touch { s with free := s.free + 1 } _ _) ch = State.chan? { s with free := s.free + 1 } ch
    rw [touch_clean (s := { s with free := s.free + 1 }) hu h]

theorem test_witness_SpillRows :
    (∃ p, (tFull { tChan with credits := 0 }).anyStep 0 = some p ∧
      (((tFull { tChan with credits := 0 }).spillChan p.1.x 0).map (·.id) == some tChan.id && p.1.blockedOn p.2 0 &&
        !credited ((tFull { tChan with credits := 0 }).outChans p.1.x 0) &&
        (tFull { tChan with credits := 0 }).consumersReady p.1.x ((tFull { tChan with credits := 0 }).outChans p.1.x 0)) = true) ∧
    (let s := tFull { tChan with credits := 0, spilling := true }
     s.imageOf 5 1 = some (tImage [tWord 8 0 0 1] [0]) ∧
     ∃ x, s.core? 0 = some x ∧ ((x.oqs.getD 0 []).head? == some (tTile 0) && (s.spillChan x 0).map (·.id) == some tChan.id &&
       !credited (s.outChans x 0) && s.dripRoom x (tImage [tWord 8 0 0 1] [0]) (tTile 0)) = true) ∧
    (∀ ts ∈ [([] : List Tile), [tTile 0]], let s := tFull { tChan with spilling := true, drip := ts }
     ((s.takeDrip (tCoreOf tEngine) (tImage [tWord 8 0 0 1] [0]) (tTile 0)).2.chan? tChan.id).isSome = true ∧
     s.imageOf 5 1 = some (tImage [tWord 8 0 0 1] [0]) ∧
     ∃ x, s.core? 0 = some x ∧ ((s.spillChan x 0).map (·.id) == some tChan.id && credited (s.outChans x 0)) = true) := by
  refine ⟨test_found (by decide +kernel), ⟨by decide +kernel, test_found (by decide +kernel)⟩, fun ts h => ?_⟩
  refine ⟨?_, ?_⟩
  · rw [test_takeDrip (by fin_cases h <;> rfl) (by fin_cases h <;> rfl)]
    fin_cases h <;> decide
  · fin_cases h <;> exact ⟨by decide +kernel, test_found (by decide +kernel)⟩

/-- A stream to three cores of one row. -/
def tTree : StreamEnt := ⟨2, 4, 0, 0, 0, 1, 1, 1, [⟨0, 1, 0xFF, false, none, none⟩]⟩

/-- An image of two stations with that stream. -/
def tTreeImage : Image :=
  { tImage [] [] with
    stations := [⟨⟨0, 1, 0, 1⟩, 0, [], List.replicate 8 0, 0, 0⟩, ⟨⟨0, 1, 1, 3⟩, 0, [], List.replicate 8 0, 0, 0⟩]
    streams := [{ tTree with treeSlots := 0xFF }] }

def tTreeCfg : Cfg := { tCfg tTreeImage with degraded := [0] }

def tTreeState : State :=
  { tUp with jobs := [{ tJob with rects := [⟨0, 1, 0, 8⟩] }], ctxs := [tCtx [tTreeCfg]] }

theorem test_witness_ServiceAndTree :
    (∀ n ∈ [1, 2], ∃ (s : State) (p : SvcPkt), s.running = true ∧ s.fab.svc.find? (fun p => p.id == 1) = some p ∧ p.repeats < 8 ∧
      s.nextService p.hop = some 1 ∧ p.pos + 1 = n ∧ p.route.length = 2) ∧
    (∃ (s : State) (p : SvcPkt), s.running = true ∧ s.fab.svc.find? (fun p => p.id == 1) = some p ∧ ¬ p.repeats < 8) ∧
    ∃ (s : State) (c : Ctx) (g g' : Cfg), s.running = true ∧ s.ctx? 5 = some c ∧ s.cfg? 5 1 = some g ∧ s.fab.invs = [] ∧
      g.degraded.contains 0 = true ∧ s.rebuiltCfg c g 0 = some g' := by
  refine ⟨fun n h => ?_,
    ⟨tUp.modFab fun f => { f with svc := [⟨1, 1, [⟨0, 0, 0⟩], 0, 8, false, 0, 0, .other⟩] }, _, by decide, rfl, by decide⟩,
    tTreeState, tCtx [tTreeCfg], tTreeCfg, ?_⟩
  · fin_cases h
    · exact ⟨tUp.modFab fun f => { f with svc := [⟨1, 1, [⟨0, 0, 0⟩, ⟨0, 1, 0⟩], 0, 7, true, 0, 0, .other⟩] }, _, by decide, rfl,
        by decide, by decide, rfl, rfl⟩
    · exact ⟨tUp.modFab fun f => { f with svc := [⟨1, 1, [⟨0, 0, 0⟩, ⟨0, 1, 0⟩], 0, 7, true, 0, 1, .other⟩] }, _, by decide, rfl,
        by decide, by decide, rfl, rfl⟩
  obtain ⟨g, hg, -⟩ := test_found (o := tTreeState.rebuiltCfg (tCtx [tTreeCfg]) tTreeCfg 0) (p := fun _ => true) (by decide +kernel)
  exact ⟨g, by decide, rfl, rfl, rfl, rfl, hg⟩

/-- Core 0 switches to configuration 2; `displaced` stood on it. -/
def tWave (displaced : List Nat) (iq0 : Nat) (iqs : List (List Tile)) : State :=
  let im : Image := { tImage [] [] with
    stations := [⟨⟨0, 1, 0, 1⟩, 0, [0xFFFF, 0xFFFF, 0xFFFF, 0xFFFF], [iq0, 0, 0, 0, 0, 0, 0, 0], 0, 0⟩] }
  { tUp with
    ctxs := [tCtx [tCfg im, { tCfg im with handle := 2, epoch := 2, active := [] }]]
    fab := { tUp.fab with
      cores := [{ Core.fresh 0 (some 1) 1 1 none 0 [] [] with fenceSent := true, iqs := iqs }]
      waves := [⟨1, 5, 2, displaced, [0], []⟩] } }

theorem test_witness_CoreSwitches :
    (let s := tWave [] 0 []
     ∃ w, s.waveOf 0 = some w ∧ (s.oldCfg w 0 == none && ((s.core? 0).bind (·.inv)) == none) = true) ∧
    (let s := tWave [1] 0 [[], [], [], []]
     ∃ w c g d st x, s.running = true ∧ s.waveOf 0 = some w ∧ s.ctx? w.ctx = some c ∧ s.cfg? w.ctx w.handle = some g ∧
       s.oldCfg w 0 = some d ∧ s.hold c d 0 = some s ∧ (d.image.stationOf 0).bind d.image.station? = some st ∧
       s.core? 0 = some x ∧ x.inv = none ∧ x.fenceSent = true ∧ (s.setCore x).coreDrained x st d.image = true ∧
       st.streamIqs = []) ∧
    (let s := tWave [1] 64 [[tTile 2], [], [], []]
     ∃ w c g d st x, s.running = true ∧ s.waveOf 0 = some w ∧ s.ctx? w.ctx = some c ∧ s.cfg? w.ctx w.handle = some g ∧
       s.oldCfg w 0 = some d ∧ s.hold c d 0 = some s ∧ (d.image.stationOf 0).bind d.image.station? = some st ∧
       s.core? 0 = some x ∧ x.inv = none ∧ x.fenceSent = true ∧ (s.setCore x).coreDrained x st d.image = true ∧
       st.streamIqs ≠ [] ∧ ∀ q ∈ st.streamIqs, ((x.iqs.getD q []).head?).any fun f => f.hdr.kind == 2) :=
  ⟨test_found (by decide +kernel),
    ⟨_, _, _, _, _, _, by decide, rfl, rfl, rfl, rfl, rfl, rfl, rfl, rfl, rfl, by decide +kernel, by decide⟩,
    ⟨_, _, _, _, _, _, by decide, rfl, rfl, rfl, rfl, rfl, rfl, rfl, rfl, rfl, by decide +kernel, by decide, by decide +kernel⟩⟩

/-! ### Witnesses: jobs, contexts, configurations, invocations -/

/-- Memory that holds a byte string at a key. -/
def tMem (k : Nat) (bs : List Byte) : Memory :=
  ⟨(bs.mapIdx fun i b => (k + i, b)).filter fun c => c.2 != 0, [], [], [], 0, 0, 0, [], [], [], 9⟩

def State.tMem (s : State) (k : Nat) (bs : List Byte) : State := { s with mem := Machine.tMem k bs }

def tEnv5 : Env := { tEnv with ctx := 5 }

/-- Context 5 also reaches 1 MiB of HBM at 2^20, and may be evicted to host memory. -/
def tCtxOf (f : Ctx → Ctx) : Ctx :=
  let c := tCtx []
  f { c with regions := c.regions ++ [⟨2 ^ 20, 0, 2 ^ 20, true, true, false⟩, ⟨2 ^ 32, 3 * 2 ^ 48, 2 ^ 20, true, true, true⟩] }

def tJob1 : Job := { tJob with rects := [⟨0, 1, 0, 8⟩] }

/-- One job with that context. -/
def tOne (f : Ctx → Ctx) : State := { tUp with jobs := [tJob1], ctxs := [tCtxOf f] }

/-- A job descriptor: one context, a rectangle of eight cores, 1 MiB of HBM. -/
def tJobBytes : List Byte :=
  leBytes 4 0x31424F4A ++ leBytes 2 1 ++ leBytes 2 0 ++ zeros 8 ++ leBytes 4 1 ++ zeros 44 ++
    (leBytes 1 0 ++ leBytes 1 1 ++ leBytes 2 0 ++ leBytes 2 8 ++ zeros 2)

/-- A region entry: the core's own SRAM at 0. -/
def tRegionBytes : List Byte :=
  leBytes 8 0 ++ leBytes 8 (mkKey 2 (ownCoreField * 2 ^ 18)) ++ leBytes 8 (2 ^ 18) ++ leBytes 1 3 ++ zeros 7

theorem test_witness_Jobs :
    (∃ (s u : State) (r : CmdRec) (k : Nat) (bs : List Byte) (gs : List (Nat × Nat)), Ready s (.jobOpen tEnv 0 1 72) tEnv r ∧
      k = (s.started r).keyAt tEnv 0 72 true false ∧ u = (s.started r).touch k 72 ∧ bs = u.readBytes k 72 ∧
      u.jobDescFail bs 1 72 = none ∧ firstFree (u.jobs.map (·.num)) 16 0 = some 0 ∧
      u.reserveGrants (JobDesc.of bs 1) = some gs ∧
      (u.jobs.map (·.nctx)).foldl (· + ·) 0 + (JobDesc.of bs 1).nctx ≤ 1023 ∧
      (u.jobs.map (·.nqp)).foldl (· + ·) 0 + (JobDesc.of bs 1).nqp ≤ 2047) ∧
    (∃ (s : State) (r : CmdRec) (job : Byte), Ready s (.jobClose tEnv job false) tEnv r ∧ (s.job? job.toNat).isSome = true ∧
      ∀ c ∈ s.ctxs, c.job ≠ job.toNat) := by
  refine ⟨⟨_, _, _, _, _, [(0, 2 ^ 20)], test_ready (tUp.tMem 0 tJobBytes) _ _ (by decide) (by decide), rfl,
    (touch_clean rfl rfl _ _).symm, rfl, by decide +kernel, by decide +kernel, by decide +kernel, by decide +kernel, by decide +kernel⟩,
    ⟨_, _, 0, test_ready { tUp with jobs := [tJob] } _ _ (by decide) (by decide), by decide, by decide⟩⟩

theorem test_witness_Contexts :
    (∃ (s u : State) (r : CmdRec) (j : Job) (k : Nat) (raw : List (List Byte)), Ready s (.ctxCreate tEnv 0 0 1 false false) tEnv r ∧
      (s.started r).job? 0 = some j ∧ k = (s.started r).keyAt tEnv 0 32 true false ∧ u = (s.started r).touch k 32 ∧
      raw = ((List.range 1).map fun i => u.readBytes (k + 32 * i) 32) ∧
      u.tableFail j [] raw = none ∧ (u.ctxs.filter fun c => c.job == j.num).length < j.nctx ∧
      ∃ n, n < 1023 ∧ u.ctx? n = none) ∧
    (∃ (s : State) (r : CmdRec) (c : Ctx), Ready s (.ctxPin tEnv5 1) tEnv5 r ∧ s.ctx? tEnv5.ctx.toNat = some c) ∧
    (∃ (s : State) (r : CmdRec) (c : Ctx), Ready s (.ctxDestroy tEnv5 false) tEnv5 r ∧ s.ctx? tEnv5.ctx.toNat = some c ∧
      s.ctxBusy c = false ∧ (s.started r).ctxCommands c = [] ∧ s.moves = []) ∧
    (∃ (s : State) (r : CmdRec) (c : Ctx), Ready s (.ctxEvict tEnv5 3) tEnv5 r ∧
      (s.started r).ctx? tEnv5.ctx.toNat = some c ∧ (s.started r).evictRefusal c 3 true = none ∧
      (s.started r).evictFails c 3 = false) ∧
    (∃ (s u : State) (r : CmdRec) (c : Ctx), Ready s (.ctxRestore tEnv5) tEnv5 r ∧
      (s.started r).ctx? tEnv5.ctx.toNat = some c ∧ u = (s.started r).touchAll c.mirrorReads ∧ u.moving c.id = false ∧
      c.resident = false ∧ u.rivals c = [] ∧ u.restoreFails c ((u.takeover? c).map (·.1)) = none) ∧
    (∃ (s u : State) (r : CmdRec) (c : Ctx) (g : Region), s.running = true ∧ s.rec? r.id = some r ∧ r.phase = .running ∧
      r.xfer = some (.evict c.id 3) ∧ u = s.touchAll (s.xferReads (.evict c.id 3)) ∧
      u.xferOf r.id = some (r, .evict c.id 3) ∧ u.ctx? c.id = some c ∧ c.evictRegion 3 = some g ∧ u.evictFails c 3 = false) ∧
    (∃ (s u0 u : State) (r : CmdRec) (c : Ctx), s.running = true ∧ s.rec? r.id = some r ∧ r.phase = .running ∧
      r.xfer = some (.restore c.id) ∧ u0 = s.touchAll (s.xferReads (.restore c.id)) ∧
      u0.xferOf r.id = some (r, .restore c.id) ∧ u0.ctx? c.id = some c ∧ u = u0.touchAll c.mirrorReads ∧ c.resident = false ∧
      u.takeover? c = none ∧ u.packFails false c.toRestore = false) ∧
    ∀ b : Bool, ∃ (s u : State) (c0 c : Ctx) (m : Move), s.running = true ∧ s.moves = [m] ∧ m.job < 16 ∧ m.ctx = c.id ∧
      m.evict = b ∧ s.ctx? c.id = some c0 ∧
      u = ({ s with moves := [] } : State).touchAll (({ s with moves := [] } : State).moveReads m c0) ∧ u.ctx? c.id = some c ∧
      (if b then u.evictFails c 1 else u.packFails false c.toRestore) = false := by
  refine ⟨⟨_, _, _, tJob, _, _, test_ready { tUp.tMem 0 tRegionBytes with jobs := [tJob] } _ _ (by decide) (by decide), by decide,
      rfl, (touch_clean rfl rfl _ _).symm, rfl, by decide +kernel, by decide, 0, by decide, by decide⟩,
    ⟨_, _, _, test_ready (tOne id) _ _ (by decide) (by decide), rfl⟩,
    ⟨_, _, tCtxOf id, test_ready (tOne id) _ _ (by decide) (by decide), rfl, by decide +kernel, by decide +kernel, rfl⟩,
    ⟨_, _, tCtxOf id, test_ready (tOne id) _ _ (by decide) (by decide), by decide +kernel, by decide +kernel, by decide +kernel⟩,
    ⟨_, _, _, tCtxOf fun c => { c with resident := false }, test_ready (tOne fun c => { c with resident := false }) _ _ (by decide)
      (by decide), by decide +kernel, (touchAll_clean rfl rfl _).symm, by decide +kernel, rfl, by decide +kernel, by decide +kernel⟩,
    ⟨(tOne id).tRun (.ctxEvict tEnv5 3) (some (.evict 5 3)), (tOne id).tRun (.ctxEvict tEnv5 3) (some (.evict 5 3)),
      { tRecOf (.ctxEvict tEnv5 3) tEnv with phase := .running, xfer := some (.evict 5 3) }, tCtxOf id, _, by decide, rfl, rfl, rfl,
      (touchAll_clean rfl rfl _).symm, rfl, rfl, rfl, by decide +kernel⟩,
    ⟨(tOne fun c => { c with resident := false }).tRun (.ctxRestore tEnv5) (some (.restore 5)),
      (tOne fun c => { c with resident := false }).tRun (.ctxRestore tEnv5) (some (.restore 5)), _,
      { tRecOf (.ctxRestore tEnv5) tEnv with phase := .running, xfer := some (.restore 5) },
      tCtxOf fun c => { c with resident := false }, by decide, rfl, rfl, rfl, (touchAll_clean rfl rfl _).symm, rfl, rfl,
      (touchAll_clean rfl rfl _).symm, rfl, by decide +kernel, by decide +kernel⟩,
    fun b => ⟨{ tOne id with moves := [⟨0, 5, b, 5, []⟩] }, tOne id, tCtxOf id, tCtxOf id, _, by cases b <;> decide, rfl,
      by cases b <;> decide, rfl, rfl, rfl, (touchAll_clean rfl rfl _).symm, rfl, by cases b <;> decide +kernel⟩⟩

/-- A configuration image: one core, a program of seven ENDs, empty pools. -/
def tImageBytes : List Byte :=
  leBytes 4 0x31464353 ++ leBytes 2 1 ++ zeros 2 ++ leBytes 2 1 ++ leBytes 2 0 ++ leBytes 4 704 ++ leBytes 2 1 ++ zeros 6 ++
    leBytes 4 64 ++ leBytes 4 64 ++ leBytes 4 128 ++ leBytes 4 192 ++ leBytes 4 64 ++ leBytes 4 64 ++ zeros 16 ++
    (zeros 32 ++ leBytes 1 0 ++ leBytes 1 1 ++ leBytes 2 0 ++ leBytes 2 1 ++ leBytes 2 0 ++ leBytes 8 (2 ^ 64 - 1) ++ zeros 16) ++
    (leBytes 1 1 ++ zeros 1 ++ leBytes 2 7 ++ zeros 4 ++ (List.replicate 7 (leBytes 8 (0x17 * 2 ^ 58))).flatten)

def tLoad : State := { tOne id with mem := tMem 0 tImageBytes }

def tOk {α β : Type} (x : Except α β) (p : β → Bool) : Bool := match x with
  | .ok b => p b
  | .error _ => false

theorem test_ok {α β : Type} {x : Except α β} {p : β → Bool} (h : tOk x p = true) : ∃ b, x = .ok b ∧ p b = true := by
  cases x with
  | ok b => exact ⟨b, rfl, h⟩
  | error _ => simp [tOk] at h

/-- A loaded configuration, active or not. -/
def tLoaded (active : List Nat) : State :=
  tOne fun c => { c with cfgs := [{ tCfg (tImage [tWord 0x17 0 0 0] []) with active := active }] }

theorem test_witness_Configurations :
    (∃ (s u : State) (r : CmdRec) (c d : Ctx) (k : Nat) (im : Image) (hs : List SlotHold) (ch : List Nat),
      s.ctx? tEnv5.ctx.toNat = some c ∧ k = (s.started r).keyAt tEnv5 (2 ^ 20) 704 true false ∧ u = (s.started r).touch k 704 ∧
      u.ctx? tEnv5.ctx.toNat = some d ∧ u.loadImage d (u.readBytes k 704) 704 = .ok im ∧
      u.stage7 d im = .ok (hs, ch) ∧ Ready s (.cfgLoad tEnv5 (2 ^ 20) 704) tEnv5 r ∧ c.resident = true ∧
      (s.started r).moving c.id = false) ∧
    (∃ (s : State) (r : CmdRec) (c : Ctx) (g : Cfg), s.ctx? tEnv5.ctx.toNat = some c ∧ Ready s (.cfgUnload tEnv5 1) tEnv5 r ∧
      c.resident = true ∧ (s.started r).moving c.id = false ∧ s.cfg? c.id 1 = some g ∧ s.cfgInUse c 1 = false) ∧
    (∃ (s : State) (r : CmdRec) (c : Ctx) (g : Cfg), s.ctx? tEnv5.ctx.toNat = some c ∧ Ready s (.cfgActivate tEnv5 1) tEnv5 r ∧
      s.activateRefusal c 1 = none ∧ s.cfg? c.id 1 = some g ∧ c.displacedBy g = []) ∧
    ∃ (s : State) (c : Ctx), ∀ d ∈ s.ctxs, d.id = c.id → d = c := by
  refine ⟨?_, ⟨_, _, _, _, rfl, test_ready (tLoaded [0]) _ _ (by decide) (by decide), rfl, by decide +kernel, rfl,
      by decide +kernel⟩,
    ⟨_, _, _, _, rfl, test_ready (tLoaded []) _ _ (by decide) (by decide), by decide +kernel, rfl, by decide +kernel⟩,
    ⟨tOne id, tCtxOf id, by decide +kernel⟩⟩
  let i : Instr := .cfgLoad tEnv5 (2 ^ 20) 704
  let s := (tLoad.tWith i tEnv5).started (tRecOf i tEnv5)
  obtain ⟨im, h1, h2⟩ := test_ok (p := fun im => tOk (s.stage7 (tCtxOf id) im) fun _ => true)
    (x := s.loadImage (tCtxOf id) (s.readBytes (s.keyAt tEnv5 (2 ^ 20) 704 true false) 704) 704) (by decide +kernel)
  obtain ⟨p, h3, -⟩ := test_ok h2
  exact ⟨tLoad.tWith i tEnv5, s, tRecOf i tEnv5, tCtxOf id, tCtxOf id, _, im, p.1, p.2, rfl, rfl, (touch_clean (by decide +kernel) (by decide +kernel) _ _).symm,
    by decide +kernel, h1, h3, test_ready _ _ _ (by decide) (by decide), rfl, by decide +kernel⟩

/-- The loaded configuration's invocation in a phase, its core at END. -/
def tInvState (f : Inv → Inv) (x : List Core) : State :=
  { tLoaded [0] with fab := { tUp.fab with cores := x, invs := [f tInv] } }

theorem test_witness_Invocations :
    (∃ (s : State) (r : CmdRec) (c : Ctx) (g : Cfg), Ready s (.invoke tEnv5 1 0 0 0) tEnv5 r ∧
      (s.started r).ctx? tEnv5.ctx.toNat = some c ∧ (s.started r).cfg? tEnv5.ctx.toNat 1 = some g ∧
      (s.started r).invokeRefusal c 1 0 0 = none ∧ (s.started r).stuckTree c g = false) ∧
    (∃ (s : State) (r : CmdRec) (c : Ctx), Ready s (.preempt tEnv5 false) tEnv5 r ∧ s.ctx? tEnv5.ctx.toNat = some c ∧
      s.insideStep c = false ∧ s.waitersOn c = []) ∧
    (∃ (s u : State) (i j : Inv), s.running = true ∧ s.inv? i.id = some i ∧ i.phase = .waiting ∧
      s.displacedNow i.ctx i.handle = false ∧ i.owner = .command 1 ∧ s.launchable i = true ∧
      u = s.touchAll (s.argReads i.ctx i.handle i.args) ∧ u.inv? i.id = some j) ∧
    (∃ (s : State) (i : Inv), s.running = true ∧ s.inv? i.id = some i ∧ i.phase = .running ∧ s.invComplete i = true) ∧
    (∃ (s : State) (i : Inv), s.running = true ∧ s.inv? i.id = some i ∧ i.deadline ≠ 0 ∧ i.deadline ≤ s.tmr.count) ∧
    ∃ (s : State) (i : Inv) (c : Ctx) (g : Cfg), s.inv? i.id = some i ∧ s.ctx? i.ctx = some c ∧
      s.cfg? i.ctx i.handle = some g := by
  refine ⟨⟨_, _, _, _, test_ready (tLoaded [0]) _ _ (by decide) (by decide), rfl, rfl, by decide +kernel, by decide +kernel⟩,
    ⟨_, _, _, test_ready (tLoaded [0]) _ _ (by decide) (by decide), rfl, by decide +kernel, by decide +kernel⟩,
    ⟨tInvState (fun i => { i with phase := .waiting }) [], tInvState (fun i => { i with phase := .waiting }) [],
      { tInv with phase := .waiting }, _, by decide, rfl, rfl, by decide, rfl, by decide +kernel, (touchAll_clean rfl rfl _).symm, rfl⟩,
    ⟨tInvState id [{ Core.fresh 0 (some 1) 1 1 (some 1) 0 [] [] with ended := true }], tInv, by decide, rfl, rfl, by decide +kernel⟩,
    ⟨(tInvState (fun i => { i with deadline := 10 }) []).tCount 10, { tInv with deadline := 10 }, by decide, rfl, by decide,
      by decide⟩,
    ⟨tInvState id [], tInv, _, _, rfl, rfl, rfl⟩⟩

def tEntry : Prefetch := ⟨2 ^ 20, 2 ^ 20 + 4096, 256, 1, 0xFFFF, 0xFFFF, 0⟩

def tPrefetch (f : Inv → Inv) : State := tInvState (fun i => f { i with plist := [tEntry] }) []

theorem test_witness_Prefetch :
    (∃ (s u : State) (r : CmdRec) (c : Ctx) (k : Nat) (raw : List (List Byte)) (new : List Prefetch),
      Ready s (.prefetchListSet tEnv5 (2 ^ 20) 1 true) tEnv5 r ∧
      k = (s.started r).keyAt tEnv5 (2 ^ 20) 64 true false ∧ u = (s.started r).touch k 64 ∧ u.ctx? tEnv5.ctx.toNat = some c ∧
      raw = ((List.range 1).map fun i => u.readBytes (k + 64 * i) 64) ∧ raw.findSome? (u.prefetchFail c) = none ∧
      new = (raw.map Prefetch.of).filter (fun p => p.len != 0) ∧ new.length ≤ 4096) ∧
    (∃ (s : State) (i : Inv) (k : Nat) (p : Prefetch) (im : Image) (c : Ctx) (a b : Nat), s.running = true ∧
      s.inv? i.id = some i ∧ i.phase = .running ∧ i.nextPrefetch = some (k, p) ∧ s.imageOf i.ctx i.handle = some im ∧
      s.ctx? i.ctx = some c ∧ s.prefetchReady i im p = true ∧ c.prefetchKeys p = some (a, b) ∧
      s.unitFailed 3 (mandolineOf a b) = false) ∧
    ∃ (s : State) (i : Inv) (p : Prefetch) (c : Ctx), s.running = true ∧ s.inv? i.id = some i ∧ i.phase = .running ∧
      i.plist[0]? = some p ∧ s.ctx? i.ctx = some c ∧ i.started.contains (0, false) = true ∧ i.owner = .command 1 ∧
      ∃ a b u, c.prefetchKeys p = some (a, b) ∧ u = s.touch a p.len ∧ (u.inv? i.id).isSome = true ∧
        u.unitFailed 3 (mandolineOf a b) = false := by
  refine ⟨⟨_, _, _, _, _, _, _, test_ready (tOne id) _ _ (by decide) (by decide), rfl, (touch_clean rfl rfl _ _).symm, rfl, rfl,
      by decide +kernel, rfl, by decide +kernel⟩,
    ⟨tPrefetch id, { tInv with plist := [tEntry] }, 0, tEntry, _, _, 0, 4096, by decide, rfl, rfl, by decide +kernel, rfl, rfl, by decide +kernel, by decide +kernel,
      by decide +kernel⟩,
    ⟨tPrefetch fun i => { i with started := [(0, false)] }, { tInv with plist := [tEntry], started := [(0, false)] }, _, _, by decide, rfl, rfl, rfl, rfl,
      by decide, rfl, 0, 4096, _, by decide +kernel, (touch_clean rfl rfl _ _).symm, rfl, by decide +kernel⟩⟩

/-! ### Witnesses: weights, serving, routing -/

/-- A manifest of one shard of 256 bytes, with a layer for kind 1. -/
def tManifest (kind : Nat) : List Byte :=
  leBytes 4 0x31464E4D ++ leBytes 2 1 ++ leBytes 1 kind ++ zeros 1 ++ leBytes 4 1 ++ leBytes 2 (if kind = 1 then 1 else 0) ++
    zeros 18 ++ leBytes 4 64 ++ leBytes 4 (if kind = 1 then 192 else 0) ++ zeros 24 ++
    (leBytes 8 (2 ^ 20 + 4096) ++ leBytes 8 256 ++ leBytes 8 (2 ^ 20 + 8192) ++
      leBytes 8 (if kind = 1 then 2 ^ 20 + 16384 else 0) ++ zeros 96) ++ (leBytes 2 0 ++ leBytes 2 1 ++ leBytes 2 0 ++ leBytes 2 1)

/-- The context of one loaded configuration, with a manifest at 2^20. -/
def tWeights (kind : Nat) (f : Ctx → Ctx) : State :=
  { tOne fun c => f { c with cfgs := [tCfg (tImage [tWord 0x17 0 0 0] [])] } with mem := tMem 0 (tManifest kind) }

def tWctx (f : Ctx → Ctx) : Ctx := tCtxOf fun c => f { c with cfgs := [tCfg (tImage [tWord 0x17 0 0 0] [])] }

theorem test_touchManifest {s : State} (hu : s.mem.upsets = []) (h : s.grid.stackFailed = []) (ctx man mask : Nat) (ks : List Nat) :
    s.touchManifest ctx man mask ks = s := by
  unfold State.touchManifest
  split
  · rfl
  · simp only [touchAll_clean hu h]

theorem test_touchMask {s : State} (hu : s.mem.upsets = []) (h : s.grid.stackFailed = []) (ctx mask : Nat) :
    s.touchMask ctx mask = s := by
  unfold State.touchMask
  split
  · split
    · rfl
    · exact touchAll_clean hu h _
  · rfl

/-- A serving descriptor: one slot, one page, handles 1 and 2. -/
def tSrvBytes : List Byte :=
  leBytes 4 0x31565253 ++ leBytes 2 1 ++ leBytes 2 2 ++ leBytes 2 1 ++ zeros 4 ++ leBytes 2 16 ++ leBytes 4 1 ++ leBytes 4 256 ++
    zeros 4 ++ leBytes 4 2 ++ leBytes 8 (2 ^ 20) ++ leBytes 8 (2 ^ 20 + 4096) ++ leBytes 8 (2 ^ 20 + 8192) ++ zeros 8 ++
    leBytes 8 (2 ^ 20 + 12288) ++ leBytes 8 (2 ^ 20 + 65536) ++ leBytes 4 1 ++ leBytes 4 1 ++ leBytes 8 (2 ^ 20 + 16384) ++
    leBytes 8 (2 ^ 20 + 20480) ++ leBytes 4 16 ++ zeros 4 ++ leBytes 8 (2 ^ 20) ++ leBytes 8 (2 ^ 20) ++ leBytes 8 (2 ^ 20 + 24576) ++
    leBytes 8 (2 ^ 20 + 28672) ++ zeros 48

def tServing : Serving := Serving.fresh (SrvDesc.of tSrvBytes) 2

def tReq (f : Req → Req) : Req :=
  f { id := 1, prompt := 2 ^ 20, plen := 1, maxNew := 1, out := 2 ^ 20 + 32768, stops := [], deadline := 0, adapter := none,
      hostStep := true, cond := .awaiting, slot := some 0, pages := [], kvlen := 0, prefilled := 0, emitted := 0, last := 0,
      drafts := [], steps := 0, maskValid := false, replaced := false, cancel := none }

/-- A service with one request bound to version 1 of adapter 3. -/
def tBinding : Serving := { tServing with reqs := [tReq fun q => { q with adapter := some (3, 1) }] }

/-- The context holds a version of adapter 3, with a request bound to it or none. -/
def tBound (bound : Bool) : Ctx :=
  tWctx fun c => { c with adapters := [⟨3, 1, .current, 0, []⟩], serving := if bound then some tBinding else none }

/-- A WGT_VERIFY of one shard whose digest unit is there or has failed. -/
def tVerify (failed : Bool) : State :=
  ((tWeights 0 fun c => { c with shards := [⟨0, 0, 256, 0, true, none⟩], verifying := true }).tRun (.wgtVerify tEnv5 0)
    (some (.verify 5 [0]))).modGrid fun g => { g with elements := if failed then (List.range 4).map fun d => ⟨5, d, 0⟩ else [] }

theorem test_witness_WeightCommands :
    (∃ (s u : State) (r : CmdRec) (c : Ctx) (m : Manifest) (names : Nat → Bool),
      u = (s.started r).touchManifest tEnv5.ctx.toNat (2 ^ 20) 0 [0, 1] ∧ u.ctx? tEnv5.ctx.toNat = some c ∧
      Ready s (.wgtLoad tEnv5 (2 ^ 20) 0 0) tEnv5 r ∧ zeroWgtLoad tEnv5 (2 ^ 20) 0 u = false ∧
      u.loadAllowed c (u.manifestKind c (2 ^ 20)) = true ∧
      u.readManifest c (2 ^ 20) [0, 1] = .ok m ∧ u.maskNames c 0 m.nshard = some names ∧
      strayBit names 0 m.nshard = none) ∧
    (∃ (s u : State) (r : CmdRec) (c : Ctx) (m : Manifest), u = (s.started r).touchManifest tEnv5.ctx.toNat (2 ^ 20) 0 [1] ∧
      u.ctx? tEnv5.ctx.toNat = some c ∧
      Ready s (.wgtReplace tEnv5 (2 ^ 20) true 0) tEnv5 r ∧ c.weight = .loaded ∧ u.weightFree c = true ∧
      u.readManifest c (2 ^ 20) [1] = .ok m ∧ tEnv5.atTick = false) ∧
    (∃ (s u : State) (r : CmdRec) (c : Ctx) (m : Manifest), u = (s.started r).touchManifest tEnv5.ctx.toNat (2 ^ 20) 0 [2] ∧
      u.ctx? tEnv5.ctx.toNat = some c ∧
      Ready s (.adapterLoad tEnv5 (2 ^ 20) 3 1 0) tEnv5 r ∧ c.weight = .loaded ∧ c.resident = true ∧
      u.moving c.id = false ∧ c.wgt = [] ∧ c.maxVersions = [] ∧
      u.readManifest c (2 ^ 20) [2] = .ok m ∧ c.adapters = [] ∧
      c.adapterRoom 3 ((c.emptyRecs false m.shards).map fun x => (x.base, x.len)) = true) ∧
    (∀ bound : Bool, ∃ (s : State) (r : CmdRec) (c : Ctx) (ad : Adapter), (s.started r).ctx? tEnv5.ctx.toNat = some c ∧
      Ready s (.adapterRetire tEnv5 3 1) tEnv5 r ∧ c.resident = true ∧ (s.started r).moving c.id = false ∧
      ad ∈ c.adapters ∧ ad.id = 3 ∧ ad.version = 1 ∧ ad.st ≠ .loading ∧ (c.boundTo 3 1 ≠ 0 ↔ bound = true)) ∧
    (∀ failed : Bool, ∃ (s u : State) (r : CmdRec) (c : Ctx) (ix : List Nat), s.running = true ∧ s.rec? r.id = some r ∧
      r.phase = .running ∧ r.xfer = some (.verify c.id ix) ∧ u = s.touchAll (s.xferReads (.verify c.id ix)) ∧
      u.xferOf r.id = some (r, .verify c.id ix) ∧ u.ctx? c.id = some c ∧ u.verifyUnitFailed c ix.contains = failed) ∧
    ∃ (s u : State) (r : CmdRec) (c : Ctx) (names : Nat → Bool), u = (s.started r).touchMask tEnv5.ctx.toNat 0 ∧
      u.ctx? tEnv5.ctx.toNat = some c ∧
      Ready s (.wgtVerify tEnv5 0) tEnv5 r ∧ zeroWgtVerify tEnv5 0 u = false ∧ c.weight ≠ .replacing ∧ u.weightFree c = true ∧
      u.maskNames c 0 c.shards.length = some names ∧
      ∀ x ∈ c.shards, names x.index = true → x.valid = true → u.unitFailed 5 (mandolineOf x.base x.base) = false := by
  refine ⟨?_, ?_, ?_, fun b => ⟨_, _, tBound b, ⟨3, 1, .current, 0, []⟩, by cases b <;> decide +kernel,
      test_ready (tWeights 0 fun _ => tBound b) _ _ (by cases b <;> decide) (by cases b <;> decide)
        (by cases b <;> decide +kernel), by cases b <;> rfl,
      by cases b <;> decide +kernel, by cases b <;> decide, rfl, rfl, by decide, by cases b <;> decide +kernel⟩,
    fun b => ⟨tVerify b, tVerify b, { tRecOf (.wgtVerify tEnv5 0) tEnv with phase := .running, xfer := some (.verify 5 [0]) },
      tWctx (fun c => { c with shards := [⟨0, 0, 256, 0, true, none⟩], verifying := true }), [0], by cases b <;> decide,
      rfl, rfl, rfl, (touchAll_clean (by cases b <;> rfl) (by cases b <;> rfl) _).symm, rfl, rfl, by cases b <;> decide +kernel⟩,
    ⟨_, _, _, tWctx fun c => { c with shards := [⟨0, 0, 256, 0, true, none⟩] }, fun _ => true, (test_touchMask rfl rfl _ _).symm, rfl,
      test_ready (tWeights 0 fun c => { c with shards := [⟨0, 0, 256, 0, true, none⟩] }) _ _ (by decide) (by decide), by decide +kernel, by decide,
      by decide +kernel, rfl, by decide +kernel⟩⟩
  · let i : Instr := .wgtLoad tEnv5 (2 ^ 20) 0 0
    let s := (tWeights 1 id).tWith i tEnv5
    obtain ⟨m, h, -⟩ := test_ok (p := fun _ => true) (x := (s.started (tRecOf i tEnv5)).readManifest (tWctx id) (2 ^ 20) [0, 1])
      (by decide +kernel)
    exact ⟨s, _, tRecOf i tEnv5, tWctx id, m, fun _ => true, (test_touchManifest (by decide +kernel) (by decide +kernel) _ _ _ _).symm, by decide +kernel, test_ready _ _ _ (by decide) (by decide),
      by decide +kernel, by decide +kernel, h, rfl, rfl⟩
  · let i : Instr := .wgtReplace tEnv5 (2 ^ 20) true 0
    let s := (tWeights 1 id).tWith i tEnv5
    obtain ⟨m, h, -⟩ := test_ok (p := fun _ => true) (x := (s.started (tRecOf i tEnv5)).readManifest (tWctx id) (2 ^ 20) [1])
      (by decide +kernel)
    exact ⟨s, _, tRecOf i tEnv5, tWctx id, m, (test_touchManifest (by decide +kernel) (by decide +kernel) _ _ _ _).symm, by decide +kernel,
      test_ready _ _ _ (by decide) (by decide), rfl, by decide +kernel, h, rfl⟩
  · let i : Instr := .adapterLoad tEnv5 (2 ^ 20) 3 1 0
    let s := (tWeights 2 id).tWith i tEnv5
    obtain ⟨m, h, ha⟩ := test_ok (p := fun m => (tWctx id).adapterRoom 3 (((tWctx id).emptyRecs false m.shards).map fun x => (x.base, x.len)))
      (x := (s.started (tRecOf i tEnv5)).readManifest (tWctx id) (2 ^ 20) [2]) (by decide +kernel)
    exact ⟨s, _, tRecOf i tEnv5, tWctx id, m, (test_touchManifest (by decide +kernel) (by decide +kernel) _ _ _ _).symm, by decide +kernel,
      test_ready _ _ _ (by decide) (by decide), rfl, rfl, by decide +kernel, rfl, rfl, h, rfl, ha⟩

def tShard (digest : BitVec 384) (ready : Nat) (desc : U64) : ShardEnt :=
  ⟨2 ^ 20 + 4096, 256, 2 ^ 20 + 8192, 0, ready, 0, 0, desc, false, digest⟩

def tOp (kind : Nat) (x : ShardEnt) (st : ShardSt) : WgtOp :=
  { cmd := 1, kind, adapter := 3, version := 1, shards := [x], prog := [st], layers := [⟨0, 1, 0, 1⟩], status := 0, deadline := 0,
    tableDigest := 0, keepKv := true, order := 1, noRoom := false, barrier := none, layersDone := 0, overwriting := false,
    poisoned := false }

/-- The context with one weight command. -/
def tShardState (w : WgtOp) : State := tOne fun c => { c with wgt := [w] }
def tShardCtx (w : WgtOp) : Ctx := tCtxOf fun c => { c with wgt := [w] }

/-- The context while a replacement overwrites its one layer, whose shard is staged. -/
def tStaged (c : Ctx) : Ctx :=
  { c with
    staged := [⟨0, 2 ^ 20 + 8192, 256, 0, true, none⟩]
    wgt := [{ tOp 3 (tShard 0 0 0) .valid with barrier := some 0, overwriting := true }] }

theorem test_witness_Shards :
    (∃ (s u : State) (c : Ctx) (w : WgtOp) (x : ShardEnt) (k : Nat), s.running = true ∧ s.ctx? 5 = some c ∧
      c.opShard w.cmd 0 .waiting = some (w, x) ∧ c.translate x.ready 8 true false = some k ∧ u = s.touch k 8 ∧
      u.readNat k 8 = x.readyVal) ∧
    (∃ (s : State) (c : Ctx) (w : WgtOp) (x : ShardEnt), s.running = true ∧ s.ctx? 5 = some c ∧
      c.opShard w.cmd 0 .ready = some (w, x) ∧ s.mayStart c w 0 (c.shardUnit w x) = true ∧ s.unitFailed 3 (c.shardUnit w x) = false ∧
      s.unitFailed 5 (c.shardUnit w x) = false ∧ x.remote = false) ∧
    (∃ (s u : State) (c : Ctx) (w : WgtOp) (x : ShardEnt) (k kd : Nat) (o : ConvOut), s.running = true ∧ s.ctx? 5 = some c ∧
      c.opShard w.cmd 0 .inFlight = some (w, x) ∧ x.remote = false ∧ c.translate x.src x.srcLen true false = some k ∧
      u = s.touch k x.srcLen ∧ u.shardUnitFailed (c.shardUnit w x) = false ∧
      u.poisonedIn k x.srcLen = false ∧ sha384 (u.readBytes k x.srcLen) = x.digest ∧ u.link.transfers = [] ∧
      (Desc.of x.desc.toNat).run x.desc.toNat (u.readBytes k x.srcLen) [] = .ok o ∧
      c.translate (if w.kind = 1 ∨ w.kind = 3 then x.stage else x.dst) o.bytes.length false true = some kd) ∧
    (∃ (s u : State) (c : Ctx) (w : WgtOp) (x : ShardEnt) (k : Nat), s.running = true ∧ s.ctx? 5 = some c ∧
      c.opShard w.cmd 0 .inFlight = some (w, x) ∧ x.remote = false ∧ c.translate x.src x.srcLen true false = some k ∧
      u = s.touch k x.srcLen ∧ u.shardUnitFailed (c.shardUnit w x) = false ∧
      sha384 (u.readBytes k x.srcLen) ≠ x.digest ∧ (Desc.of x.desc.toNat).mode = 2 ∧ u.link.transfers = []) ∧
    (∃ (s : State) (c : Ctx) (w : WgtOp), s.running = true ∧ s.ctx? 5 = some c ∧ c.wgt = [w] ∧ w.noRoom = false ∧
      w.barrier = none ∧ w.deadline ≠ 0 ∧ w.deadline ≤ s.tmr.count ∧ w.shardsIn ShardSt.open_ ≠ []) ∧
    (∃ (s : State) (c : Ctx) (w : WgtOp), s.running = true ∧ s.ctx? 5 = some c ∧ c.wgt = [w] ∧ w.kind = 2 ∧ w.adapter = 3 ∧
      w.noRoom = true ∧ w.deadline ≠ 0 ∧ w.deadline ≤ s.tmr.count) ∧
    (∃ (s : State) (c : Ctx) (w : WgtOp) (l : Nat), s.running = true ∧ s.ctx? 5 = some c ∧ s.nextLayer c = some (w, l)) ∧
    ∃ (s : State) (c : Ctx) (w : WgtOp), s.running = true ∧ s.ctx? 5 = some c ∧
      c.wgt.find? (fun w => w.kind == 3 && w.overwriting) = some w ∧
      (c.staged.filter fun x => ((w.shards[x.index]?).map (·.layer)) == some (w.layerOrder.getD w.layersDone 0)) ≠ [] := by
  have hz : ∀ w : WgtOp, (tShardState w).readBytes 4096 256 = zeros 256 := by
    intro w
    have : (tShardState w).mem.cells = [] := rfl
    simp only [State.readBytes, State.readByte, Memory.byte, this, getCell, Option.getD_none, zeros]
    decide +kernel
  let x0 := tShard (sha384 (zeros 256)) 0 0
  let x1 := tShard (sha384 (zeros 256) + 1) 0 2
  refine ⟨⟨tShardState (tOp 0 (tShard 0 (2 ^ 20) 0) .waiting), _, tShardCtx (tOp 0 (tShard 0 (2 ^ 20) 0) .waiting),
      tOp 0 (tShard 0 (2 ^ 20) 0) .waiting, tShard 0 (2 ^ 20) 0, 0, by decide,
      rfl, rfl, by decide +kernel, (touch_clean rfl rfl _ _).symm, by decide +kernel⟩,
    ⟨tShardState (tOp 0 (tShard 0 0 0) .ready), tShardCtx (tOp 0 (tShard 0 0 0) .ready), tOp 0 (tShard 0 0 0) .ready, tShard 0 0 0,
      by decide, rfl, rfl, by decide +kernel, by decide +kernel, by decide +kernel, rfl⟩,
    ⟨tShardState (tOp 0 x0 .inFlight), tShardState (tOp 0 x0 .inFlight), tShardCtx (tOp 0 x0 .inFlight), tOp 0 x0 .inFlight, x0,
      4096, 8192, ⟨zeros 256, [], 0, 0, 0, 0, false⟩, by decide, rfl, rfl, rfl, by decide +kernel,
      (touch_clean rfl rfl _ _).symm, by decide +kernel, by decide +kernel, congrArg sha384 (hz _), rfl, ?_, ?_⟩,
    ⟨tShardState (tOp 0 x1 .inFlight), tShardState (tOp 0 x1 .inFlight), tShardCtx (tOp 0 x1 .inFlight), tOp 0 x1 .inFlight, x1,
      4096, by decide, rfl, rfl, rfl, by decide +kernel, (touch_clean rfl rfl _ _).symm, by decide +kernel, ?_, by decide +kernel,
      rfl⟩,
    ⟨(tShardState { tOp 0 x0 .ready with deadline := 9 }).tCount 9, tShardCtx { tOp 0 x0 .ready with deadline := 9 }, { tOp 0 x0 .ready with deadline := 9 },
      by decide, rfl, rfl, rfl, rfl, by decide, by decide, by decide⟩,
    ⟨(tShardState { tOp 2 x0 .ready with deadline := 9, noRoom := true }).tCount 9,
      tShardCtx { tOp 2 x0 .ready with deadline := 9, noRoom := true }, { tOp 2 x0 .ready with deadline := 9, noRoom := true },
      by decide, rfl, rfl, rfl, rfl, rfl, by decide, by decide⟩,
    ⟨tShardState { tOp 3 (tShard 0 0 0) .valid with barrier := some 0 }, tShardCtx { tOp 3 (tShard 0 0 0) .valid with barrier := some 0 },
      { tOp 3 (tShard 0 0 0) .valid with barrier := some 0 }, 0, by decide, rfl, by decide +kernel⟩,
    ⟨tOne tStaged, tCtxOf tStaged, _, by decide, rfl, rfl, by decide +kernel⟩⟩
  · show (Desc.of 0).run 0 ((tShardState _).readBytes 4096 256) [] = _
    rw [hz]
    rfl
  · decide +kernel
  · show sha384 ((tShardState _).readBytes 4096 256) ≠ sha384 (zeros 256) + 1
    rw [hz]
    generalize sha384 (zeros 256) = a
    intro h
    have := congrArg (· - a) h
    simp at this

/-- A prompt of one token and one token to come. -/
def tReqBytes : List Byte := leBytes 8 (2 ^ 20) ++ leBytes 4 1 ++ leBytes 4 1 ++ leBytes 8 (2 ^ 20 + 32768) ++ zeros 40

/-- The context with DEC and PRE loaded. -/
def tSrvCtx (f : Ctx → Ctx) : Ctx :=
  tCtxOf fun c => f { c with cfgs := [tCfg (tImage [tWord 0x17 0 0 0] []),
    { tCfg { tImage [tWord 0x17 0 0 0] [] with stations := [⟨⟨8, 1, 0, 1⟩, 0, [], List.replicate 8 0, 0, 0⟩] } with handle := 2 }] }

def tSrv (bs : List Byte) (f : Ctx → Ctx) : State :=
  { tUp with jobs := [tJob1], ctxs := [tSrvCtx f], mem := tMem 0 bs }

def tServed (f : Serving → Serving) (c : Ctx) : Ctx := { c with serving := some (f tServing) }

theorem test_witness_ServingRows :
    (∃ (s u : State) (r : CmdRec) (c : Ctx) (k : Nat) (bs : List Byte),
      (s.started r).ctx? tEnv5.ctx.toNat = some c ∧ Ready s (.srvStart tEnv5 (2 ^ 20)) tEnv5 r ∧ c.weight = .replacing ∧ c.resident = true ∧ (s.started r).moving c.id = false ∧
      c.isServing = false ∧ k = (s.started r).keyAt tEnv5 (2 ^ 20) 192 true false ∧ u = (s.started r).touch k 192 ∧
      bs = u.readBytes k 192 ∧ u.srvFail c bs = none ∧ c.srvStale (SrvDesc.of bs) = false) ∧
    (∃ (s : State) (r : CmdRec) (c : Ctx) (v : Serving), (s.started r).ctx? tEnv5.ctx.toNat = some c ∧
      Ready s (.srvPolicy tEnv5 256 0 0 0 0 1) tEnv5 r ∧ c.serving = some v ∧ v.st = .serving ∧ 256 ≤ v.desc.chunkMax ∧
      0 ≤ v.desc.nmax ∧ 0 ≤ v.desc.smax) ∧
    (∀ ad ∈ [(0xFFFFFFFF : U32), 3], ∃ (s : State) (r : CmdRec) (c : Ctx) (v : Serving) (k : Nat) (u : State) (bs : List Byte)
      (bound : Option (Nat × Nat)), (s.started r).ctx? tEnv5.ctx.toNat = some c ∧ Ready s (.reqAdmit tEnv5 (2 ^ 20) 0 ad false) tEnv5 r ∧
      (ad = 0xFFFFFFFF → bound = none) ∧
      (ad ≠ 0xFFFFFFFF → ∃ n, c.currentVersion ad.toNat = some n ∧ bound = some (ad.toNat, n)) ∧ c.serving = some v ∧
      v.st = .serving ∧ k = (s.started r).keyAt tEnv5 (2 ^ 20) 64 true false ∧ u = (s.started r).touch k 64 ∧ bs = u.readBytes k 64 ∧
      u.reqFail c v bs = none ∧ v.reqs.length < v.desc.maxreq) ∧
    (∀ cur ∈ [none, some ⟨none, [(1, 0)], [], none, none, none, none, false⟩], ∃ (s : State) (r : CmdRec) (c : Ctx) (v : Serving) (q : Req),
      c.serving = some v ∧ v.reqs = [q] ∧ v.cur = cur ∧ Ready s (.reqCancel tEnv5 1) tEnv5 r ∧
      (s.started r).ctx? tEnv5.ctx.toNat = some c ∧ v.known 1 = true ∧ q.id = 1 ∧ q.cancel = none) ∧
    (∃ (s : State) (c : Ctx) (v : Serving) (q : Req), c.serving = some v ∧ v.reqs = [q] ∧ s.running = true ∧ s.ctx? c.id = some c ∧
      q.deadline ≠ 0 ∧ q.deadline ≤ s.tmr.count ∧ v.inStep.contains q.id = false) ∧
    (∃ (s u : State) (r : CmdRec) (c : Ctx) (v : Serving) (q : Req) (k a : Nat), c.serving = some v ∧ v.reqs = [q] ∧
      Ready s (.stepAnswer tEnv5 1 0 (2 ^ 20) 64) tEnv5 r ∧ (s.started r).ctx? tEnv5.ctx.toNat = some c ∧ v.known 1 = true ∧
      q.id = 1 ∧ q.hostStep = true ∧ q.cond = .awaiting ∧ q.steps = 0 ∧ 64 ≤ v.desc.maskLen ∧
      a = (s.started r).keyAt tEnv5 (2 ^ 20) 64 true false ∧ u = (s.started r).touch a 64 ∧
      c.translate (v.desc.masks + v.desc.maskLen * q.slot.getD 0) v.desc.maskLen true true = some k) ∧
    ∃ (s : State) (r : CmdRec) (c : Ctx) (v : Serving), c.serving = some v ∧ Ready s (.srvStop tEnv5 true) tEnv5 r ∧
      (s.started r).ctx? tEnv5.ctx.toNat = some c ∧ v.st ≠ .stopped ∧ v.stopCmd = none := by
  refine ⟨⟨_, _, _, tSrvCtx fun c => { c with weight := .replacing }, _, _, by decide +kernel,
      test_ready (tSrv tSrvBytes fun c => { c with weight := .replacing }) _ _ (by decide) (by decide), rfl, rfl,
      by decide +kernel, rfl, rfl, (touch_clean rfl rfl _ _).symm, rfl, by decide +kernel, by decide +kernel⟩,
    ⟨_, _, tSrvCtx (tServed id), tServing, by decide +kernel, test_ready (tSrv [] (tServed id)) _ _ (by decide) (by decide), rfl, rfl,
      by decide +kernel, by decide, by decide⟩, ?_, ?_,
    ⟨(tSrv [] (tServed fun v => { v with reqs := [tReq fun q => { q with deadline := 9 }] })).tCount 9,
      tSrvCtx (tServed fun v => { v with reqs := [tReq fun q => { q with deadline := 9 }] }), _, _, rfl, rfl, by decide,
      by decide +kernel, by decide, by decide, by decide⟩,
    ⟨_, _, _, tSrvCtx (tServed fun v => { v with reqs := [tReq id] }), _, tReq id, 12288, _, rfl, rfl,
      test_ready (tSrv [] (tServed fun v => { v with reqs := [tReq id] })) _ _ (by decide) (by decide), by decide +kernel,
      by decide +kernel, rfl, rfl, rfl, rfl, by decide +kernel, rfl, (touch_clean rfl rfl _ _).symm, by decide +kernel⟩,
    ⟨_, _, tSrvCtx (tServed id), tServing, rfl, test_ready (tSrv [] (tServed id)) _ _ (by decide) (by decide), by decide +kernel,
      by decide, rfl⟩⟩
  · intro ad h
    fin_cases h
    · exact ⟨_, _, tSrvCtx (tServed id), tServing, _, _, _, none, by decide +kernel,
        test_ready (tSrv tReqBytes (tServed id)) _ _ (by decide) (by decide), fun _ => rfl, fun h => absurd rfl h, rfl, rfl, rfl,
        (touch_clean rfl rfl _ _).symm, rfl,
        by decide +kernel, by decide +kernel⟩
    · exact ⟨_, _, tSrvCtx fun c => tServed id { c with adapters := [⟨3, 7, .current, 0, []⟩] }, tServing, _, _, _, some (3, 7),
        by decide +kernel, test_ready (tSrv tReqBytes fun c => tServed id { c with adapters := [⟨3, 7, .current, 0, []⟩] }) _ _
          (by decide) (by decide), by decide, fun _ => ⟨7, by decide +kernel, rfl⟩, rfl, rfl, rfl,
        (touch_clean rfl rfl _ _).symm, rfl, by decide +kernel, by decide +kernel⟩
  · intro cur h
    fin_cases h
    · exact ⟨_, _, tSrvCtx (tServed fun v => { v with reqs := [tReq id] }), _, tReq id, rfl, rfl, rfl,
        test_ready (tSrv [] (tServed fun v => { v with reqs := [tReq id] })) _ _ (by decide) (by decide), by decide +kernel,
        by decide +kernel, rfl, rfl⟩
    · let st : StepRec := ⟨none, [(1, 0)], [], none, none, none, none, false⟩
      exact ⟨_, _, tSrvCtx (tServed fun v => { v with reqs := [tReq id], cur := some st }), _, tReq id, rfl, rfl, rfl,
        test_ready (tSrv [] (tServed fun v => { v with reqs := [tReq id], cur := some st })) _ _ (by decide) (by decide),
        by decide +kernel, by decide +kernel, rfl, rfl⟩

/-- A routing block for one expert of station 1, its router the core of station 0. -/
def tRouting : Routing :=
  { nexp := 1, topk := 1, gatefn := 0, spillDepth := 0, renorm := false, exch := false, rq := 0, capMax := 1, capFactor := 0,
    scores := 2 ^ 20, tmax := 32, routeWait := 1, dispatch := 2 ^ 20 + 8192, combine := 2 ^ 20 + 12288, gates := 2 ^ 20 + 16384,
    ybuf := 2 ^ 20 + 20480, yrow := 256, rel0 := 1, nrel := 1, counters := 2 ^ 20 + 24576, group := 0, period := 0, dispOff := 0,
    retOff := 0, experts := [⟨1, 0, 0, 0⟩] }

def tRouteImage : Image :=
  { tImage [] [] with stations := [⟨⟨0, 1, 0, 1⟩, 0, [2], List.replicate 8 0, 0, 0⟩, ⟨⟨0, 1, 1, 1⟩, 0, [1], List.replicate 8 0, 0, 0⟩]
                      programs := [.step [], .stream [], .routing tRouting] }

/-- The point after its router has sent one score tile for one token and its end-of-stream. -/
def tPoint (query : Option Nat) : RPoint :=
  ⟨2, [(0, 0, 1, 1, false)], [0], false, 1, query, false, [], [], 0, false, [], 0⟩

def tRouteCtx : Ctx := tCtxOf fun c => { c with cfgs := [tCfg tRouteImage] }

def tRoute (query : Option Nat) : State :=
  { tUp with jobs := [tJob1], ctxs := [tRouteCtx], fab := { tUp.fab with invs := [{ tInv with points := [tPoint query] }] } }

theorem test_witness_StepAndRouteRows :
    (∃ (s : State) (c : Ctx), s.running = true ∧ s.ctx? c.id = some c ∧ s.composable c = true) ∧
    (∃ (s : State) (c : Ctx) (v : Serving) (r : StepRec), s.running = true ∧ s.ctx? c.id = some c ∧ c.serving = some v ∧
      v.cur = some r ∧ r.decInv = none ∧ r.preDone.isSome = true) ∧
    (∃ (s v : State) (c : Ctx) (i : Inv) (im : Image) (p : RPoint) (r : Routing) (n : Nat), s.running = true ∧ s.ctx? c.id = some c ∧
      s.pointAt i.id p.program = some (c, i, im, p, r) ∧ p.started = false ∧ im.routerDone p = true ∧
      v = s.touchAll (c.scoreReads r ((p.count r).getD 0)) ∧ v.pointAt i.id p.program = some (c, i, im, p, r) ∧ p.count r = some n ∧
      v.unitFailed 4 (mandolineOf ((c.translate r.scores 4 true true).getD 0) ((c.translate r.scores 4 true true).getD 0)) = false ∧
      c.hostRouted = false) ∧
    ∃ (s : State) (c : Ctx) (i : Inv) (im : Image) (p : RPoint) (r : Routing) (q : Nat), s.running = true ∧ s.ctx? c.id = some c ∧
      s.pointAt i.id p.program = some (c, i, im, p, r) ∧ p.query = some q ∧ q + r.routeWait ≤ s.tmr.elapsed :=
  ⟨⟨tSrv [] (tServed id), tSrvCtx (tServed id), by decide, by decide +kernel, by decide +kernel⟩,
    ⟨tSrv [] (tServed fun v => { v with cur := some ⟨none, [], [], none, some 4, none, some (.ok, 9), false⟩ }),
      tSrvCtx (tServed fun v => { v with cur := some ⟨none, [], [], none, some 4, none, some (.ok, 9), false⟩ }), _, _, by decide,
      by decide +kernel, rfl, rfl, rfl, rfl⟩,
    ⟨tRoute none, tRoute none, tRouteCtx, { tInv with points := [tPoint none] }, tRouteImage, tPoint none, tRouting, 1, by decide,
      by decide +kernel, by decide +kernel, rfl, by decide +kernel, (touchAll_clean rfl rfl _).symm, by decide +kernel,
      by decide +kernel, by decide +kernel, rfl⟩,
    ⟨(tRoute (some 0)).tCount 1, tRouteCtx, { tInv with points := [tPoint (some 0)] }, tRouteImage,
      tPoint (some 0), tRouting, 0, by decide, by decide +kernel, by decide +kernel, rfl, by decide⟩⟩

/-- A serving context with one decoding request that holds its page. -/
def tDec : Req := tReq fun q => { q with cond := .decoding, hostStep := false, pages := [0], maxNew := 9 }

def tDecCtx (cur : Option StepRec) : Ctx := tSrvCtx (tServed fun v => { v with reqs := [tDec], cur := cur })

def tDecStep : StepRec := ⟨none, [(1, 0)], [], some 4, none, some (.ok, 9), none, false⟩

theorem test_witness_StepPointAndRegisterCompletion :
    (∃ (s : State) (c : Ctx) (v : Serving) (q : Req) (g : Cfg), s.running = true ∧ s.ctx? c.id = some c ∧ s.composable c = true ∧
      c.serving = some v ∧ v.reqs = [q] ∧ q.cond = .decoding ∧ q.replaced = false ∧ q.deadline = 0 ∧ v.need q = 0 ∧
      s.cfg? c.id v.desc.dec = some g) ∧
    (∃ (s : State) (c : Ctx) (v : Serving) (r : StepRec) (q q1 : Req) (k d n : Nat) (ts : List Nat), s.running = true ∧ s.mem.upsets = [] ∧
      s.ctxs = [c] ∧ c.resident = true ∧ c.mirror = none ∧ c.serving = some v ∧ v.cur = some r ∧ r.dec = [(q.id, k)] ∧
      r.chunks = [] ∧ r.decInv = some n ∧ r.decDone = some (.ok, d) ∧ r.preInv = none ∧ r.preDone = none ∧ v.reqs = [q] ∧
      q.deadline = 0 ∧ q.cancel = none ∧ q.replaced = false ∧ q.hostStep = false ∧ v.stopNow = false ∧ v.stopCmd = none ∧
      v.emit { q with steps := q.steps + 1 } k (s.readWords c (v.desc.verify + 256 * q.slot.getD 0) 64)
        (if v.desc.threshold then s.readWords c (v.desc.prob + 32 * q.slot.getD 0) 8 else []) = (ts, q1, false)) ∧
    (∃ (s v : State) (c : Ctx) (i : Inv) (im : Image) (p : RPoint) (r : Routing) (n : Nat), s.running = true ∧
      s.pointAt i.id p.program = some (c, i, im, p, r) ∧ p.started = false ∧ im.routerDone p = true ∧ p.count r = some n ∧
      c.hostRouted = false ∧ v = s.touchAll (c.scoreReads r n) ∧ v.pointAt i.id p.program = some (c, i, im, p, r) ∧
      v.unitFailed 4 (mandolineOf ((c.translate r.scores 4 true true).getD 0) ((c.translate r.scores 4 true true).getD 0)) = false) ∧
    (∃ (s : State) (c : Ctx) (i : Inv) (im : Image) (p : RPoint) (r : Routing) (q : Nat), s.running = true ∧
      s.pointAt i.id p.program = some (c, i, im, p, r) ∧ p.query = some q ∧ q + r.routeWait ≤ s.tmr.elapsed) ∧
    tUp.working = true ∧ tUp.boot.stage = 9 := by
  refine ⟨⟨tSrv [] (fun _ => tDecCtx none), tDecCtx none, _, tDec, _, by decide, by decide +kernel, by decide +kernel, rfl, rfl, rfl,
      rfl, rfl, by decide +kernel, rfl⟩, ?_,
    ⟨tRoute none, tRoute none, tRouteCtx, { tInv with points := [tPoint none] }, tRouteImage, tPoint none, tRouting, 1, by decide,
      by decide +kernel, rfl, by decide +kernel, by decide +kernel, rfl, (touchAll_clean rfl rfl _).symm, by decide +kernel,
      by decide +kernel⟩,
    ⟨(tRoute (some 0)).tCount 1, tRouteCtx, { tInv with points := [tPoint (some 0)] }, tRouteImage, tPoint (some 0), tRouting, 0,
      by decide, by decide +kernel, rfl, by decide⟩, by decide, by decide⟩
  let s : State := { tUp with jobs := [tJob1], ctxs := [tDecCtx (some tDecStep)] }
  let v : Serving := { tServing with reqs := [tDec], cur := some tDecStep }
  let e := v.emit { tDec with steps := tDec.steps + 1 } 0 (s.readWords (tDecCtx (some tDecStep)) (v.desc.verify + 256 * tDec.slot.getD 0) 64)
    (if v.desc.threshold then s.readWords (tDecCtx (some tDecStep)) (v.desc.prob + 32 * tDec.slot.getD 0) 8 else [])
  have h : e.2.2 = false := by decide +kernel
  exact ⟨s, tDecCtx (some tDecStep), v, tDecStep, tDec, e.2.1, 0, 9, 4, e.1, by decide, rfl, rfl, rfl, rfl, rfl, rfl, rfl, rfl, rfl, rfl, rfl,
    rfl, rfl, rfl, rfl, rfl, rfl, rfl, rfl, congrArg (fun b => (e.1, e.2.1, b)) h⟩

/-! ### Witnesses: links -/

def tPortUp : Port := { Port.reset with st := .up, active := [0, 1, 2, 3, 4, 5, 6, 7], far := some ⟨2, 0, 0⟩, unacked := 1 }

/-- Chip 1 with a route to chip 2 on port 0 of slice 0. -/
def tNet (p : Port) (f : Links → Links) : State :=
  { tUp with link := f { tUp.link with
      chip := some 1, ports := tUp.link.ports.set 0 p
      tables := [(0, [⟨1, 15, 15, false, false, false, 0⟩, ⟨2, 0, 15, false, false, false, 2 ^ 17 - 1⟩])] } }

/-- Own address of an offset of HBM. -/
def tGa (a : Nat) : U64 := BitVec.ofNat 64 (2 ^ 52 + a)

/-- A route table of two entries: chip 1 is here, chip 2 behind port 0. -/
def tRouteBytes : List Byte :=
  (leBytes 2 1 ++ leBytes 1 15 ++ zeros 13) ++ (leBytes 2 2 ++ leBytes 1 0 ++ leBytes 1 15 ++ zeros 4 ++ leBytes 4 1 ++ zeros 4)

theorem test_witness_LinkCommands :
    (∃ (s : State) (r : CmdRec), Ready s (.linkTrain tEnv 0xFFF) tEnv r ∧ s.link.chip.isSome = true) ∧
    (∀ fp ∈ [(11 : Byte), 0xFF], ∃ (s : State) (r : CmdRec), Ready s (.linkExpectSet tEnv 11 4095 fp 0) tEnv r) ∧
    (∃ (s : State) (r : CmdRec), Ready s (.linkQuery tEnv 11) tEnv r) ∧
    (∃ (s u : State) (r : CmdRec) (k : Nat) (own : Option Nat) (es : List RouteEnt), Ready s (.routeLoad tEnv 0 2 0) tEnv r ∧
      k = (s.started r).keyAt tEnv 0 32 true false ∧ u = (s.started r).touch k 32 ∧
      u.routesFail 0 0 u.link.chip [] ((List.range 2).map fun i => u.readBytes (k + 16 * i) 16) = .ok (own, es) ∧
      es.length ≤ 4096 ∧ u.link.tables = [] ∧ es ≠ [] ∧ es.length ≠ 1) ∧
    (∃ (s : State) (r : CmdRec), Ready s (.portOwnerSet tEnv 11 0xFF) tEnv r ∧ s.link.tables = []) ∧
    (∃ (s : State) (r : CmdRec) (k sl : Nat), Ready s (.put tEnv (tGa 0) (BitVec.ofNat 64 (2 * 2 ^ 52)) 64 0) tEnv r ∧
      (s.started r).heldAddr tEnv (tGa 0).toNat 64 true false = some k ∧ (s.started r).sramBusy k 64 = false ∧
      (s.started r).link.originEntry ((s.started r).originJob tEnv) (chipOf (2 * 2 ^ 52)) = some sl) ∧
    ∃ (s : State) (r : CmdRec) (k sl : Nat), Ready s (.get tEnv (BitVec.ofNat 64 (2 * 2 ^ 52)) (tGa 0) 64 0) tEnv r ∧
      (s.started r).heldAddr tEnv (tGa 0).toNat 64 false true = some k ∧ (s.started r).sramBusy k 64 = false ∧
      (s.started r).link.originEntry ((s.started r).originJob tEnv) (chipOf (2 * 2 ^ 52)) = some sl := by
  refine ⟨⟨_, _, test_ready (tNet tPortUp id) _ _ (by decide) (by decide), rfl⟩, fun _ _ => ⟨_, _, test_up_ready _⟩, ⟨_, _, test_up_ready _⟩, ?_,
    ⟨_, _, test_up_ready _, rfl⟩,
    ⟨_, _, 0, 0, test_ready (tNet tPortUp id) _ _ (by decide) (by decide), by decide +kernel, by decide +kernel, by decide +kernel⟩,
    ⟨_, _, 0, 0, test_ready (tNet tPortUp id) _ _ (by decide) (by decide), by decide +kernel, by decide +kernel, by decide +kernel⟩⟩
  let i : Instr := .routeLoad tEnv 0 2 0
  let s := ((tUp.tMem 0 tRouteBytes).tWith i tEnv).started (tRecOf i tEnv)
  obtain ⟨p, h, hp⟩ := test_ok (p := fun p => p.2.length == 2) (x := s.routesFail 0 0 s.link.chip [] ((List.range 2).map fun i =>
    s.readBytes (s.keyAt tEnv 0 32 true false + 16 * i) 16)) (by decide +kernel)
  have hp : p.2.length = 2 := by simpa using hp
  refine ⟨(tUp.tMem 0 tRouteBytes).tWith i tEnv, s, _, s.keyAt tEnv 0 32 true false, p.1, p.2,
    test_ready _ _ _ (by decide) (by decide), rfl, (touch_clean (by decide +kernel) (by decide +kernel) _ _).symm, h, by omega, by decide +kernel, ?_, by omega⟩
  intro h0
  rw [h0] at hp
  simp at hp

/-- A collective of the chips 1 and 2 over blocks of 256 bytes. -/
def tCollBytes (block : Nat) : List Byte :=
  leBytes 4 0x31434C43 ++ zeros 2 ++ leBytes 2 2 ++ zeros 8 ++ leBytes 8 (2 ^ 52 + 4096) ++ leBytes 8 (2 ^ 52 + 8192) ++
    leBytes 4 block ++ zeros 28 ++ (leBytes 2 1 ++ zeros 30) ++ (leBytes 2 2 ++ zeros 30)

def tCollInstr (op : Nat) : Instr :=
  if op = 0x0903 then .exchange tEnv (tGa 0) 0 0 else if op = 0x0904 then .reduceScatter tEnv (tGa 0) 0 0 else .allGather tEnv (tGa 0) 0 0

def tCollIn (b : Nat) : State := { tNet tPortUp id with mem := tMem 0 (tCollBytes b) }
def tCollAt (b op : Nat) : State := ((tCollIn b).tWith (tCollInstr op) tEnv).started (tRecOf (tCollInstr op) tEnv)

theorem test_witness_Collectives : ∀ op ∈ [0x0903, 0x0904, 0x0905], ∃ (s v u : State) (r : CmdRec) (k : Nat) (hdr : List Byte)
    (raw : List (List Byte)), Ready s (tCollInstr op) tEnv r ∧
      v = (s.started r).touch ((s.started r).keyAt tEnv (tGa 0).toNat 64 true false) 64 ∧ v.link.colls = [] ∧
      hdr = v.readBytes (v.keyAt tEnv (tGa 0).toNat 64 true false) 64 ∧
      v.heldAddr tEnv (tGa 0).toNat (64 + 32 * fieldAt hdr 6 2) true false = some k ∧
      u = v.touch (k + 64) (32 * fieldAt hdr 6 2) ∧
      raw = ((List.range (fieldAt hdr 6 2)).map fun j => u.readBytes (k + 64 + 32 * j) 32) ∧
      u.collFail tEnv op hdr raw = none ∧
      ∀ m ∈ (raw.mapIdx fun j b => u.collMember tEnv op hdr b j).filterMap fun m => m, m.chip = u.ownChip ∨
        (u.link.originEntry (u.originJob tEnv) m.chip).isSome = true := by
  intro op h
  fin_cases h
  · exact ⟨(tCollIn 0).tWith (tCollInstr 0x0903) tEnv, tCollAt 0 0x0903, tCollAt 0 0x0903, tRecOf (tCollInstr 0x0903) tEnv, 0, _, _,
      test_ready _ _ _ (by decide) (by decide), (touch_clean rfl rfl _ _).symm, rfl, rfl, by decide +kernel,
      (touch_clean rfl rfl _ _).symm, rfl, by decide +kernel, by decide +kernel⟩
  · exact ⟨(tCollIn 256).tWith (tCollInstr 0x0904) tEnv, tCollAt 256 0x0904, tCollAt 256 0x0904, tRecOf (tCollInstr 0x0904) tEnv, 0, _, _,
      test_ready _ _ _ (by decide) (by decide), (touch_clean rfl rfl _ _).symm, rfl, rfl, by decide +kernel,
      (touch_clean rfl rfl _ _).symm, rfl, by decide +kernel, by decide +kernel⟩
  · exact ⟨(tCollIn 256).tWith (tCollInstr 0x0905) tEnv, tCollAt 256 0x0905, tCollAt 256 0x0905, tRecOf (tCollInstr 0x0905) tEnv, 0, _, _,
      test_ready _ _ _ (by decide) (by decide), (touch_clean rfl rfl _ _).symm, rfl, rfl, by decide +kernel,
      (touch_clean rfl rfl _ _).symm, rfl, by decide +kernel, by decide +kernel⟩

def tColl : Coll :=
  { cmd := none, group := 3, opcode := 0x0905, fmt := 0, rank := 0, block := 256, recv := 8192,
    members := [⟨1, 0, 256, 8192, 256⟩, ⟨2, 0, 256, 8448, 256⟩], launch := 0, deadline := 9, slices := [], lease := [] }

def tTrans (kind : TransKind) : Transfer :=
  { xtag := 7, cmd := none, kind, slice := 0, chip := 2, local_ := 0, remote := 2 * 2 ^ 52, len := 128, deadline := 9, opened := true,
    moved := 0, poisoned := false, retried := false, retryAt := some 9, parts := [] }

/-- A context that may be evicted to DDR. -/
def tMirrorCtx : Ctx := tCtxOf fun c => { c with regions := [⟨2 ^ 33, 2 ^ 48, 2 ^ 20, true, true, true⟩] }

theorem test_witness_MirrorAndEnds :
    (∃ (s : State) (r : CmdRec) (c : Ctx), (s.started r).ctx? tEnv5.ctx.toNat = some c ∧
      Ready s (.mirrorSet tEnv5 2 false) tEnv5 r ∧ c.mirror = none) ∧
    (∃ (s : State) (r : CmdRec) (c : Ctx) (m : Mirror), (s.started r).ctx? tEnv5.ctx.toNat = some c ∧
      Ready s (.mirrorSet tEnv5 2 false) tEnv5 r ∧ c.mirror = some m) ∧
    (∃ (s : State) (r : CmdRec) (c : Ctx) (g : Region) (sl : Nat), (s.started r).ctx? tEnv5.ctx.toNat = some c ∧
      Ready s (.mirrorSet tEnv5 2 true) tEnv5 r ∧ c.evictRegion 1 = some g ∧
      (s.started r).link.originEntry c.job (2 : BitVec 12).toNat = some sl) ∧
    (∃ (s : State) (c : Coll), s.running = true ∧ s.coll? c.group = some c ∧ c.deadline ≠ 0 ∧ c.deadline ≤ s.tmr.count) ∧
    (∀ kind ∈ [TransKind.put, .get], ∃ (s : State) (t : Transfer), s.running = true ∧ s.transfer? t.xtag = some t ∧ t.kind = kind ∧
      t.deadline ≠ 0 ∧ t.deadline ≤ s.tmr.count ∧ t.retryAt = some 9 ∧ 9 ≤ s.tmr.elapsed ∧ t.opened = true) := by
  refine ⟨⟨_, _, tMirrorCtx, by decide +kernel, test_ready { tNet tPortUp id with jobs := [tJob1], ctxs := [tMirrorCtx] } _ _
      (by decide) (by decide), rfl⟩,
    ⟨_, _, { tMirrorCtx with mirror := some ⟨2, 7, none, false, some 9, []⟩ }, ⟨2, 7, none, false, some 9, []⟩, by decide +kernel,
      test_ready { tNet tPortUp id with jobs := [tJob1], ctxs := [{ tMirrorCtx with mirror := some ⟨2, 7, none, false, some 9, []⟩ }] }
        _ _ (by decide) (by decide), rfl⟩,
    ⟨_, _, tMirrorCtx, ⟨2 ^ 33, 2 ^ 48, 2 ^ 20, true, true, true⟩, 0, by decide +kernel,
      test_ready { tNet tPortUp id with jobs := [tJob1], ctxs := [tMirrorCtx] } _ _ (by decide) (by decide), by decide +kernel,
      by decide +kernel⟩,
    ⟨(tNet tPortUp fun l => { l with colls := [tColl] }).tCount 9, tColl, by decide, rfl, by decide,
      by decide⟩, ?_⟩
  intro kind h
  fin_cases h
  · exact ⟨(tNet tPortUp fun l => { l with transfers := [tTrans .put] }).tCount 9, tTrans .put, by decide,
      rfl, rfl, by decide, by decide, rfl, by decide, rfl⟩
  · exact ⟨(tNet tPortUp fun l => { l with transfers := [tTrans .get] }).tCount 9, tTrans .get, by decide,
      rfl, rfl, by decide, by decide, rfl, by decide, rfl⟩

def tPktOf (d : PktDesc) (n : Nat) : Pkt := ⟨1, 0, 0, 2, 1, 2, 64 + n, 0, 7, 0, d, zeros n, []⟩

/-- Port 0 in training, with or without the far end's identity. -/
def tTraining (far : Option FarId) : State := tNet { Port.reset with st := .training, far := far } id

/-- A control frame of a kind: byte 1, bytes 2-3, bytes 4-15, and the CRC. -/
def tFrame (kind b1 f2 : Nat) (rest : List Byte) : List Byte :=
  withCrc (padTo 16 (leBytes 1 kind ++ leBytes 1 b1 ++ leBytes 2 f2 ++ rest))

theorem test_witness_PortRows :
    (∃ (s : State) (lane : Nat), s.running = true ∧ (s.port 0).st = .up ∧ lane ≤ 8 ∧ bit (s.port 0).laneFail lane = false ∧
      (s.port 0).active.contains lane = true ∧ (goodLanes ((s.port 0).laneFail ||| 2 ^ lane)).length = 8 ∧ 0 < (s.port 0).unacked) ∧
    (∀ vc ∈ [0, 2], ∃ (ch : Byte) (rsv : U16) (total : U32) (tail : BitVec 96), crcGood (creditBytes ch rsv total tail) = true ∧
      vc = ch.toNat % 4 ∧ vc ≤ 2) ∧
    (∀ nak ∈ [true, false], ∃ (flags : Byte) (lseq : U16) (tail : BitVec 128), crcGood (ackBytes flags lseq tail) = true ∧
      flags.getLsbD 0 = nak) ∧
    (∃ (s : State) (vc : Nat) (ps : List Queued), s.running = true ∧ vc ≤ 2 ∧
      ps = (s.port 11).waiting.filter (fun p => p.pkt.vc == vc) ∧ ps ≠ [] ∧ (s.port 11).waitSince.getD vc 0 + 1000000 ≤ s.tmr.elapsed) ∧
    (∃ (farPort : Byte) (farChip : U16) (digest : U64) (crc : U32), crcGood (identityBytes farPort farChip 0 digest crc) = true ∧
      farChip.toNat < 4096) ∧
    (∃ (s : State) (flags : Byte) (probe : U16) (turn : U32) (stamp : U64) (crc : U32), s.running = true ∧
      (s.port 0).st = .training ∧ (s.port 0).far = none ∧ (s.port 0).probes.length < 63 ∧
      crcGood (probeBytes flags probe turn stamp crc) = true ∧ flags.getLsbD 0 = true) ∧
    (∃ (s : State) (at_ : Nat), s.running = true ∧ (s.port 0).st = .training ∧ (s.port 0).far = none ∧ (s.port 0).sixAt = some at_ ∧
      at_ + 300000 ≤ s.tmr.elapsed) ∧
    (∃ (s : State) (at_ : Nat), s.running = true ∧ (s.port 0).st = .training ∧ (s.port 0).far = none ∧ (s.port 0).sixAt = some at_ ∧
      s.tmr.elapsed < at_ + 300000) ∧
    (∀ f ∈ [none, some (⟨2, 0, 0⟩ : FarId)], ∃ s : State, s.running = true ∧ (s.port 0).st = .training ∧ (s.port 0).far = f ∧
      s.grid.lanesFailed = []) ∧
    ∃ (s : State) (v : U64), s.running = true ∧ s.link.chip.isSome = true ∧ (s.port 0).off = false ∧ v.getLsbD 63 = true := by
  refine ⟨⟨tNet tPortUp id, 7, by decide, by decide, by decide, by decide, by decide, by decide, by decide⟩, fun vc h => ?_,
    fun nak h => ?_,
    ⟨({ tUp with link := { tUp.link with ports := tUp.link.ports.set 11 { tPortUp with waiting := [⟨tPktOf (.readRequest 0 64) 0, none⟩] } } } :
      State).tCount 1000000, 1, _, by decide, by decide, rfl, by decide, by decide⟩,
    ⟨3, 4095, 0, tCrc (tFrame 0x32 3 4095 []), by decide +kernel, by decide⟩,
    ⟨tTraining none, 1, 0, 0, 0, tCrc (tFrame 0x35 1 0 []), by decide, by decide, by decide, by decide, by decide +kernel, by decide⟩,
    ⟨(tNet { Port.reset with st := .training, sixAt := some 0 } id).tCount 300000, 0, by decide, by decide, by decide, by decide, by decide⟩,
    ⟨(tNet { Port.reset with st := .training, sixAt := some 0 } id).tCount 299999, 0, by decide, by decide, by decide, by decide, by decide⟩,
    fun f h => ?_, ⟨tNet tPortUp id, 0x8000000000000000, by decide, rfl, by decide, by decide⟩⟩
  · fin_cases h
    · exact ⟨4, 0, 9, BitVec.ofNat 96 (fieldAt (tFrame 0x34 4 0 (leBytes 4 9)) 8 12), by decide +kernel⟩
    · exact ⟨2, 0, 9, BitVec.ofNat 96 (fieldAt (tFrame 0x34 2 0 (leBytes 4 9)) 8 12), by decide +kernel⟩
  · fin_cases h
    · exact ⟨1, 65535, BitVec.ofNat 128 (fieldAt (tFrame 0x33 1 65535 []) 4 16), by decide +kernel⟩
    · exact ⟨0, 65535, BitVec.ofNat 128 (fieldAt (tFrame 0x33 0 65535 []) 4 16), by decide +kernel⟩
  · fin_cases h
    · exact ⟨tTraining none, by decide, by decide, by decide, rfl⟩
    · exact ⟨tTraining (some ⟨2, 0, 0⟩), by decide, by decide, by decide, rfl⟩

/-- The oldest delivered packet, and the state without it. -/
def tDeliver (p : Pkt) (f : Links → Links) : State := tNet tPortUp fun l => f { l with delivered := [(0, p)] }
def tTaken (p : Pkt) (f : Links → Links) : State := (tNet tPortUp f).freeUnits 0 p

def tOpen (op : Nat) : Opened := ⟨2, 7, 2 ^ 52, 128, op, 0, []⟩

/-- The packet of a read request on the link. -/
def tWire (dst : Nat) : List Byte := ({ tPktOf (.readRequest 0 64) 0 with dst } : Pkt).wire

/-- What goes out with its CRC is good where it arrives. -/
theorem test_crc_good (bs : List Byte) : crcGood (withCrc bs) = true := by
  have : (withCrc bs).length - 4 = bs.length := by simp [withCrc, leBytes]
  simp only [crcGood, this, Bool.and_eq_true, beq_iff_eq, decide_eq_true_eq]
  exact ⟨by simp [withCrc, leBytes], by simp [withCrc]⟩

theorem test_wire_good : ∀ dst ∈ [1, 2], wireGood (tWire dst) = true := by
  intro dst h
  have : crcGood (tWire dst) = true := test_crc_good _
  rw [wireGood, this]
  fin_cases h <;> decide +kernel

theorem test_witness_PacketRows :
    (∀ dst ∈ [1, 2], ∃ (s : State) (p : Pkt), s.running = true ∧ (s.port 0).st = .up ∧ wireGood (tWire dst) = true ∧
      p = Pkt.of (tWire dst) [] ∧ p.vc ≠ 3 ∧ p.dst = dst ∧ p.lseq = (s.port 0).rxSeq ∧ (s.port 0).unacked < 63 ∧
      p.slice = (s.port 0).owner ∧ 1 ≤ p.desc.code ∧ p.desc.code ≤ 9) ∧ wireGood (zeros 84) = false ∧
    (∃ (p : Pkt) (q : State × Nat × Pkt), (tNet tPortUp fun l => { l with transit := [(0, p)] }).running = true ∧ 2 ≤ p.ttl ∧
      (tNet tPortUp id).tryRoute { p with ttl := p.ttl - 1 } = .ok q) ∧
    (∀ x ∈ [(PktDesc.writeData (2 ^ 52) 64, 64, 0), (.readRequest (2 ^ 52) 64, 0, 1), (.mirror 5 0 0 64 true, 64, 2)],
      (tPktOf x.1 x.2.1).wellFormed = true ∧
      (tTaken (tPktOf x.1 x.2.1) fun l => { l with opened := [tOpen x.2.2] }).openedBy (tPktOf x.1 x.2.1) = some (tOpen x.2.2) ∧
      (tTaken (tPktOf x.1 x.2.1) fun l => { l with opened := [tOpen x.2.2] }).inOpened (tOpen x.2.2) ((tOpen x.2.2).ga + 0) 64 = true) ∧
    ((tPktOf (.readData (2 * 2 ^ 52) 64) 64).wellFormed = true ∧
      (tTaken (tPktOf (.readData (2 * 2 ^ 52) 64) 64) fun l => { l with transfers := [tTrans .get] }).transfer? 7 = some (tTrans .get) ∧
      (tTrans .get).chip = (tPktOf (.readData (2 * 2 ^ 52) 64) 64).src ∧ (tTrans .get).opened = true ∧
      (tTrans .get).remote ≤ 2 * 2 ^ 52 ∧ 2 * 2 ^ 52 + 64 ≤ (tTrans .get).remote + (tTrans .get).len ∧ (tTrans .get).parts = [] ∧
      (tTrans .get).moved + 64 < (tTrans .get).len) ∧
    ((tPktOf (.slice 3 1 0x0905 0 0 64 64) 64).wellFormed = true ∧
      (tTaken (tPktOf (.slice 3 1 0x0905 0 0 64 64) 64) fun l => { l with colls := [tColl] }).coll? 3 = some tColl ∧
      (tNet tPortUp fun l => { l with colls := [tColl] }).coll? 3 = some tColl ∧ tColl.opcode = 0x0905 ∧
      (tColl.members[1]?).map (·.chip) = some 2 ∧ 1 ≠ tColl.rank ∧ 0 = tColl.launch ∧
      ((tTaken (tPktOf (.slice 3 1 0x0905 0 0 64 64) 64) fun l => { l with colls := [{ tColl with cmd := none, launch := 9 }] }).coll?
        3 = some { tColl with cmd := none, launch := 9 }) ∧
      (tNet tPortUp fun l => { l with colls := [{ tColl with cmd := none, launch := 9 }] }).coll? 3 =
        some { tColl with cmd := none, launch := 9 } ∧ 0 < 9) ∧
    ((tPktOf (.openRange (2 ^ 52) 128 2 0) 0).wellFormed = true ∧
      ∃ s : State, s.link.delivered = [(0, tPktOf (.openRange (2 ^ 52) 128 2 0) 0)] ∧ s.running = true ∧
        (s.freeUnits 0 (tPktOf (.openRange (2 ^ 52) 128 2 0) 0)).ownGa (2 ^ 52) = true ∧
        ((s.freeUnits 0 (tPktOf (.openRange (2 ^ 52) 128 2 0) 0)).mem.allocOf (keyOf (2 ^ 52)) 128).isSome = true) ∧
    ((tPktOf (.openReply 0 0) 0).wellFormed = true ∧ (tPktOf (.e2eAck 128 true) 0).wellFormed = true ∧
      (tPktOf (.unreachable 2 1 1 7) 0).wellFormed = true ∧ (tTrans .put).chip = (tPktOf (.e2eAck 128 true) 0).src ∧
      (tTrans .put).poisoned = false ∧
      ∀ o ∈ [true, false], (tTaken (tPktOf (.openReply 0 0) 0) fun l => { l with transfers := [{ tTrans .put with opened := o }] }).transfer? 7
        = some { tTrans .put with opened := o }) ∧
    ∃ (s : State) (p : Pkt) (tick : Nat), s.running = true ∧ s.link.heldColl = [(0, tick, p)] ∧ tick + 100000 ≤ s.tmr.elapsed := by
  refine ⟨fun dst h => ?_, by decide +kernel,
    ⟨{ tPktOf (.readRequest 0 64) 0 with dst := 2 }, ?_⟩, by decide +kernel, by decide +kernel, by decide +kernel,
    ⟨by decide +kernel, { tDeliver (tPktOf (.openRange (2 ^ 52) 128 2 0) 0) id with
      mem := { tUp.mem with allocs := [⟨1, 0, 0, 4096⟩] } }, rfl, by decide, by decide +kernel, by decide +kernel⟩, by decide +kernel,
    ⟨(tNet tPortUp fun l => { l with heldColl := [(0, 0, tPktOf (.slice 3 1 0x0905 0 0 64 64) 64)] }).tCount 100000,
      _, 0, by decide, rfl, by decide⟩⟩
  · fin_cases h
    · exact ⟨tNet tPortUp id, _, by decide, by decide, test_wire_good 1 (by simp), rfl, by decide +kernel⟩
    · exact ⟨tNet tPortUp id, _, by decide, by decide, test_wire_good 2 (by simp), rfl, by decide +kernel⟩
  · obtain ⟨q, h, -⟩ := test_ok (p := fun _ => true) (x := (tNet tPortUp id).tryRoute
      { tPktOf (.readRequest 0 64) 0 with dst := 2, ttl := 1 }) (by decide +kernel)
    exact ⟨q, by decide, by decide, h⟩

/-! ### Witnesses: power, temperature, coolant -/

def tPwr (f : Power → Power) : State := { tUp with pwr := f tUp.pwr }
def tTherm (f : Therm → Therm) : State := { tUp with therm := f tUp.therm }
def tTrivet : State := { tUp with boot := { tUp.boot with trivet := true } }

theorem test_witness_KeepwarmSet :
    (∃ (s : State) (r : CmdRec), Ready s (.keepwarmSet tEnv 2000 100) tEnv r) ∧
    (∃ (s : State) (r : CmdRec) (e : Env), s.working = true ∧ s.boot.stage = 9 ∧ s.q.recs = [r] ∧
      r.cmd = .keepwarmSet e 2000 100 ∧ r.env = e ∧ r.phase = .waiting ∧ e.launch.toNat ≤ s.tmr.count ∧ e.atTick = true ∧
      s.boundOk r = true) ∧
    ∃ p, Arriving tUp (.keepwarmSet tEnv 4001 0) tEnv p ∧ tUp.envelopeOk (opcodeOf (.keepwarmSet tEnv 4001 0)) tEnv := by
  refine ⟨⟨_, _, test_up_ready _⟩, ?_, ⟨tPair, ⟨by decide, by decide, by decide, by decide, by decide⟩,
    by unfold State.envelopeOk; decide⟩⟩
  let e : Env := { tEnv with atTick := true, launch := 9 }
  let r : CmdRec := { tRecOf (.keepwarmSet e 2000 100) e with phase := .waiting }
  exact ⟨({ tUp with q := { tUp.q with recs := [r] } } : State).tCount 9, r, e, by decide, by decide, rfl, rfl, rfl, rfl, by decide,
    rfl, by decide⟩

theorem test_witness_PowerCommands :
    (∃ (s : State) (r : CmdRec), Ready s (.pwrLimits tEnv 3000 0 0 0 0) tEnv r) ∧
    (∃ (s u : State) (r : CmdRec) (n : Byte) (k : Nat) (vs : List Nat), Ready s (.phaseTableSet tEnv 0x3000000000000 n) tEnv r ∧ n ≠ 0 ∧
      k = (s.started r).keyAt tEnv (0x3000000000000 : U64).toNat (8 * n.toNat) true false ∧
      u = (s.started r).touch k (8 * n.toNat) ∧ vs = ((List.range n.toNat).map fun i => u.readNat (k + 8 * i) 8) ∧
      (∀ v ∈ vs, v < 512 ∧ v % 16 ≤ v / 16 % 16) ∧ u.running = true) ∧
    (∃ (s : State) (r : CmdRec), Ready s (.mgrHeartbeat tEnv 5) tEnv r ∧ s.pwr.mgrLost = false) ∧
    (∃ (s : State) (r : CmdRec), Ready s (.pwrQuery tEnv) tEnv r) ∧
    ((tUp.pwr.withLimits 3000 0 0 0 0).cap ≠ tUp.pwr.cap ∧ (tUp.pwr.withLimits 0 2000 0 0 0).cap ≠ tUp.pwr.cap ∧
      (({ tUp.pwr with mgrLost := true } : Power).withLimits 0 0 0 1000 0).cap ≠ ({ tUp.pwr with mgrLost := true } : Power).cap) ∧
    ∃ s : State, s.running = true ∧ s.pwr.timeout ≠ 0 ∧ s.pwr.mgrLost = false ∧
      s.pwr.timeout ≤ (s.tmr.elapsed - s.pwr.lastBeat) / 100000 :=
  ⟨⟨_, _, test_up_ready _⟩, ⟨_, (tUp.tWith (.phaseTableSet tEnv 0x3000000000000 1) tEnv).started (tRecOf (.phaseTableSet tEnv 0x3000000000000 1) tEnv), _, 1, _, [0],
      test_up_ready _, by decide, rfl, (touch_clean rfl rfl _ _).symm, by decide +kernel, by decide, by decide⟩,
    ⟨_, _, test_up_ready _, by decide⟩, ⟨_, _, test_up_ready _⟩, by decide,
    ⟨(tPwr fun p => { p with timeout := 5000 }).tCount 500000000, by decide, by decide, by decide, by decide⟩⟩

/-- A thousand samples of 2,000 W, all at OP0 and full duty. -/
def tSampled (f : Power → Power) : State :=
  tPwr fun p => f { p with samples := List.replicate 1000 2000, scales := List.replicate 1000 (scaleOf 0 16) }

theorem test_witness_PowerRows :
    (∀ mv ∈ [(48001 : Int), -501], 48000 < mv ∨ mv < -500) ∧
    (∀ mv ∈ [(28000 : Int), 48000], 28000 ≤ mv ∧ mv ≤ 48000 ∧ tTrivet.pins.rails = true ∧ tTrivet.pins.vinPresent = true ∧
      tTrivet.alive = true ∧ tTrivet.boot.trivet = true) ∧
    (∀ mv ∈ [(32000 : Int), 40000], 32000 ≤ mv ∧ mv ≤ 40000) ∧ (∀ mv ∈ [(30000 : Int), 31999], 30000 ≤ mv ∧ mv < 32000) ∧
    (tUp.pins.rails = true ∧ tUp.working = true ∧ tUp.pins.vinPresent = true ∧ tUp.pwr.clamp = false ∧ tUp.pwr.high40 = 0 ∧
      tUp.pwr.high42 = 0 ∧ 1 ≤ tUp.pwr.duty) ∧
    (∀ mv ∈ [(-500 : Int), 27999], -500 ≤ mv ∧ mv < 28000) ∧
    (∃ (s : State) (n : Nat), n = min s.pwr.window s.pwr.samples.length ∧ n ≠ 0 ∧ s.working = true ∧
      97 * s.pwr.peakCap * n ≤ 100 * (s.pwr.samples.take n).sum ∧ s.pwr.dutyAt + 500 ≤ s.tmr.elapsed) ∧
    (∃ (s : State) (f q : Nat), s.running = true ∧ 1000 ≤ s.pwr.samples.length ∧ s.pwr.capFall = 0 ∧
      s.pwr.fastest f s.pwr.duty = some q) ∧
    (∃ s : State, s.working = true ∧ s.pwr.capFall = 1) ∧
    (∃ s : State, s.working = true ∧ s.pwr.capFall = 4 ∧ 16 ≤ s.pwr.duty) ∧
    (∃ s : State, s.working = true ∧ s.pwr.capFall = 4 ∧ s.pwr.duty < 16 ∧ s.tmr.elapsed < s.pwr.settledAt + 500) ∧
    (∃ (s : State) (f : Nat), s.working = true ∧ s.pwr.capFall = 4 ∧ s.pwr.duty < 16 ∧ s.pwr.dutyAt + 500 ≤ s.tmr.elapsed ∧
      s.pwr.settledAt + 500 ≤ s.tmr.elapsed ∧ s.pwr.settling = none ∧ s.pwr.fits f s.pwr.op (s.pwr.duty + 1) = true) ∧
    (∃ (s : State) (q : Nat), s.working = true ∧ s.pwr.settling = some q) ∧
    ∃ s : State, s.running = true ∧ s.tmr.count % 1024 = 0 ∧ s.pwr.rampOff = true ∧ s.fillBeat = true :=
  ⟨by decide, by decide, by decide, by decide, by decide, by decide,
    ⟨(tSampled fun p => { p with window := 100, peakCap := 2000 }).tCount 500, 100, by decide +kernel, by decide, by decide,
      by decide +kernel, by decide⟩,
    ⟨tSampled id, 2000, 0, by decide, by decide +kernel, by decide, by decide +kernel⟩,
    ⟨tPwr fun p => { p with capFall := 1 }, by decide, rfl⟩,
    ⟨tPwr fun p => { p with capFall := 4, duty := 16 }, by decide, rfl, by decide⟩,
    ⟨(tPwr fun p => { p with capFall := 4, duty := 15, settledAt := 1 }).tCount 500, by decide, rfl, by decide, by decide⟩,
    ⟨(tSampled fun p => { p with capFall := 4, duty := 15, settledAt := 0 }).tCount 500, 2000, by decide, rfl, by decide, by decide,
      by decide, rfl, by decide +kernel⟩,
    ⟨tPwr fun p => { p with settling := some 3 }, 3, by decide, rfl⟩,
    ⟨(tPwr fun p => { p with ramp := 0, phases := p.phases.map fun _ => 0x100 }).tCount 1024, by decide, by decide, by decide, by decide +kernel⟩⟩

theorem test_witness_ThermalRows :
    tUp.alive = true ∧ (1840 : Int) ≤ 1840 ∧ ((1839 : Int) < 1840 ∧ (1680 : Int) ≤ 1680 ∧ tUp.boot.trivet = false) ∧
    ((1519 : Int) < 1520 ∧ tUp.running = true ∧ (∀ ci ∈ [(240 : Int), tUp.therm.inletMax * 16], 240 ≤ ci ∧ ci ≤ tUp.therm.inletMax * 16) ∧
      tUp.therm.inletOut = false) ∧
    (∃ s : State, s.alive = true ∧ s.running = true ∧ s.therm.throttle = true ∧ 1520 ≤ s.therm.tempMax ∧
      s.therm.throttleAt + 100000 ≤ s.tmr.elapsed) ∧
    (∀ d ∈ [49999, 50000], ∃ (s : State) (x : Nat), s.alive = true ∧ s.therm.pulses.head? = some x ∧ s.tmr.elapsed = x + d) ∧
    (∃ (s : State) (a : Nat), s.alive = true ∧ s.working = true ∧ s.boot.stage ≠ 9 ∧ s.flowReady = true ∧ s.flow < 2000 ∧
      s.therm.lowSince = some a ∧ a + 5000000 ≤ s.tmr.elapsed ∧ s.pwr.simmer = false) ∧
    ∃ (s : State) (a : Nat), s.alive = true ∧ s.working = true ∧ s.pwr.simmer = true ∧ s.pwr.goodSince = some a ∧
      a + 1000000000 ≤ s.tmr.elapsed :=
  ⟨by decide, by decide, by decide, by decide,
    ⟨(tTherm fun t => { t with throttle := true, tempMax := 1520 }).tCount 100000, by decide, by decide, rfl, by decide, by decide⟩,
    fun d h => ⟨(tTherm fun t => { t with pulses := [0] }).tCount d, 0, by fin_cases h <;> decide, by fin_cases h <;> decide,
      by fin_cases h <;> decide⟩,
    ⟨({ tUp with boot := { tUp.boot with stage := 8 }, therm := { tUp.therm with flowK := 100, lowSince := some 0 } } : State).tCount 5000000,
      0, by decide, by decide, by decide, by decide, by decide, rfl, by decide, rfl⟩,
    ⟨(tPwr fun p => { p with simmer := true, goodSince := some 0 }).tCount 1000000000, 0, by decide, by decide, rfl, rfl, by decide⟩⟩

/-! ### Witnesses: safety, repair, trace -/

theorem test_witness_KatInterval :
    (∃ (s : State) (r : CmdRec), Ready s (.katCfg tEnv 10) tEnv r) ∧
    (∃ s : State, s.running = true ∧ s.health.katAt + 100000 * s.health.katCur ≤ s.tmr.elapsed) ∧
    (∃ s : State, s.tmr.elapsed < s.health.katAt + 100000 * s.health.katCur) ∧
    ∀ ms ∈ [(9 : U32), 1001], (∃ p, Arriving tUp (.katCfg tEnv ms) tEnv p) ∧ tUp.envelopeOk 0x0B04 tEnv ∧
      (ms.toNat < 10 ∨ 1000 < ms.toNat) := by
  refine ⟨⟨_, _, test_up_ready _⟩, ⟨tUp.tCount (10 ^ 9), by decide, by decide⟩, ⟨tUp, by decide⟩, fun ms h => ?_⟩
  fin_cases h <;> exact ⟨⟨tPair, ⟨by decide, by decide, by decide, by decide, by decide⟩⟩,
    by unfold State.envelopeOk; decide, by decide⟩

theorem test_witness_RepairCommit : ∃ (s t : State) (r q : CmdRec), Ready s (.repairCommit tEnv false) tEnv r ∧
    Ready t (.repairCommit tEnv true) tEnv q := ⟨_, _, _, _, test_up_ready _, test_up_ready _⟩

/-- Package flash with one valid copy of a record at an offset. -/
def tFlash (off type : Nat) (body : List Byte) : State := tUp.writeBytes (mkKey 5 off) (flashSealed type 7 body)

theorem test_witness_FlashTwoCopies : ∃ (s : State) (body : List Byte) (o : Nat), s.mem.wf = true ∧ s.grid.stackFailed = [] ∧
    body.length + 32 ≤ 65536 ∧ s.flashCopy 2 = some o ∧ s.flashSeq o + 1 < 2 ^ 32 ∧ 0 < 65536 :=
  ⟨tFlash ((flashCopies 2).headD 0) 2 [1, 0, 3, 4, 0, 0, 0, 0], [1, 0, 3, 5, 0, 0, 0, 0], (flashCopies 2).headD 0,
    by decide +kernel, by decide +kernel, by decide, by decide +kernel, by decide +kernel, by decide⟩

/-- Dies 0 and 3 in a remap: the map in force stands in the state. -/
def tMapped : State := tUp.modGrid fun g => { g with
  remaps := [⟨0, 3, 4, [3], List.replicate 80 (List.range 80), [9]⟩, ⟨3, 3, 4, [3], List.replicate 80 (List.range 80), [249]⟩] }

theorem test_witness_HealthCommands :
    (∃ (s : State) (r : CmdRec), Ready s (.scrubCfg tEnv 10 300) tEnv r) ∧
    (∃ (s : State) (r : CmdRec), Ready s (.selftest tEnv 3) tEnv r ∧ (3 : Byte) ≠ 0) ∧
    (∃ (s : State) (cmd m : Nat), s.running = true ∧ s.health.selftest = [(cmd, m)] ∧ m % 4 ≠ 0 ∧ s.testable 3 79 81 = true) ∧
    (∃ (s : State) (r : CmdRec) (k : Nat), Ready s (.healthQuery tEnv 0x3000000000000 64) tEnv r ∧ (64 : U32) ≠ 0 ∧
      (s.started r).heldAddr tEnv (0x3000000000000 : U64).toNat (64 : U32).toNat false true = some k) ∧
    (∃ (s : State) (r : CmdRec), Ready s (.traceCfg tEnv 0x3000000000000 64 1) tEnv r ∧ (64 : U32) ≠ 0) ∧
    ∃ (s : State) (r : CmdRec) (k : Nat), Ready s (.dump tEnv 0x3000000000000 0x100000 7 0) tEnv r ∧ (0x100000 : U32) ≠ 0 ∧
      (s.started r).heldAddr tEnv (0x3000000000000 : U64).toNat (0x100000 : U32).toNat false true = some k ∧
      32 + ((s.started r).dumpBody tEnv (7 : Byte).toNat (0 : U32).toNat).length ≤ (0x100000 : U32).toNat :=
  ⟨⟨_, _, test_up_ready _⟩, ⟨_, _, test_up_ready _, by decide⟩,
    ⟨{ tMapped with health := { tUp.health with selftest := [(4, 3)] } }, 4, 3, by decide, rfl, by decide, by decide +kernel⟩,
    ⟨_, _, _, test_up_ready _, by decide, rfl⟩, ⟨_, _, test_up_ready _, by decide⟩,
    ⟨_, _, _, test_up_ready _, by decide, rfl, by decide +kernel⟩⟩

def tMoved : Remap := ⟨0, 3, 4, [3], [], [9]⟩

theorem test_witness_SelfTestAndFaultRows :
    (∃ (s : State) (c : Nat), s.running = true ∧ s.grid.hasCore c = true ∧ s.inPartition c = true) ∧
    (∃ s : State, s.running = true ∧ (∀ k ∈ [3, 4, 5], ∀ d ∈ [0, 3], 3 ≤ k ∧ k ≤ 5 ∧ d ≤ 3 ∧ s.grid.elements.contains ⟨k, d, 0⟩ = false) ∧
      ∀ x ∈ [(0, 0, 0), (3, 79, 81)], s.testable x.1 x.2.1 x.2.2 = true) ∧
    (∃ s : State, s.working = true ∧ s.boot.stage = 9 ∧ s.mem.wf = true ∧ s.grid.stackFailed = [] ∧
      s.health.wearAt + 360000000000 ≤ s.tmr.elapsed ∧ s.health.logHours + 24 ≤ s.health.hours) ∧
    ∃ (s : State) (m : Remap), s.working = true ∧ s.boot.stage = 9 ∧ s.grid.remaps = [m] ∧ s.movedQuiet m = true :=
  ⟨⟨{ tUp with jobs := [tJob1] }, 0, by decide, by decide, by decide⟩, ⟨tMapped, by decide, by decide, by decide +kernel⟩,
    ⟨({ tUp with health := { tUp.health with hours := 24 } } : State).tCount 360000000000, by decide, rfl, by decide, rfl, by decide,
      by decide⟩,
    ⟨{ tUp with grid := { tUp.grid with remaps := [tMoved] } }, tMoved, by decide, rfl, rfl, by decide⟩⟩

def tScrub : State := { tUp with
  boot := { tUp.boot with ddrZeroed := 1 }, grid := { tMapped.grid with ddrGib := List.replicate 16 1 }
  health := { tUp.health with hbmDue := [(0, 0, 5)] } }

theorem test_witness_ScrubRows : ∃ s : State, s.working = true ∧ s.mem.upsets = [] ∧ 8 ≤ s.boot.stage ∧
    (∀ x ∈ [(0, 0, 0), (3, 79, 81)], x.1 < 4 ∧ x.2.1 < 80 ∧ x.2.2 < 82 ∧ s.grid.failed.contains x = false) ∧
    (∃ c, s.grid.coreAt 0 0 0 = some c ∧ ∀ o ∈ [0, 2 ^ 18 - 1], o < 2 ^ 18 ∧ s.mem.poisonedAt (sramKey c + o) = false) ∧
    s.grid.coreAt 3 79 81 = none ∧
    (s.rangeOk (mkKey 0 0) 1 = true ∧ hbmStack 0 = 0 ∧ hbmPc 0 = 0 ∧ s.mem.poisonedAt (mkKey 0 0) = false) ∧ s.evc.ringN = 0 ∧
    s.health.hbmDue.contains (0, 0, 5) = true ∧
    s.rangeOk (mkKey 1 0) 1 = true ∧ s.grid.ddrChannel 0 = some 0 ∧ s.ddrZeroedAt 0 = true ∧
    s.mem.poisonedAt (mkKey 1 0) = false :=
  ⟨tScrub, by decide, rfl, by decide, by decide, ⟨0, by decide +kernel, by decide⟩, by decide +kernel, by decide, rfl, by decide,
    by decide, by decide, by decide, by decide⟩

/-- R161 by hand: channels of 1, 2, 0 and 2 GiB give a band of three channels up to 3 GiB, then one of two. -/
theorem test_ddr_bands : let g := { tUp.grid with ddrGib := [1, 2, 0, 2] }
    g.ddrChannel 0 = some 0 ∧ g.ddrChannel (2 * 4096) = some 3 ∧ g.ddrChannel (3 * 4096) = some 0 ∧
    g.ddrChannel (3 * 2 ^ 30) = some 1 ∧ g.ddrChannel (3 * 2 ^ 30 + 4096) = some 3 ∧ g.ddrChannel (5 * 2 ^ 30) = none := by decide

/-- Two rows of 16 bytes that together cover an HBM word (R171). -/
theorem test_rows_cover_word : let s := { tUp with mem := { tUp.mem with poison := [0, 32] } }
    (s.coverWords [(0, 16), (16, 16), (32, 16)]).mem.poison = [32] := by decide

/-! ### Witnesses: firmware, identity, attestation -/

def tStage (n : Nat) : State := { tUp with boot := { tUp.boot with stage := n } }

/-- What `Ready` asks, but for the stage. -/
theorem test_ready8 (i : Instr) : ((tStage 8).tWith i tEnv).working = true ∧ ((tStage 8).tWith i tEnv).boot.stage = 8 ∧
    ((tStage 8).tWith i tEnv).fetched? i tEnv = some (tRecOf i tEnv) ∧
    ((tStage 8).tWith i tEnv).startable (tRecOf i tEnv) = true ∧ ((tStage 8).tWith i tEnv).boundOk (tRecOf i tEnv) = true :=
  ⟨show (tStage 8).working = true by decide, rfl, by simp [State.fetched?, State.tWith, tRecOf], by
    simp [State.startable, State.orderOk, State.predecessor, State.recsOf, State.fenceOk, State.tWith, tRecOf], by
    simp [State.boundOk, tRecOf]⟩

theorem test_witness_FirmwareAndIdentity :
    (∃ (s u : State) (r : CmdRec) (k : Nat) (bs : List Byte) (code detail : Nat), s.working = true ∧ s.boot.stage = 8 ∧
      s.fetched? (.fwLoad tEnv 0x3000000000000 512) tEnv = some r ∧ s.startable r = true ∧ s.boundOk r = true ∧ s.addrsHeld (.fwLoad tEnv 0x3000000000000 512) = true ∧ (512 : U32) ≠ 0 ∧
      k = (s.started r).keyAt tEnv (0x3000000000000 : U64).toNat (512 : U32).toNat true false ∧
      u = (s.started r).touch k (512 : U32).toNat ∧ bs = u.readBytes k (512 : U32).toNat ∧
      u.imageFail bs = some (code, detail) ∧ fieldAt bs 16 4 = 0 ∧ bs.length = 512 + fieldAt bs 12 4) ∧
    (∃ (s : State) (r : CmdRec), Ready s (.fwLoad tEnv 0 512) tEnv r) ∧
    (∃ (s : State) (f : FwImage), s.working = true ∧ s.boot.stage = 8 ∧ s.boot.accepted = some f) ∧
    (∃ (s : State) (r : CmdRec), Ready s (.idQuery tEnv) tEnv r) ∧
    ∃ (s : State) (r : CmdRec) (k : Nat) (bs : List Byte), Ready s (.flashRecordRead tEnv 2 0x3000000000000 64) tEnv r ∧
      (64 : U32) ≠ 0 ∧ (s.started r).flashRecord (2 : Byte).toNat = some bs ∧ bs.length ≤ (64 : U32).toNat ∧
      (s.started r).heldAddr tEnv (0x3000000000000 : U64).toNat (64 : U32).toNat false true = some k := by
  obtain ⟨h1, h2, h3, h4, h5⟩ := test_ready8 (.fwLoad tEnv 0x3000000000000 512)
  let i : Instr := .fwLoad tEnv 0x3000000000000 512
  exact ⟨⟨_, ((tStage 8).tWith i tEnv).started (tRecOf i tEnv), _, _, _, 0x0501, 0, h1, h2, h3, h4, h5, by decide +kernel, by decide, rfl,
      (touch_clean (by decide +kernel) (by decide +kernel) _ _).symm, rfl, by decide +kernel, by decide +kernel, by decide +kernel⟩,
    ⟨_, _, test_up_ready _⟩, ⟨{ tStage 8 with boot := { (tStage 8).boot with accepted := some ⟨1, 0, 1⟩ } }, _, by decide, rfl, rfl⟩,
    ⟨_, _, test_up_ready _⟩,
    ⟨_, _, _, flashSealed 2 7 [1, 0, 3, 4, 0, 0, 0, 0], test_ready (tFlash 0x20000 2 [1, 0, 3, 4, 0, 0, 0, 0]) _ _ (by decide +kernel)
      (by decide +kernel), by decide, by decide +kernel, by decide +kernel, rfl⟩⟩

theorem test_witness_Attestation :
    (∃ (s : State) (r : CmdRec), s.working = true ∧ (s.boot.stage = 8 ∨ s.boot.stage = 9) ∧
      s.fetched? (.attest tEnv 0x3000000000000 0 5) tEnv = some r ∧ s.startable r = true ∧ s.boundOk r = true) ∧
    (∀ n ∈ [8, 9], ∃ (s : State) (r : CmdRec) (k : Nat), s.working = true ∧ s.boot.stage = n ∧
      s.fetched? (.attest tEnv 0x3000000000000 256 5) tEnv = some r ∧ s.startable r = true ∧ s.boundOk r = true ∧ (256 : U32) ≠ 0 ∧
      (s.started r).heldAddr tEnv (0x3000000000000 : U64).toNat (256 : U32).toNat false true = some k) ∧
    ∃ p, Arriving tUp (.attest tEnv 0x3000000000000 255 5) tEnv p ∧ tUp.envelopeOk 0x0C02 tEnv ∧ (255 : U32) ≠ 0 ∧
      (255 : U32).toNat < 256 ∧ (tUp.addr tEnv (0x3000000000000 : U64).toNat (255 : U32).toNat false true).isSome = true := by
  refine ⟨?_, fun n h => ?_, tPair, ⟨by decide, by decide, by decide, by decide, by decide⟩,
    by unfold State.envelopeOk; decide, by decide, by decide, by decide⟩
  · obtain ⟨h1, h2, h3, h4, h5⟩ := test_ready8 (.attest tEnv 0x3000000000000 0 5)
    exact ⟨_, _, h1, .inl h2, h3, h4, h5⟩
  · fin_cases h
    · obtain ⟨h1, h2, h3, h4, h5⟩ := test_ready8 (.attest tEnv 0x3000000000000 256 5)
      exact ⟨_, _, _, h1, h2, h3, h4, h5, by decide, rfl⟩
    · have h := test_up_ready (.attest tEnv 0x3000000000000 256 5)
      exact ⟨_, _, _, h.works, h.stage, h.record, h.order, h.bound, by decide, rfl⟩

theorem test_witness_ManagementRows :
    (∀ s ∈ [tStage 3, tStage 4], ({ s with side := { s.side with dynAddr := some 9 } } : State).spdmOpen .doe = true ∧
      ({ s with side := { s.side with dynAddr := some 9 } } : State).spdmOpen .mctp = true ∧
      ({ s with side := { s.side with dynAddr := some 9 } } : State).sideOpen = true ∧ s.alive = true) ∧
    (∀ n ∈ [1, 2], (tStage n).alive = true ∧ (tStage n).boot.stage < 3) ∧
    ((tStage 3).boot.stage < 4 ∧ 3 ≤ (tStage 3).boot.stage ∧ 4 ≤ (tStage 4).boot.stage) ∧
    (∃ (s : State), s.spdmOpen .doe = true ∧ 4 ≤ s.boot.stage ∧ (7 : U16).toNat < s.certChain.length) ∧
    tUp.sideReadable 0x40010 = true ∧ ((3 : Byte) ∉ [1, 2, 4, 5]) :=
  ⟨by decide, by decide, by decide, ⟨tFlash ((flashCopies 5).headD 0) 5 [1, 2, 3, 4, 5, 6, 7, 8], by decide +kernel, by decide +kernel,
    by decide +kernel⟩, by decide, by decide⟩

/-! ### Witnesses: pins, test port, boot, registers, fetch -/

def tPins (f : Pins → Pins) : State := { tUp with pins := f tUp.pins }

theorem test_witness_PinRows :
    (∀ b ∈ [true, false], (tPins fun p => { p with resetN := b }).pins.pwrGood = true ∧
      (tPins fun p => { p with resetN := b }).pins.resetN = b) ∧ (tPins fun p => { p with pwrEn := false }).pins.pwrEn = false ∧ (32000 : Int) ≤ 32000 ∧
    (tPins fun p => { p with rails := false }).pins.rails = false ∧
    (∃ s : State, s.pins.rails = true ∧ s.pins.pwrGood = false) ∧ tUp.pins.pwrEn = true ∧
    (∃ s : State, s.pins.hardOff = true ∧ s.pins.pwrEn = false) ∧ (tUp.pins.resetN = true ∧ tUp.mem.wf = true) ∧
    ∀ i ∈ [TapIr.extest, .bypass], (tPins fun p => { p with resetN := false, tap := i }).pins.resetN = false ∧
      (tPins fun p => { p with resetN := false, tap := i }).pins.tap = i :=
  ⟨by decide, rfl, by decide, rfl, ⟨tPins fun p => { p with pwrGood := false }, by decide, rfl⟩, by decide,
    ⟨tPins fun p => { p with hardOff := true, pwrEn := false }, rfl, rfl⟩, by decide, by decide⟩

/-- A boot stage's outcome with nothing failed. -/
def tBoot : BootResult := ⟨5, true, true, 0, List.replicate 24 (List.replicate 16 0xFF), none, false, [], [], none, [], none, [], List.replicate 16 none⟩

/-- Channel A with a DIMM that reaches none of the rates it offers. -/
def tSlow : BootResult := { tBoot with dimms := some ⟨.rdimm, 64, [56], 48⟩ :: List.replicate 15 none }

/-- Stage 4 with an identity record of 584 bytes. -/
def tIdent : State := (tStage 4).writeBytes (mkKey 5 8) [0x48, 2, 0, 0]

/-- The outcome whose stack IDs are those of the identity record. -/
def tStacks : BootResult := { tBoot with stackIds := (List.range 24).map fun h => slice tIdent.identityRecord (200 + 16 * h) 16 }

theorem test_stacks_right : tIdent.wrongStack tStacks.stackIds = none := by
  simp only [State.wrongStack, List.find?_eq_none, List.mem_range, tStacks]
  intro h hh
  simp [List.getD_eq_getElem?_getD, hh]

theorem test_witness_BootStages :
    (∀ n ∈ [1, 2, 3, 4, 5, 6, 7, 8], (tStage n).working = true ∧ (tStage n).boot.stage = n) ∧
    (tIdent.working = true ∧ tIdent.boot.stage = 4) ∧ (tBoot.romOk = true ∧ ({ tBoot with romOk := false } : BootResult).romOk = false ∧
      ({ tBoot with flashOk := false } : BootResult).flashOk = false ∧ tBoot.flashOk = true ∧
      ({ tBoot with railFail := some 2 } : BootResult).railFail = some 2 ∧
      tStacks.railFail = none ∧ tIdent.wrongStack tStacks.stackIds = none ∧ tIdent.wrongStack [] = some 0 ∧ tBoot.failedPair = none ∧ tBoot.badStack = none ∧
      bootDdrDisabled tBoot = [] ∧ tSlow.badStack = none ∧ bootDdrDisabled tSlow ≠ []) ∧
    (∃ s : State, s.working = true ∧ 8 ≤ s.boot.stage ∧ s.boot.ddrZeroed < s.grid.ddrUnits) ∧
    ((tStage 6).grid.failed = [] ∧ (tStage 6).flashRecord 2 = none) :=
  ⟨by decide, by decide +kernel, ⟨by decide +kernel, by decide +kernel, by decide +kernel, by decide +kernel, by decide +kernel, rfl, test_stacks_right, by decide +kernel⟩, ⟨{ tStage 8 with grid := { tUp.grid with ddrGib := [1] } }, by decide, by decide, by decide⟩, by decide +kernel⟩

/-- Queue pair 0 with one entry in its SQ. -/
def tFetch (entry : List Byte) : State :=
  ({ tUp with q := { tUp.q with pairs := [{ tPair with sqTail := 1 }] } } : State).writeBytes (keyOf 0x3000000001000) entry

/-- The entry of a command without parameters: opcode at byte 0, CTX 0x3FF (Table 3.3). -/
def tSqe (op : Nat) (rest : List Byte) : List Byte := leBytes 2 op ++ rest

theorem test_witness_RegisterAndFetchRows :
    tUp.working = true ∧ ((6 : U32).toNat % (8 : Byte).toNat ≠ 0 ∧ (8 : Byte) ≠ 0) ∧
    (∀ off ∈ [(4 : U32), 0xFFFFFC], (4 : Byte) ≠ 0 ∧ (4 : Byte) ≠ 8 ∧ off.toNat % (4 : Byte).toNat = 0 ∧
      off.toNat + (4 : Byte).toNat ≤ 2 ^ 24) ∧
    (∀ off ∈ [(0x4000 : U32), 0xFFFE, 0x14000, 0x1FFFE], (2 : Byte) ≠ 0 ∧ off.toNat % (2 : Byte).toNat = 0 ∧
      off.toNat + (2 : Byte).toNat ≤ 2 ^ 18 ∧
      (0x4000 ≤ off.toNat ∧ off.toNat < 0x10000 ∨ 0x14000 ≤ off.toNat ∧ off.toNat < 0x20000)) ∧
    ((0 : U16).toNat < 2048 ∧ ∃ t, exec (.sqTailDoorbell 0 1) tUp = .next t) ∧
    ((tStage 8).working = true ∧ (tStage 8).boot.stage ≠ 9 ∧ tUp.boot.stage = 9) ∧
    (∀ off ∈ [(0 : U32), 0x5FFF8], off.toNat % 8 = 0 ∧ off.toNat < 0x60000) ∧ tUp.eligible = [] ∧
    ∃ p : QPair, (tFetch []).eligible = [p.id] ∧ (tFetch []).pair? p.id = some p :=
  ⟨by decide, by decide, by simp, by simp, ⟨by decide, tUp.modPair 0 fun p => { p with sqTail := 1 }, rfl⟩, by decide, by simp,
    by decide, { tPair with sqTail := 1 }, by decide +kernel, by decide +kernel⟩

def tRead (op : Nat) : Env × Option Instr := decodePacket 0 ((tFetch (tSqe op [])).readBytes (keyOf 0x3000000001000) 64)

/-- An entry that cannot be read, and an undefined opcode, a NOP and a CTX_PIN that can. -/
theorem test_witness_SqFetch :
    (∃ s : State, s.eligible = [0] ∧ s.rangeOk (keyOf (2 ^ 52 - 64)) 64 = false) ∧
    (∀ op ∈ [0x0000, 0x0101, 0x0207], (tFetch (tSqe op [])).rangeOk (keyOf 0x3000000001000) 64 = true ∧
      ∃ t, t = (tFetch (tSqe op [])).touch (keyOf 0x3000000001000) 64 ∧ t = tFetch (tSqe op []) ∧
        t.poisonedIn (keyOf 0x3000000001000) 64 = false) ∧
    (∃ (s t : State), t = s.touch (keyOf 0x3000000001000) 64 ∧ s.rangeOk (keyOf 0x3000000001000) 64 = true ∧
      t.poisonedIn (keyOf 0x3000000001000) 64 = true) ∧
    (∃ e, decodePacket 0 ((tFetch (tSqe 0 [])).readBytes (keyOf 0x3000000001000) 64) = (e, none)) ∧
    (∃ e, decodePacket 0 ((tFetch (tSqe 0x0101 [])).readBytes (keyOf 0x3000000001000) 64) = (e, some (.nop e))) ∧
    ∃ e b, decodePacket 0 ((tFetch (tSqe 0x0207 [])).readBytes (keyOf 0x3000000001000) 64) = (e, some (.ctxPin e b)) := by
  refine ⟨⟨{ tUp with q := { tUp.q with pairs := [{ tPair with sqTail := 1, sqBase := 0xFFFFFFFFFFFC0 }] } }, by decide, by decide⟩,
    fun op h => ⟨by fin_cases h <;> decide +kernel, tFetch (tSqe op []),
      (touch_clean (by fin_cases h <;> decide +kernel) (by fin_cases h <;> decide +kernel) _ _).symm, rfl,
      by fin_cases h <;> decide +kernel⟩,
    ⟨{ tFetch [] with mem := { (tFetch []).mem with poison := [keyOf 0x3000000001000] } }, _, rfl, by decide +kernel, by decide +kernel⟩, ⟨(tRead 0).1, by decide +kernel⟩, ⟨(tRead 0x0101).1, by decide +kernel⟩, (tRead 0x0207).1, 0,
    by decide +kernel⟩

/-! ### Single rows -/

def tNext (i : Instr) (s : State) : Option State := match exec i s with
  | .next t => some t
  | _ => none

/-- R372: the identification code leaves on TDO. -/
theorem test_idcode : (tNext .idcode tUp).map (·.out) = some [.tdo 32 0x15C4445B] := by decide +kernel

/-- R371: of two pulses less than 500 us apart the second is missed. -/
theorem test_flow_pulse : let s := tTherm fun t => { t with pulses := [0] }
    (tNext .flowPulse (s.tCount 49999)).map (·.therm.pulses) = some [0] ∧
    (tNext .flowPulse (s.tCount 50000)).map (·.therm.pulses) = some [50000, 0] := by decide +kernel

/-- R363: two bytes written where BAR2 has no doorbell write no record. -/
theorem test_no_doorbell : (tNext (.registerWrite 2 0x4000 2 7) tUp).map (·.mem.cells) = some tUp.mem.cells ∧
    (tNext (.registerWrite 2 0x1FFFE 2 7) tUp).map (·.out) = some tUp.out := by decide +kernel

/-! ### Ill-formed commands -/

def tRx (h : TileHdr → TileHdr) : Option Tile := some ⟨h (tTile 0).hdr, [], []⟩
def tHop : Element := ⟨0, 3, 1⟩

/-- A core index beyond the grid, at every command that names one. -/
theorem test_wf_core : (∀ i ∈ [Instr.mma 25600 [], .mmaBt 25600 [], .vec1 25600, .vec2 25600, .vecacc 25600, .red 25600,
    .cvt 25600, .emit 25600, .move 25600, .drop 25600, .oneos 25600, .jump 25600, .ldc 25600, .loop 25600, .ticket 25600,
    .phase 25600, .eosout 25600, .endStep 25600, .wavefrontSourceSwitch 25600, .coreSwitch 25600, .ticketRequest 25600 0 0,
    .ticketReply 25600, .katRound (.core 25600) true 0, .tileSend 25600 0, .ldb 25600 0,
    .streamLoop 25600 0, .stride 25600 0, .shape 25600 0, .fmt 25600 0, .gather 25600 0, .wait 25600 0, .signal 25600 0,
    .run 25600 0, .runIteration 25600 0, .streamJump 25600 0, .endp 25600 0], i.wf = false) ∧ (Instr.mma 25599 []).wf = true := by
  decide

theorem test_wf_engine : (∀ i ∈ [Instr.ldb 0 4, .streamLoop 0 4, .stride 0 4, .shape 0 4, .fmt 0 4, .gather 0 4, .wait 0 4,
    .signal 0 4, .run 0 4, .runIteration 0 4, .streamJump 0 4, .endp 0 4, .tileSend 0 4, .ticketRequest 0 64 0], i.wf = false) ∧
    (Instr.run 0 3).wf = true := by decide

/-- A port beyond TL11. -/
theorem test_wf_port : ∀ i ∈ [Instr.timeMarker 12 0 0 0, .retrain 12 0, .laneFailure 12 0,
    .farEndIdle 12, .linkTrainingComplete 12 [] 0, .identityTimeout 12, .identity 12 0 0 0 0 0,
    .acknowledgement 12 0 0 0, .credit 12 0 0 0 0, .timeProbe 12 0 0 0 0 0 0, .ackTimer 12,
    .creditFrameTimer 12 0 0, .packetReceive 12 true ⟨[], []⟩, .vcStall 12 0, .heldPacketDiscard 12],
    i.wf = false := by decide

theorem test_wf_lane_and_channel : ∀ i ∈ [Instr.laneFailure 0 9, .linkTrainingComplete 0 [9] 0, .linkTrainingComplete 0 [] 256,
    .creditFrameTimer 0 3 0, .vcStall 0 3], i.wf = false := by decide

theorem test_long_packet (n : Nat) (h : 65556 ≤ n) : (Instr.packetReceive 0 true ⟨zeros n, []⟩).wf = false := by
  simp [Instr.wf, zeros]
  omega

/-- A packet longer than LEN can say or with a mark beyond its bytes, and frequencies of too few oscillators. -/
theorem test_wf_packet : (Instr.packetReceive 0 true ⟨zeros 65556, []⟩).wf = false ∧
    (Instr.packetReceive 0 true ⟨[0], [1]⟩).wf = false ∧ (Instr.packetReceive 0 true ⟨tWire 1, []⟩).wf = true :=
  ⟨test_long_packet 65556 (Nat.le_refl _), by decide, by decide +kernel⟩

theorem test_wf_oscillators : (Instr.wearMeasure (List.replicate 255 1) (List.replicate 256 1)).wf = false ∧
    (Instr.wearMeasure (List.replicate 256 1) (List.replicate 255 1)).wf = false ∧
    (Instr.wearMeasure (List.replicate 256 1) (List.replicate 256 1)).wf = true := by decide +kernel

/-- 12 R305: the outlet excess rises by more than 0.1 K in 50 ms, and by just that. -/
theorem test_excess_rising : ({ tUp.therm with excess := [(5000000, 100001), (0, 0)] } : Therm).excessRising = true ∧
    ({ tUp.therm with excess := [(5000000, 100000), (0, 0)] } : Therm).excessRising = false ∧
    ({ tUp.therm with excess := [(4999999, 100001), (0, 0)] } : Therm).excessRising = false := by decide

/-- Every field of a tile header beyond its width, and the hop a tile comes over. -/
theorem test_wf_tile : (∀ f ∈ [fun h : TileHdr => { h with kind := 16 }, fun h => { h with fmt := 16 },
    fun h => { h with scheme := 4 }, fun h => { h with vrows := 33 }, fun h => { h with vcols := 33 },
    fun h => { h with epoch := 65536 }, fun h => { h with stream := 4096 }, fun h => { h with seq := 2 ^ 32 },
    fun h => { h with trow := 65536 }, fun h => { h with tcol := 65536 }, fun h => { h with cscale := 2 ^ 32 },
    fun h => { h with aux := 2 ^ 32 }, fun h => { h with ctx := 1024 }, fun h => { h with crc := 2 ^ 32 }],
    (Instr.tileArrival ⟨0, 0, 0, 0⟩ (tRx f) tHop).wf = false) ∧
    (∀ h ∈ [({ tHop with kind := 6 } : Element), { tHop with dir := 4 }],
      (Instr.tileArrival ⟨0, 0, 0, 0⟩ (tRx id) h).wf = false) ∧ (Instr.tileArrival ⟨0, 0, 0, 0⟩ (tRx id) tHop).wf = true := by decide

/-- Positions, stacks, channels, units, lengths and boot outcomes beyond what the module has. -/
theorem test_wf_places : ∀ i ∈ [Instr.katRound (.core 0) true 4, .katRound (.unit 6 0) true 0, .katRound (.unit 3 4) true 0,
    .lbistCoreRun 4 0 0 true, .lbistCoreRun 0 80 0 true, .lbistCoreRun 0 0 82 true, .coreRemap 4 0 0, .coreRemap 0 80 0,
    .coreRemap 0 0 82, .hbmPatrolScrub 24 0 0 [] [] false, .hbmPatrolScrub 0 32 0 [] [] false, .hbmRowRepair 24 0 0 0 0,
    .hbmRowRepair 0 32 0 0 0, .ddrPatrolScrub 16 [] [], .sramScrub ⟨4, 0, 0⟩ [] [], .sramScrub ⟨0, 80, 0⟩ [] [],
    .sramScrub ⟨0, 0, 82⟩ [] [], .hostMemWrite 0 0 [], .evictionOrRestoreEnd 16,
    .bootStageComplete { tBoot with dimms := [] }, .bootStageComplete { tBoot with elements := [⟨6, 0, 0⟩] },
    .bootStageComplete { tBoot with elements := [⟨0, 0, 4⟩] }, .bootStageComplete { tBoot with stackIds := [] },
    .bootStageComplete { tBoot with stackIds := List.replicate 24 [] }], i.wf = false := by decide

/-! ### Single steps and the manual's worked examples -/

/-- What one command does to a state, seen through a test. -/
def tAfter (i : Instr) (s : State) (p : State → Bool) : Bool :=
  match exec i s with
  | .next t => p t
  | _ => false

/-- R20, R339: reset release gives count 0, UNLOCKED, stage 1. -/
theorem test_reset : State.reset.tmr.count = 0 ∧ State.reset.tmr.lock = .unlocked ∧ State.reset.boot.stage = 1 ∧
    State.reset.pending = [] ∧ State.reset.mem.wf = true ∧ State.reset.evc.wf = true := by decide

/-- R20: the count wraps. -/
theorem test_tick_wraps : tAfter .timerTick (tUp.tCount (2 ^ 64 - 1)) (fun t => t.tmr.count == 0) = true := by decide +kernel

/-- Table 3.9: a NOP that starts ends at once. -/
theorem test_nop : tAfter (.nop tEnv) (tUp.tWith (.nop tEnv) tEnv) (fun t => t.q.recs.isEmpty) = true := by decide +kernel

/-- R302: the floor and the ramp change together; the highest values pass and the next do not. -/
theorem test_keepwarm_set : tAfter (.keepwarmSet tEnv 4000 100000) (tUp.tWith (.keepwarmSet tEnv 4000 100000) tEnv)
    (fun t => t.pwr.floor == 4000 && t.pwr.ramp == 100000) = true ∧ checkKeepwarmSet 4001 0 tUp = some .badParam := by
  decide +kernel

/-- 07 worked example: offset 0x0140_0000_0A00 lies in group 5, stack H16, pseudo-channel 3. -/
theorem test_hbm_offset : hbmGroup 0x014000000A00 = 5 ∧ hbmStack 0x014000000A00 = 16 ∧ hbmPc 0x014000000A00 = 3 := by decide

/-- 06 worked example: one FP32 product at each P. -/
theorem test_fp32_product : (List.range 3).map (fun p => (chunkRound (passProducts p 0x3FAAAAAB 0x40400000)).map (·.1)) =
    [some 0x407F0000, some 0x407FFF00, some 0x40800000] := by decide +kernel

/-- 06 Table 6.5, cases A and B: a NaN product decides the chunk; without it the overflowing product is +Inf. -/
theorem test_overflow_and_nan :
    (chunkRound [(decodeElem 1 0x7F00).mul (decodeElem 1 0x4100), (decodeElem 1 0xFFA5).mul (decodeElem 1 0x3F80)]).map (·.1) =
      some 0x7FC00000 ∧
    (chunkRound [(decodeElem 1 0x7F00).mul (decodeElem 1 0x4100), (decodeElem 1 0x3F80).mul (decodeElem 1 0x3F80)]).map (·.1) =
      some 0x7F800000 := by decide +kernel

/-- 06 worked example: one E2M1 block under S1. -/
theorem test_e2m1_block :
    let vals := [0x41600000, 0x41200000, 0xBEC00000, 0x3FA00000].map (fun x => some (fp32 x)) ++ List.replicate 28 (some .zero)
    let b := convBlock 7 1 (fp32 fp32One) vals
    b.scale = 0x80 ∧ b.elems.take 4 = [0x7, 0x6, 0x8, 0x1] ∧ b.cnt = ⟨1, 1, 0, 0⟩ ∧ b.poison = false := by decide +kernel

/-- 07 worked example: codes and sign bytes of the first elements of a dictionary block. -/
theorem test_dictionary_codes : packCodes [0xC, 0x8, 0x5, 0xC, 0x4, 0x8, 0xF, 0xF] = [0x8C, 0xC5, 0x84, 0xFF] ∧
    packSm 1 ([0x3F80, 0xBF00, 0x3E80, 0x3F80, 0x3C00, 0x3F40, 0xC000, 0x7FC0].map (codecSm 1)) =
      [0x00, 0x80, 0x00, 0x00, 0x00, 0x40, 0x80, 0x40] := by decide +kernel

/-- 10 worked example, Table 10.6, from the ranks of Table 10.5: a tie and an overflow. -/
theorem test_tie_and_overflow :
    let r := { tRouting with
      nexp := 8, topk := 2, capMax := 4, capFactor := 0x3FA00000, spillDepth := 2, renorm := false, gatefn := 0 }
    let p := r.assign ([[2, 5, 1, 6], [2, 5, 0, 3], [2, 7, 5, 0], [2, 5, 0, 7], [0, 2, 5, 7], [3, 4, 6, 1]].map fun l =>
      some ⟨(l.take 2).map some, l.drop 2, fun _ _ => 0⟩)
    r.capacity 6 = 2 ∧ p.combine = [[8, 20], [9, 21], [0, 28], [1, 29], [32, 32], [12, 16]] ∧ p.moved = 3 ∧ p.dropped = 2 ∧
      p.counts = [2, 0, 2, 1, 1, 2, 0, 2] ∧ p.disp = [[2, 3], [], [0, 1], [5], [5], [0, 1], [], [2, 3]] := by decide +kernel

/-- 12 worked example: the rack manager halves a budget. Duty falls to 6/16, and the loop chooses OP11. -/
theorem test_cap_fall : let s := tPwr fun p => { p with
      samples := List.replicate 1000 5000, scales := List.replicate 1000 (scaleOf 0 16), sustainCap := 3000, op := 0, duty := 16
      capFall := 1 }
    tAfter (.capFallDutyStep 1200) s (fun t => t.pwr.duty == 6 &&
      tAfter (.sustainedLoopRun 1200) t (fun u => u.pwr.loopOp == 11 && u.pwr.duty == 6)) = true := by decide +kernel

/-- 13 worked example, its failed row as the middle one of five: it hosts 0-11, 13-50, 52-69, 71-81 at width 79, and its neighbours move 68-78 one east. -/
theorem test_shift_map : let m := sweeps (fun r => if r = 2 then [12, 51, 70] else []) 20000 (List.replicate 5 (List.range 79))
    m.getD 2 [] = List.range 12 ++ (List.range 38).map (· + 13) ++ (List.range 18).map (· + 52) ++ (List.range 11).map (· + 71) ∧
      m.getD 1 [] = List.range 68 ++ (List.range 11).map (· + 69) ∧ m.getD 3 [] = m.getD 1 [] := by decide +kernel

/-- The check value of CRC-32C (public) and the SHA-384 digest of "abc" (FIPS 180). -/
theorem test_checksums : crc32c [0x31, 0x32, 0x33, 0x34, 0x35, 0x36, 0x37, 0x38, 0x39] = 0xE3069283 ∧
    crc32 [0x31, 0x32, 0x33, 0x34, 0x35, 0x36, 0x37, 0x38, 0x39] = 0xCBF43926 := by decide +kernel

theorem test_sha384 : sha384 [0x61, 0x62, 0x63] =
    0xcb00753f45a35e8bb5a03d699ac65007272c32ab0eded1631a8b605a43ff5bed8086072ba1e7cc2358baeca134c825a7 := by decide +kernel

/-- 09 worked example, 16 Table 16.2: a sample beyond the absolute maximum is the one fault. -/
theorem test_beyond_maximum : exec (.vinSample 48001 0) tUp = .fault .beyondAbsoluteMaximum := rfl

end Sys2Proof.Machine
end

section
/-! SUPPORT. Completion only ever ends commands: whatever a completion, a chain or the writing of CQ entries makes of the
queues, each record left was there before, unless it is done. So a command refused at its fetch stands fetched nowhere
(03_commands_and_events.md R49). -/

namespace Sys2Proof.Machine

/-- Every record of `t` is done or stands as it is in `s`. -/
def OnlyCompletes (s t : State) : Prop := ∀ r ∈ t.q.recs, r.isDone = true ∨ r ∈ s.q.recs

theorem OnlyCompletes.of_subset {s t : State} (h : t.q.recs ⊆ s.q.recs) : OnlyCompletes s t := fun _ hr => .inr (h hr)

theorem OnlyCompletes.of_recs {s t : State} (h : t.q.recs = s.q.recs) : OnlyCompletes s t := .of_subset (h ▸ List.Subset.refl _)

theorem OnlyCompletes.refl (s : State) : OnlyCompletes s s := .of_recs rfl

theorem OnlyCompletes.trans {s t u : State} (h : OnlyCompletes s t) (k : OnlyCompletes t u) : OnlyCompletes s u :=
  fun r hr => (k r hr).elim .inl (h r)

/-- A fold of steps that each only complete commands does so too. -/
theorem OnlyCompletes.foldl {α : Type} (f : State → α → State) (h : ∀ s a, OnlyCompletes s (f s a)) :
    ∀ (l : List α) (s : State), OnlyCompletes s (l.foldl f s)
  | [], s => .refl s
  | a :: l, s => (h s a).trans (OnlyCompletes.foldl f h l (f s a))

@[simp] theorem modPair_recs (s : State) (q : Nat) (f : QPair → QPair) : (s.modPair q f).q.recs = s.q.recs := rfl

@[simp] theorem journal_recs (s : State) (op q st : Nat) (d : List Byte) : (s.journal op q st d).q.recs = s.q.recs := by
  simp [State.journal]

@[simp] theorem pairError_recs (s : State) (q c v : Nat) : (s.pairError q c v).q.recs = s.q.recs := by
  unfold State.pairError
  split
  · dsimp only
    split <;> simp
  · rfl

@[simp] theorem writeCq_recs (s : State) (q : Nat) (e : Env) (st : Status) (res : List Byte) (t : Nat) :
    (s.writeCq q e st res t).q.recs = s.q.recs := by
  unfold State.writeCq
  split
  · dsimp only
    split
    · split
      · simp
      · split <;> simp
    · simp
  · rfl

/-- A record after a completion is done, or is an unchanged one of another number. -/
theorem mem_markDone {s : State} {id : Nat} {st : Status} {res : List Byte} {x : CmdRec}
    (h : x ∈ (s.markDone id st res).q.recs) : x.isDone = true ∨ (x ∈ s.q.recs ∧ x.id ≠ id) := by
  unfold State.markDone at h
  split at h
  case h_1 =>
    simp only [trace_q, State.modRec, List.mem_map] at h
    obtain ⟨y, hy, rfl⟩ := h
    have hy : y ∈ s.q.recs := by
      split at hy
      · exact journal_recs _ _ _ _ _ ▸ hy
      · exact hy
    by_cases hid : y.id = id
    · exact .inl (by simp [hid, CmdRec.isDone])
    · exact .inr (by simp [hid, hy])
  case h_2 hnone =>
    exact .inr ⟨h, by simpa using List.find?_eq_none.mp hnone x h⟩

theorem markDone_onlyCompletes (s : State) (id : Nat) (st : Status) (res : List Byte) :
    OnlyCompletes s (s.markDone id st res) := fun _ hx => (mem_markDone hx).imp_right And.left

theorem cancelChain_onlyCompletes (s : State) (id : Nat) (st : Status) : OnlyCompletes s (s.cancelChain id st) := by
  have hfold : ∀ l : List CmdRec, OnlyCompletes s (l.foldl (fun s x => s.markDone x.id .cancelled []) s) := fun l =>
    .foldl _ (fun _ _ => markDone_onlyCompletes _ _ _ _) l s
  unfold State.cancelChain
  dsimp only
  split
  · split
    · exact .refl _
    · split
      · split
        · exact (hfold _).trans (.of_recs (modPair_recs _ _ _))
        · exact hfold _
      · exact (hfold _).trans (.of_recs (modPair_recs _ _ _))
  · exact .refl _

theorem markChain_onlyCompletes (s : State) (id : Nat) (st : Status) (res : List Byte) :
    OnlyCompletes s (s.markChain id st res) := (markDone_onlyCompletes _ _ _ _).trans (cancelChain_onlyCompletes _ _ _)

theorem settle_onlyCompletes : ∀ (n : Nat) (s : State), OnlyCompletes s (s.settle n)
  | 0, s => .refl s
  | n + 1, s => by
    unfold State.settle
    split
    · split
      · refine .trans (.of_subset ?_) (settle_onlyCompletes n _)
        rw [writeCq_recs]
        exact List.filter_subset_self _
      · exact .refl _
    · split
      · refine .trans (.trans (.of_recs ?_) (markChain_onlyCompletes _ _ _ _)) (settle_onlyCompletes n _)
        rfl
      · split
        · exact .of_recs (modPair_recs _ _ _)
        · exact .refl _

/-- A record after `finish` is done, or is an unchanged one of another number. -/
theorem mem_finish {s : State} {id : Nat} {st : Status} {res : List Byte} {x : CmdRec}
    (h : x ∈ (s.finish id st res).q.recs) : x.isDone = true ∨ (x ∈ s.q.recs ∧ x.id ≠ id) :=
  (((cancelChain_onlyCompletes _ id st).trans (settle_onlyCompletes _ _)) x h).elim .inl mem_markDone

/-- A record that enters and completes at once is not left undone. -/
theorem finish_entered_onlyCompletes {s t : State} {id : Nat} (h : ∀ x ∈ t.q.recs, x ∈ s.q.recs ∨ x.id = id) (st : Status)
    (res : List Byte) : OnlyCompletes s (t.finish id st res) := by
  intro x hx
  rcases mem_finish hx with hdone | ⟨hmem, hid⟩
  · exact .inl hdone
  · exact .inr ((h x hmem).resolve_right hid)

theorem takeIn_refused_onlyCompletes (s : State) (i : Instr) (e : Env) (st : Status) :
    OnlyCompletes s (s.takeIn i e (some st)) := by
  unfold State.takeIn
  dsimp only
  split
  · exact .refl _
  · split <;>
    · refine finish_entered_onlyCompletes (fun x hx => ?_) _ _
      rw [modPair_recs, List.mem_append, List.mem_singleton] at hx
      exact hx.imp_right (congrArg CmdRec.id)

/-- A done record is not a fetched one. -/
theorem CmdRec.phase_ne_fetched_of_isDone {r : CmdRec} (h : r.isDone = true) : r.phase ≠ .fetched := by
  intro hp
  simp [CmdRec.isDone, hp] at h

/-- What only completes commands brings no fetched command. -/
theorem OnlyCompletes.fetched {s t : State} (h : OnlyCompletes s t) {i : Instr} {e : Env} (hs : s.fetched? i e = none) :
    t.fetched? i e = none := by
  refine List.find?_eq_none.mpr fun r hr => ?_
  rcases h r hr with hdone | hmem
  · simp [CmdRec.phase_ne_fetched_of_isDone hdone]
  · exact List.find?_eq_none.mp hs r hmem

/-- In an envelope that is in order the first check to fail is the opcode's own (Table 3.8, stages 1 to 4). -/
theorem State.envelopeOk.fetchStatus {s : State} {op : Nat} {e : Env} (h : s.envelopeOk op e) (st : Status) :
    s.fetchStatus op e (some st) = some st := by
  unfold State.envelopeOk State.fetchStatus at h
  unfold State.fetchStatus
  dsimp only at h ⊢
  split at h
  · cases h
  · rfl

/-- 03 R49: an arriving command whose own check fails only enters and completes. -/
theorem command_check_fails {s : State} {i : Instr} {e : Env} {p : QPair} {chk : State → Option Status} {st : Status}
    (h : Arriving s i e p) (henv : s.envelopeOk (opcodeOf i) e) (hst : chk s = some st) (zero : State → Bool)
    (start : Nat → State → State) : command i e chk zero start s = .next (s.takeIn i e (some st)) :=
  command_refused h chk zero start (hst ▸ henv.fetchStatus st) ((takeIn_refused_onlyCompletes s i e st).fetched h.fresh)

end Sys2Proof.Machine
end

section
/-! PROOFS. KAT_CFG and REPAIR_COMMIT (13_safety_repair_wear.md R313, R327). -/

namespace Sys2Proof.Machine

theorem exec_katCfg (e : Env) (ms : U32) (s : State) : exec (.katCfg e ms) s = execKatCfg e ms s := rfl

theorem exec_repairCommit (e : Env) (write : Bool) (s : State) :
    exec (.repairCommit e write) s = execRepairCommit e write s := rfl

/-- R313: both bounds of the interval are allowed. -/
theorem checkKatCfg_eq (ms : U32) (s : State) :
    checkKatCfg ms s = if 10 ≤ ms.toNat ∧ ms.toNat ≤ 1000 then none else some .badParam := by
  simp [checkKatCfg, firstFail]

theorem katTick_due {s : State} (hrun : s.running = true)
    (hdue : s.health.katAt + 100000 * s.health.katCur ≤ s.tmr.elapsed) :
    s.katTick = s.modHealth fun h =>
      { h with rounds := h.rounds + 1, katAt := s.tmr.elapsed, katCur := h.katInterval } := by
  simp [State.katTick, State.elapsed, hrun, hdue]

theorem katTick_early {s : State} (h : s.tmr.elapsed < s.health.katAt + 100000 * s.health.katCur) : s.katTick = s := by
  simp [State.katTick, State.elapsed, Nat.not_le.mpr h]

theorem execKatCfg_ready {s : State} {e : Env} {ms : U32} {r : CmdRec} (h : Ready s (.katCfg e ms) e r) :
    execKatCfg e ms s =
      .next (((s.started r).modHealth fun x => { x with katInterval := ms.toNat }).finish r.id .ok) :=
  command_ready h _ _ _ rfl

theorem execKatCfg_badParam {s : State} {e : Env} {ms : U32} {p : QPair} (h : Arriving s (.katCfg e ms) e p)
    (henv : s.envelopeOk 0x0B04 e) (hms : ms.toNat < 10 ∨ 1000 < ms.toNat) :
    execKatCfg e ms s = .next (s.takeIn (.katCfg e ms) e (some .badParam)) :=
  command_check_fails h henv (by rw [checkKatCfg_eq, if_neg (by omega)]) _ _

/-- Settles O48: KAT_CFG runs or is refused by the rules of every command, and the round takes its length only when it
begins. -/
theorem katInterval : Obligations.KatInterval := by
  intro s e ms
  refine ⟨fun r hready => ?_, ?_, fun p harr henv hms => ?_, katTick_due, katTick_early, fun _ _ => rfl⟩
  · rw [exec_katCfg, execKatCfg_ready hready]
    rfl
  · rw [checkKatCfg_eq]
    simp
  · rw [exec_katCfg, execKatCfg_badParam harr henv hms]

theorem execRepairCommit_ready {s : State} {e : Env} {write : Bool} {r : CmdRec}
    (h : Ready s (.repairCommit e write) e r) :
    execRepairCommit e write s = .next (startRepairCommit write r.id (s.started r)) := command_ready h _ _ _ rfl

theorem startRepairCommit_report (id : Nat) (s : State) :
    startRepairCommit false id s =
      s.finish id .ok (leBytes 2 s.grid.retiredAll ++ leBytes 1 (gradeOf s.grid.retiredAll)) := rfl

/-- With bit 0 one draw decides between HW_FAULT, with nothing written, and the record of the present repair state. -/
theorem startRepairCommit_write (id : Nat) (s : State) :
    startRepairCommit true id s =
      if s.flashFails.1 then s.flashFails.2.finish id .hwFault
      else (s.flashFails.2.flashWrite 2 s.grid.repairBytes).finish id .ok
        (leBytes 2 s.grid.retiredAll ++ leBytes 1 (gradeOf s.grid.retiredAll)) := rfl

/-- Settles O49: the effect of REPAIR_COMMIT on the state in which it starts, whose grid is still that of `s`. -/
theorem repairCommit : Obligations.RepairCommit := by
  intro s e r
  refine ⟨fun hready => ?_, fun hready => ⟨(s.started r).flashFails.1, (s.started r).flashFails.2, rfl, rfl, ?_⟩⟩
  · rw [exec_repairCommit, execRepairCommit_ready hready, startRepairCommit_report, started_grid]
  · rw [exec_repairCommit, execRepairCommit_ready hready, startRepairCommit_write, started_grid]

end Sys2Proof.Machine
end

section
/-! PROOFS. ATTEST (14_boot_and_identity.md R349, Table 14.10). -/

namespace Sys2Proof.Machine

@[simp] theorem length_leBytes (k n : Nat) : (leBytes k n).length = k := by
  induction k generalizing n with
  | zero => rfl
  | succ k ih => simp [leBytes, ih]

@[simp] theorem length_beBytes (k n : Nat) : (beBytes k n).length = k := by simp [beBytes]

@[simp] theorem length_digestBytes (d : BitVec 384) : (digestBytes d).length = 48 := length_beBytes _ _

@[simp] theorem length_signed384 (bs : List Byte) : (signed384 bs).length = 96 := length_beBytes _ _

@[simp] theorem length_repairDigest (s : State) : s.repairDigest.length = 48 := length_digestBytes _

/-- Only at stage 9 does an image run; the field is a digest long at the other stages as well. -/
theorem length_imageField (s : State) :
    (if s.boot.stage = 9 then digestBytes s.boot.imageDigest else zeros 48).length = 48 := by
  split
  · exact length_digestBytes _
  · exact List.length_replicate

/-- Table 14.10: the report fills 256 bytes at every stage. -/
theorem length_attestReport (s : State) (nonce : BitVec 256) : (s.attestReport nonce).length = 256 := by
  simp [State.attestReport, length_imageField]

theorem exec_attest (e : Env) (dst : U64) (len : U32) (nonce : BitVec 256) (s : State) :
    exec (.attest e dst len nonce) s = execAttest e dst len nonce s := rfl

/-- The one address of ATTEST still has its key, or its length is zero. -/
theorem addrsHeld_attest (s : State) (e : Env) (dst : U64) (len : U32) (nonce : BitVec 256) :
    s.addrsHeld (.attest e dst len nonce) =
      (len.toNat == 0 || (s.heldAddr e dst.toNat len.toNat false true).isSome) := by
  simp [State.addrsHeld, envOf, addrsOf]

theorem keyAt_of_heldAddr {s : State} {e : Env} {a len k : Nat} {rd wr : Bool} (h : s.heldAddr e a len rd wr = some k) :
    s.keyAt e a len rd wr = k := by
  simp [State.keyAt, h]

/-- An addressable destination that is too short for what the command writes is BAD_SIZE (Table 3.8, stage 4). -/
theorem firstFail_bufferChecks_short {s : State} {e : Env} {dst len least : Nat}
    (haddr : (s.addr e dst len false true).isSome = true) (h0 : len ≠ 0) (hshort : len < least) :
    firstFail (s.bufferChecks e dst len least) = some .badSize := by
  simp [State.bufferChecks, firstFail, haddr, h0, hshort]

section
variable {s : State} {e : Env} {dst : U64} {len : U32} {nonce : BitVec 256} {r : CmdRec}

/-- The ROM answers ATTEST: once fetched and free to start, it runs at stage 8 as at stage 9. -/
theorem execAttest_started (hw : s.working = true) (hr : s.fetched? (.attest e dst len nonce) e = some r)
    (ho : s.startable r = true) (hb : s.boundOk r = true) (hh : s.addrsHeld (.attest e dst len nonce) = true) :
    execAttest e dst len nonce s = .next (if len = 0 then (s.started r).finish r.id .okEmpty
      else startAttest e dst nonce len r.id (s.started r)) := by
  unfold execAttest
  rw [command_rom hw hr ho hb hh (fetched_cmd hr).1 rfl]
  simp

theorem execAttest_empty (hw : s.working = true) (hr : s.fetched? (.attest e dst len nonce) e = some r)
    (ho : s.startable r = true) (hb : s.boundOk r = true) (h0 : len = 0) :
    execAttest e dst len nonce s = .next ((s.started r).finish r.id .okEmpty) := by
  rw [execAttest_started hw hr ho hb (by simp [addrsHeld_attest, h0]), if_pos h0]

theorem execAttest_report {k : Nat} (hw : s.working = true) (hr : s.fetched? (.attest e dst len nonce) e = some r)
    (ho : s.startable r = true) (hb : s.boundOk r = true) (h0 : len ≠ 0)
    (hk : (s.started r).heldAddr e dst.toNat len.toNat false true = some k) :
    execAttest e dst len nonce s = .next (((s.started r).writeBytes k ((s.started r).attestReport nonce)).finish
      r.id .ok (leBytes 4 256)) := by
  have hheld : s.addrsHeld (.attest e dst len nonce) = true := by
    rw [addrsHeld_attest, ← started_heldAddr s r, hk]
    simp
  rw [execAttest_started hw hr ho hb hheld, if_neg h0, startAttest, keyAt_of_heldAddr hk]

theorem execAttest_badSize {p : QPair} (harr : Arriving s (.attest e dst len nonce) e p) (henv : s.envelopeOk 0x0C02 e)
    (h0 : len ≠ 0) (hshort : len.toNat < 256) (haddr : (s.addr e dst.toNat len.toNat false true).isSome = true) :
    execAttest e dst len nonce s = .next (s.takeIn (.attest e dst len nonce) e (some .badSize)) :=
  command_check_fails harr henv
    (firstFail_bufferChecks_short haddr (fun h => h0 (BitVec.eq_of_toNat_eq h)) hshort) _ _

end

/-- Settles O55: the report is that of the state in which the command starts, which still has the grade, the versions, the
image and the count of `s`. -/
theorem attestation : Obligations.Attestation := by
  intro s e dst len nonce
  refine ⟨fun r hw _ hr ho hb => ⟨fun h0 => ?_, fun h0 k body hk hbody => ?_⟩, fun p harr henv h0 hshort haddr => ?_⟩
  · rw [exec_attest, execAttest_empty hw hr ho hb h0]
  · have hlen := length_attestReport (s.started r) nonce
    have hrun := execAttest_report hw hr ho hb h0 hk
    subst hbody
    simp only [State.attestReport, State.grade, State.now, State.repairDigest, signed384, zeros, started_grid,
      started_boot, started_tmr] at hlen hrun
    exact ⟨hlen, hrun⟩
  · rw [exec_attest, execAttest_badSize harr henv h0 hshort haddr]

end Sys2Proof.Machine
end

section
/-! SUPPORT. What completing several commands leaves of the queues: each of them is done where no two commands share a number
(03_commands_and_events.md R50, R52). -/

namespace Sys2Proof.Machine

/-- Every command of the queues has a number of its own, as each is given the next free one when it is taken in. -/
def State.distinctRecs (s : State) : Prop := (s.q.recs.map (·.id)).Nodup

/-- In distinct queues a number stands for the one record that has it. -/
theorem State.distinctRecs.rec?_eq {s : State} (h : s.distinctRecs) {x : CmdRec} (hx : x ∈ s.q.recs) :
    s.rec? x.id = some x := by
  obtain ⟨y, hy⟩ : ∃ y, s.rec? x.id = some y := Option.isSome_iff_exists.mp (List.find?_isSome.mpr ⟨x, hx, by simp⟩)
  have hid : y.id = x.id := by simpa using List.find?_some hy
  rw [hy, List.inj_on_of_nodup_map h (List.mem_of_find?_eq_some hy) hx hid]

theorem modRec_ids (s : State) (id : Nat) {f : CmdRec → CmdRec} (hf : ∀ r, (f r).id = r.id) :
    (s.modRec id f).q.recs.map (·.id) = s.q.recs.map (·.id) := by
  rw [State.modRec, List.map_map]
  refine List.map_congr_left fun r _ => ?_
  dsimp only [Function.comp]
  split
  · exact hf r
  · rfl

theorem markDone_ids (s : State) (id : Nat) (st : Status) (res : List Byte) :
    (s.markDone id st res).q.recs.map (·.id) = s.q.recs.map (·.id) := by
  unfold State.markDone
  split
  · dsimp only
    rw [trace_q, modRec_ids]
    case hf => exact fun _ => rfl
    split
    · rw [journal_recs]
    · rfl
  · rfl

/-- One turn of the first pass of `finishAll`: a command that has not completed is done. -/
def State.markOnce (s : State) (d : Nat × Status × List Byte) : State :=
  if s.doneRec d.1 then s else s.markDone d.1 d.2.1 d.2.2

theorem finishAll_eq (s : State) (l : List (Nat × Status × List Byte)) :
    s.finishAll l = (l.foldl (fun s d => s.cancelChain d.1 d.2.1) (l.foldl State.markOnce s)).settled := rfl

theorem markOnce_distinct {s : State} (h : s.distinctRecs) (d : Nat × Status × List Byte) :
    (s.markOnce d).distinctRecs := by
  unfold State.markOnce
  split
  · exact h
  · unfold State.distinctRecs
    rw [markDone_ids]
    exact h

theorem mem_markOnce {s : State} (h : s.distinctRecs) {d : Nat × Status × List Byte} {x : CmdRec}
    (hx : x ∈ (s.markOnce d).q.recs) : x.isDone = true ∨ (x ∈ s.q.recs ∧ x.id ≠ d.1) := by
  unfold State.markOnce at hx
  split at hx
  case isTrue hdone =>
    by_cases hid : x.id = d.1
    · left
      rw [← hid, State.doneRec, h.rec?_eq hx] at hdone
      exact hdone
    · exact .inr ⟨hx, hid⟩
  case isFalse => exact mem_markDone hx

theorem mem_foldl_markOnce (l : List (Nat × Status × List Byte)) {s : State} (h : s.distinctRecs) {x : CmdRec}
    (hx : x ∈ (l.foldl State.markOnce s).q.recs) : x.isDone = true ∨ (x ∈ s.q.recs ∧ ∀ d ∈ l, x.id ≠ d.1) := by
  induction l generalizing s with
  | nil => exact .inr ⟨hx, by simp⟩
  | cons d l ih =>
    rcases ih (markOnce_distinct h d) hx with hdone | ⟨hmem, hl⟩
    · exact .inl hdone
    · exact (mem_markOnce h hmem).imp_right fun ⟨hs, hd⟩ => ⟨hs, List.forall_mem_cons.mpr ⟨hd, hl⟩⟩

/-- A record after `finishAll` is done, or is an unchanged one that was not to complete. -/
theorem mem_finishAll {s : State} (h : s.distinctRecs) {l : List (Nat × Status × List Byte)} {x : CmdRec}
    (hx : x ∈ (s.finishAll l).q.recs) : x.isDone = true ∨ (x ∈ s.q.recs ∧ ∀ d ∈ l, x.id ≠ d.1) := by
  have hafter : OnlyCompletes (l.foldl State.markOnce s) (s.finishAll l) := by
    rw [finishAll_eq]
    exact (OnlyCompletes.foldl _ (fun _ _ => cancelChain_onlyCompletes _ _ _) _ _).trans (settle_onlyCompletes _ _)
  exact (hafter x hx).elim .inl (mem_foldl_markOnce l h)

theorem pendingLaunches_eq_nil {s : State} : s.pendingLaunches = [] ↔ ∀ r ∈ s.q.recs, r.phase ≠ .waiting := by
  simp [State.pendingLaunches, List.filter_eq_nil_iff]

theorem mem_pendingLaunches {s : State} {r : CmdRec} (hr : r ∈ s.q.recs) (hw : r.phase = .waiting) :
    r.id ∈ s.pendingLaunches :=
  List.mem_map_of_mem (List.mem_filter.mpr ⟨hr, by simp [hw]⟩)

/-- When all that wait for their tick are among the completed, none is left waiting. -/
theorem pendingLaunches_finishAll {s : State} (h : s.distinctRecs) {l : List (Nat × Status × List Byte)}
    (hl : ∀ id ∈ s.pendingLaunches, ∃ d ∈ l, d.1 = id) : (s.finishAll l).pendingLaunches = [] := by
  refine pendingLaunches_eq_nil.mpr fun x hx hw => ?_
  rcases mem_finishAll h hx with hdone | ⟨hmem, hne⟩
  · simp [CmdRec.isDone, hw] at hdone
  · obtain ⟨d, hd, hid⟩ := hl _ (mem_pendingLaunches hmem hw)
    exact hne d hd hid.symm

end Sys2Proof.Machine
end

section
/-! SUPPORT. Entry to UNLOCKED and a tick of the count, by what each leaves of the timer and the queues (02_timer.md Table 2.3,
R28, R32). -/

namespace Sys2Proof.Machine

@[simp] theorem timerEvent_tmr (s : State) (new old : LockState) : (s.timerEvent new old).tmr = s.tmr := by
  simp [State.timerEvent]

@[simp] theorem timerEvent_q (s : State) (new old : LockState) : (s.timerEvent new old).q = s.q := by
  simp [State.timerEvent, trace_q]

@[simp] theorem timerTo_tmr (s : State) (f : Timer → Timer) : (s.timerTo f).tmr = f s.tmr := by
  unfold State.timerTo
  dsimp only
  split <;> simp

@[simp] theorem timerTo_q (s : State) (f : Timer → Timer) : (s.timerTo f).q = s.q := by
  unfold State.timerTo
  dsimp only
  split <;> simp

theorem foldl_event_tmr {α : Type} (src kind : Nat) (f : α → List Byte) (l : List α) (s : State) :
    (l.foldl (fun s a => s.event src kind (f a)) s).tmr = s.tmr := by
  induction l generalizing s with
  | nil => rfl
  | cons a l ih => rw [List.foldl_cons, ih, event_tmr]

theorem foldl_event_q {α : Type} (src kind : Nat) (f : α → List Byte) (l : List α) (s : State) :
    (l.foldl (fun s a => s.event src kind (f a)) s).q = s.q := by
  induction l generalizing s with
  | nil => rfl
  | cons a l ih => rw [List.foldl_cons, ih, event_q]

/-- The barriers opened with AT_TICK are closed. -/
def State.dropBarriers (s : State) : State :=
  { s with q := { s.q with barriers := s.q.barriers.filter fun b => !b.atTick } }

/-- The commands that end TIME_UNLOCKED (R32): those that wait for their tick and the members of barriers with AT_TICK. -/
def State.droppedLaunches (s : State) : List Nat :=
  s.pendingLaunches ++ (s.q.barriers.filter (·.atTick)).flatMap (·.joined)

theorem dropBarriers_of_none {s : State} (h : s.q.barriers = []) : s.dropBarriers.q = s.q := by
  rw [State.dropBarriers, h, List.filter_nil, ← h]

theorem droppedLaunches_of_no_barriers {s : State} (h : s.q.barriers = []) : s.droppedLaunches = s.pendingLaunches := by
  simp [State.droppedLaunches, h]

theorem dropLaunches_q (s : State) :
    s.dropLaunches.q = (s.dropBarriers.finishAll (s.droppedLaunches.map fun id => (id, .timeUnlocked, []))).q := by
  unfold State.dropLaunches
  dsimp only
  rw [foldl_event_q]
  rfl

@[simp] theorem dropLaunches_tmr (s : State) : s.dropLaunches.tmr = { s.tmr with alarms := [] } := by
  unfold State.dropLaunches
  dsimp only
  rw [foldl_event_tmr, modTmr_tmr, finishAll_tmr]

/-- Entry to UNLOCKED leaves no command waiting for its tick (R32). -/
theorem pendingLaunches_dropLaunches {s : State} (h : s.distinctRecs) : s.dropLaunches.pendingLaunches = [] := by
  rw [State.pendingLaunches, dropLaunches_q]
  exact pendingLaunches_finishAll (s := s.dropBarriers) h fun id hid =>
    ⟨_, List.mem_map_of_mem (List.mem_append_left _ hid), rfl⟩

@[simp] theorem enterUnlocked_lock (s : State) : s.enterUnlocked.tmr.lock = .unlocked := by simp [State.enterUnlocked]

/-- What a tick does before the lock state is evaluated (R20, R361). -/
def State.counted (s : State) : State :=
  s.modTmr fun t => { t with count := (t.count + 1) % 2 ^ 64, elapsed := t.elapsed + 1, limit := t.limitNext.getD t.limit
                             limitNext := none }

theorem tickCount_eq (s : State) : s.tickCount = s.counted.timerEval := rfl

/-- `t` has the limit of `s`, and the same one waiting. -/
def SameLimit (s t : State) : Prop := t.tmr.limit = s.tmr.limit ∧ t.tmr.limitNext = s.tmr.limitNext

theorem enterUnlocked_sameLimit (s : State) : SameLimit s s.enterUnlocked := by
  constructor <;> simp [State.enterUnlocked]

theorem setLock_sameLimit (s : State) (new : LockState) : SameLimit s (s.setLock new) := by
  constructor <;> simp [State.setLock]

theorem SameLimit.trans {s t u : State} (h : SameLimit s t) (k : SameLimit t u) : SameLimit s u :=
  ⟨k.1.trans h.1, k.2.trans h.2⟩

theorem enterHoldover_sameLimit (s : State) : SameLimit s s.enterHoldover := by
  unfold State.enterHoldover
  dsimp only
  split
  · exact (setLock_sameLimit _ _).trans (enterUnlocked_sameLimit _)
  · exact setLock_sameLimit _ _

theorem timerEval_sameLimit (s : State) : SameLimit s s.timerEval := by
  have hstarve : SameLimit s (if s.tmr.starved then s.enterHoldover else s) := by
    split
    · exact enterHoldover_sameLimit s
    · exact ⟨rfl, rfl⟩
  unfold State.timerEval
  generalize (if s.tmr.starved then s.enterHoldover else s) = u at hstarve ⊢
  dsimp only
  split
  · exact hstarve.trans (enterUnlocked_sameLimit _)
  · exact hstarve

/-- A module that has passed its limit is in HOLDOVER, so only the second test of the evaluation applies. -/
theorem timerEval_expired {s : State} (h : s.tmr.expired = true) : s.timerEval = s.enterUnlocked := by
  have hlock : s.tmr.lock = .holdover := by
    simp only [Timer.expired, Bool.and_eq_true, beq_iff_eq] at h
    exact h.1.2
  have hstarved : s.tmr.starved = false := by simp [Timer.starved, hlock]
  simp [State.timerEval, hstarved, h]

end Sys2Proof.Machine
end

section
/-! PROOFS. TMR_HOLDOVER_LIMIT (15_registers.md R361). -/

namespace Sys2Proof.Machine

/-- R361: a written limit waits; the limit in force stays. -/
theorem exec_tmrHoldoverLimitWrite {s : State} (h : s.working = true) (v : U64) :
    exec (.tmrHoldoverLimitWrite v) s = .next { s with tmr := { s.tmr with limitNext := some (v.toNat % 2 ^ 40) } } := by
  change s.when s.working _ = _
  rw [State.when, if_pos h]
  rfl

/-- R361: the tick takes the written limit over. -/
theorem tickCount_takes_limit {s : State} {n : Nat} (h : s.tmr.limitNext = some n) :
    s.tickCount.tmr.limit = n ∧ s.tickCount.tmr.limitNext = none := by
  obtain ⟨hlimit, hnext⟩ := timerEval_sameLimit s.counted
  rw [tickCount_eq, hlimit, hnext]
  simp [State.counted, h]

section
variable {s : State} {n g : Nat} (hn : s.tmr.limitNext = some n) (hrole : s.tmr.role = .follower)
  (hlock : s.tmr.lock = .holdover) (hg : s.tmr.lastGood = some g) (hpast : n < s.tmr.elapsed + 1 - g)
include hn hrole hlock hg hpast

theorem counted_expired : s.counted.tmr.expired = true := by
  simp [State.counted, Timer.expired, Timer.sinceGood, hn, hrole, hlock, hg, Nat.le_of_lt hpast]

/-- R361: a follower in HOLDOVER further from its last good marker than the new limit enters UNLOCKED. -/
theorem tickCount_past_limit : s.tickCount = s.counted.enterUnlocked := by
  rw [tickCount_eq, timerEval_expired (counted_expired hn hrole hlock hg hpast)]

theorem tickCount_past_limit_lock : s.tickCount.tmr.lock = .unlocked := by
  rw [tickCount_past_limit hn hrole hlock hg hpast, enterUnlocked_lock]

/-- R32: where every command has a number of its own, none is left waiting for its tick. This is what the statement says of
every state, and what `not_holdoverLimit` refutes without the hypothesis. -/
theorem tickCount_past_limit_pendingLaunches (h : s.distinctRecs) : s.tickCount.pendingLaunches = [] := by
  rw [tickCount_past_limit hn hrole hlock hg hpast]
  refine pendingLaunches_dropLaunches ?_
  rw [State.distinctRecs, timerTo_q]
  exact h

/-- R32: with no barrier open just the commands that wait for their tick complete TIME_UNLOCKED. -/
theorem tickCount_past_limit_q (hb : s.q.barriers = []) : ∃ u : State, u.q = s.q ∧
    s.tickCount.q = (u.finishAll (s.pendingLaunches.map fun id => (id, .timeUnlocked, []))).q := by
  rw [tickCount_past_limit hn hrole hlock hg hpast, State.enterUnlocked, dropLaunches_q]
  generalize hu : State.timerTo _ _ = u
  have hq : u.q = s.q := by rw [← hu, timerTo_q]; rfl
  refine ⟨u.dropBarriers, (dropBarriers_of_none (hq ▸ hb)).trans hq, ?_⟩
  rw [droppedLaunches_of_no_barriers (hq ▸ hb), State.pendingLaunches, hq]
  rfl

end

/-- A follower in HOLDOVER at its limit of 10 ticks, with commands in queue pair 0. -/
def State.holdWith (recs : List CmdRec) : State := { State.reset with
  tmr := { State.reset.tmr with
    count := 10, elapsed := 10, lock := .holdover, lastGood := some 0, limit := 10, limitNext := some 10 }
  q := { State.reset.q with pairs := [{ QPair.reset 0 with enable := true }], recs, nextRec := 3 } }

/-- The envelope of queue pair 0 with a launch tick. -/
def holdEnv : Env := { q := 0, rsv := false, fence := false, atTick := true, lateRun := false, notify := false, chain := false,
                       ctx := 0x3FF, tag := 7, launch := 1000000 }

/-- A KEEPWARM_SET of queue pair 0 with a number and a phase. -/
def holdRec (id : Nat) (phase : Phase) : CmdRec :=
  { id, cmd := .keepwarmSet holdEnv 0 0, env := holdEnv, bound := none, alloc := none, chained := false, late := false,
    launched := false, phase, xfer := none }

/-- The last command waits for its tick under the number of one that has completed, whose CQ entry the running command before
it holds back. -/
def sharedNumber : State := .holdWith [holdRec 1 .running, holdRec 2 (.done .ok [] 0), holdRec 2 .waiting]

/-- Under a number of its own the waiting command does not stay. -/
theorem holdWith_distinct_drops_waiting :
    (State.holdWith [holdRec 1 .running, holdRec 2 .waiting]).tickCount.pendingLaunches = [] :=
  tickCount_past_limit_pendingLaunches (n := 10) (g := 0) rfl rfl rfl rfl (by decide)
    (show List.Nodup [1, 2] by decide)

/-- `finishAll` takes number 2 for a command that has completed, and so leaves the waiting one of that number. -/
theorem sharedNumber_keeps_waiting : sharedNumber.tickCount.pendingLaunches = [2] := by decide +kernel

/-- Refutes O19 in the one clause that no command is left waiting: the statement speaks of every state, also of one in which
two commands share a number. No other clause fails, and that one holds where the numbers are distinct, as
`tickCount_past_limit_pendingLaunches` shows. -/
theorem not_holdoverLimit : ¬ Obligations.HoldoverLimit := by
  intro h
  obtain ⟨-, -, hpast⟩ := h sharedNumber 0 (by decide)
  obtain ⟨-, hnone, -⟩ := hpast 10 0 rfl rfl rfl rfl (by decide)
  rw [sharedNumber_keeps_waiting] at hnone
  exact List.cons_ne_nil _ _ hnone

end Sys2Proof.Machine
end

section
/-! SUPPORT and PROOFS. What every operation of the machine keeps: the waiting commands, memory's canonical form and the reserved
bits of the event controller (O3, O4, O5). One lemma per operation, each assembled from those of the operations it calls. (The
lemmas are many and short: elaborated all at once they take more memory than one after the other.) -/

set_option Elab.async false

namespace Sys2Proof.Machine

/-- What the three forms speak of: the commands that wait, the listed bytes of memory, the words of the event controller with
reserved bits and the number of its sequence numbers. -/
def State.form (s : State) : List Instr × List Host.Cell × U64 × U64 × Nat :=
  (s.pending, s.mem.cells, s.evc.pend1, s.evc.mask1, s.evc.seqs.length)

/-- `t` has the waiting commands of `s` and, where `s` has them, the forms of memory and of the event controller. -/
structure Kept (s t : State) : Prop where
  pending : t.pending = s.pending
  mem : s.mem.wf = true → t.mem.wf = true
  evc : s.evc.wf = true → t.evc.wf = true

/-- If an operation goes on, its next state is `Kept`. -/
def ResKept (s : State) (r : Res) : Prop := ∀ t, r = .next t → Kept s t

theorem Kept.refl (s : State) : Kept s s := ⟨rfl, id, id⟩

/-- What the forms do not speak of may change. -/
theorem Kept.frame {s t u : State} (h : Kept s t) (hf : u.form = t.form := by rfl) : Kept s u := by
  simp only [State.form, Prod.mk.injEq] at hf
  obtain ⟨hpend, hcells, hp1, hm1, hseqs⟩ := hf
  have hmem : u.mem.wf = t.mem.wf := by simp [Memory.wf, hcells]
  have hevc : u.evc.wf = t.evc.wf := by simp [Evc.wf, hp1, hm1, hseqs]
  exact ⟨hpend.trans h.pending, fun hs => hmem.trans (h.mem hs), fun hs => hevc.trans (h.evc hs)⟩

theorem ite_kept {s t u : State} {c : Prop} [Decidable c] (h : Kept s t) (k : Kept s u) : Kept s (if c then t else u) := by
  split
  · exact h
  · exact k

theorem foldl_kept {α : Type} {s t : State} {f : State → α → State} {l : List α} (h : Kept s t)
    (hf : ∀ u a, Kept s u → Kept s (f u a)) : Kept s (l.foldl f t) := by
  induction l generalizing t with
  | nil => exact h
  | cons a l ih => exact ih (hf _ _ h)

theorem repeat_kept {s t : State} {f : State → State} {n : Nat} (h : Kept s t) (hf : ∀ u, Kept s u → Kept s (f u)) :
    Kept s (Nat.repeat f n t) := by
  induction n with
  | zero => exact h
  | succ n ih => exact hf _ ih

theorem next_kept {s t : State} (h : Kept s t) : ResKept s (.next t) := by
  rintro _ ⟨⟩
  exact h

theorem fault_resKept {s : State} {r : Fault} : ResKept s (.fault r) := by
  rintro _ ⟨⟩

theorem refused_resKept {s : State} {r : Refusal} : ResKept s (.refused r) := by
  rintro _ ⟨⟩

theorem Kept.fst {α : Type} {s u : State} {a : α} {p : State × α} (h : Kept s p.1) (e : p = (u, a)) : Kept s u := by
  subst e
  exact h

theorem Kept.snd {α : Type} {s u : State} {a : α} {p : α × State} (h : Kept s p.2) (e : p = (a, u)) : Kept s u := by
  subst e
  exact h

theorem ite_resKept {s : State} {r r' : Res} {c : Prop} [Decidable c] (h : ResKept s r) (k : ResKept s r') :
    ResKept s (if c then r else r') := by
  split
  · exact h
  · exact k

theorem ite_fst_kept {α : Type} {s : State} {c : Prop} [Decidable c] {p q : State × α} (hp : Kept s p.1) (hq : Kept s q.1) :
    Kept s (if c then p else q).1 := by
  split
  · exact hp
  · exact hq

/-- A fold that carries a number beside the state. -/
theorem foldl_fst_kept {α β : Type} {s : State} {f : State × β → α → State × β} {l : List α} {p : State × β} (h : Kept s p.1)
    (hf : ∀ q a, Kept s q.1 → Kept s (f q a).1) : Kept s (l.foldl f p).1 := by
  induction l generalizing p with
  | nil => exact h
  | cons a l ih => exact ih (hf _ _ h)

/-- A fold that may give up. -/
theorem foldl_option_kept {α : Type} {s : State} {f : Option State → α → Option State} {l : List α} {o : Option State}
    (hf : ∀ o a, (∀ u, o = some u → Kept s u) → ∀ u, f o a = some u → Kept s u) (h : ∀ u, o = some u → Kept s u) :
    ∀ u, l.foldl f o = some u → Kept s u := by
  induction l generalizing o with
  | nil => exact h
  | cons a l ih => exact ih (hf _ _ h)

/-! ### Memory's form under filters and renumbering -/

theorem cellsWf_iff (cs : List Host.Cell) :
    cellsWf cs = true ↔ cs.Pairwise (fun a b => a.1 < b.1) ∧ ∀ c ∈ cs, c.2 ≠ unlisted c.1 := by
  induction cs with
  | nil => simp [cellsWf]
  | cons c cs ih =>
    obtain ⟨a, b⟩ := c
    rw [cellsWf_cons, ih, List.pairwise_cons, List.forall_mem_cons]
    tauto

theorem cellsWf_filter {cs : List Host.Cell} (h : cellsWf cs = true) (p : Host.Cell → Bool) : cellsWf (cs.filter p) = true := by
  obtain ⟨hlt, hne⟩ := (cellsWf_iff cs).mp h
  exact (cellsWf_iff _).mpr ⟨hlt.filter p, fun c hc => hne c (List.mem_of_mem_filter hc)⟩

/-- Cores keep their order when a column is retired. -/
theorem shiftCol_lt {col a b a' b' : Nat} (hlt : a < b) (ha : shiftCol col a = some a') (hb : shiftCol col b = some b') :
    a' < b' := by
  unfold shiftCol coreCol at ha hb
  split at ha
  · exact nomatch ha
  · split at hb
    · exact nomatch hb
    · split at ha <;> split at hb <;> cases ha <;> cases hb <;> omega

theorem shiftCol_le {col a a' : Nat} (ha : shiftCol col a = some a') : a' ≤ a := by
  unfold shiftCol at ha
  split at ha
  · exact nomatch ha
  · split at ha <;> cases ha <;> omega

/-- A key of SRAM as its core and its offset there. -/
theorem shiftKey_sram {col k k' : Nat} (hk : spaceOf k = 2) (h : shiftKey col k = some k') :
    ∃ c c', shiftCol col c = some c' ∧ c < 2 ^ 30 ∧ k = 2 * 2 ^ 48 + c * 2 ^ 18 + k % 2 ^ 18 ∧
      k' = 2 * 2 ^ 48 + c' * 2 ^ 18 + k % 2 ^ 18 := by
  unfold shiftKey at h
  rw [if_pos hk] at h
  obtain ⟨c', hc, rfl⟩ := Option.map_eq_some_iff.mp h
  refine ⟨_, c', hc, ?_, ?_, ?_⟩ <;> simp only [spaceOf, offOf, mkKey, sramBytes] at * <;> omega

theorem shiftKey_space {col k k' : Nat} (h : shiftKey col k = some k') : spaceOf k' = spaceOf k := by
  by_cases hk : spaceOf k = 2
  · obtain ⟨c, c', hc, hlt, -, hk'⟩ := shiftKey_sram hk h
    have hle := shiftCol_le hc
    rw [hk, spaceOf]
    omega
  · simp only [shiftKey, if_neg hk, Option.some.injEq] at h
    rw [h]

theorem shiftKey_lt {col a b a' b' : Nat} (hlt : a < b) (ha : shiftKey col a = some a') (hb : shiftKey col b = some b') :
    a' < b' := by
  have hsa := shiftKey_space ha
  have hsb := shiftKey_space hb
  by_cases h2a : spaceOf a = 2 <;> by_cases h2b : spaceOf b = 2
  · obtain ⟨c, c', hc, hcl, hac, hac'⟩ := shiftKey_sram h2a ha
    obtain ⟨d, d', hd, hdl, hbd, hbd'⟩ := shiftKey_sram h2b hb
    rcases Nat.lt_trichotomy c d with hcd | rfl | hcd
    · have := shiftCol_lt hcd hc hd
      omega
    · rw [hc] at hd
      cases hd
      omega
    · omega
  · rw [shiftKey, if_neg h2b, Option.some.injEq] at hb
    simp only [spaceOf] at hsa h2a h2b
    omega
  · rw [shiftKey, if_neg h2a, Option.some.injEq] at ha
    simp only [spaceOf] at hsb h2a h2b
    omega
  · rw [shiftKey, if_neg h2a, Option.some.injEq] at ha
    rw [shiftKey, if_neg h2b, Option.some.injEq] at hb
    omega

theorem cellsWf_retire {cs : List Host.Cell} (h : cellsWf cs = true) (col : Nat) :
    cellsWf (cs.filterMap fun c => (shiftKey col c.1).map fun k => (k, c.2)) = true := by
  obtain ⟨hlt, hne⟩ := (cellsWf_iff cs).mp h
  refine (cellsWf_iff _).mpr ⟨?_, fun c hc => ?_⟩
  · refine List.Pairwise.filterMap _ (fun a b hab x hx y hy => ?_) hlt
    obtain ⟨a', ha, rfl⟩ := Option.map_eq_some_iff.mp hx
    obtain ⟨b', hb, rfl⟩ := Option.map_eq_some_iff.mp hy
    exact shiftKey_lt hab ha hb
  · obtain ⟨d, hd, hdc⟩ := List.mem_filterMap.mp hc
    obtain ⟨k, hk, rfl⟩ := Option.map_eq_some_iff.mp hdc
    have := hne d hd
    rwa [unlisted, shiftKey_space hk, ← unlisted]

/-! ### The operations of the machine, in the order of their definitions -/

theorem modPins_kept {s t f} (h : Kept s t) : Kept s (State.modPins t f) := h.frame
theorem modBoot_kept {s t f} (h : Kept s t) : Kept s (State.modBoot t f) := h.frame
theorem modGrid_kept {s t f} (h : Kept s t) : Kept s (State.modGrid t f) := h.frame
theorem modTmr_kept {s t f} (h : Kept s t) : Kept s (State.modTmr t f) := h.frame
theorem modQ_kept {s t f} (h : Kept s t) : Kept s (State.modQ t f) := h.frame

theorem modEvc_kept {s t : State} {f : Evc → Evc} (h : Kept s t) (hf : (t.modEvc f).form = t.form := by rfl) :
    Kept s (t.modEvc f) := h.frame hf

theorem modCxl_kept {s t f} (h : Kept s t) : Kept s (State.modCxl t f) := h.frame

theorem modMem_kept {s t : State} {f : Memory → Memory} (h : Kept s t) (hf : (f t.mem).cells = t.mem.cells := by rfl) :
    Kept s (t.modMem f) := h.frame (by simp [State.form, State.modMem, hf])

theorem modFab_kept {s t f} (h : Kept s t) : Kept s (State.modFab t f) := h.frame
theorem modLink_kept {s t f} (h : Kept s t) : Kept s (State.modLink t f) := h.frame
theorem modPwr_kept {s t f} (h : Kept s t) : Kept s (State.modPwr t f) := h.frame
theorem modTherm_kept {s t f} (h : Kept s t) : Kept s (State.modTherm t f) := h.frame
theorem modHealth_kept {s t f} (h : Kept s t) : Kept s (State.modHealth t f) := h.frame
theorem modSide_kept {s t f} (h : Kept s t) : Kept s (State.modSide t f) := h.frame

theorem draw_kept {s t : State} (h : Kept s t) :
    Kept s (t.draw).2 := by
  exact h.frame

theorem drawBytes_kept {s t : State} {n} (h : Kept s t) :
    Kept s (t.drawBytes n).2 := by
  exact h.frame

theorem choose_kept {s t : State} {cands} (h : Kept s t) :
    Kept s (t.choose cands).2 := by
  unfold State.choose
  split
  · exact h
  · exact h.frame

theorem send_kept {s t o} (h : Kept s t) : Kept s (State.send t o) := h.frame
theorem control_kept {s t port bytes} (h : Kept s t) : Kept s (State.control t port bytes) := send_kept h
theorem sendPkt_kept {s t port p} (h : Kept s t) : Kept s (State.sendPkt t port p) := send_kept h

theorem writeBytes_kept {s t : State} {k bs} (h : Kept s t) : Kept s (t.writeBytes k bs) :=
  ⟨h.pending, fun hs => writeBytes_wf (h.mem hs) k bs, h.evc⟩

theorem markPoison_kept {s t : State} {ks} (h : Kept s t) : Kept s (t.markPoison ks) := h.frame

theorem writeMarked_kept {s t k bs offs} (h : Kept s t) : Kept s (State.writeMarked t k bs offs) :=
  markPoison_kept (writeBytes_kept h)

theorem copyRange_kept {s t src dst len} (h : Kept s t) : Kept s (State.copyRange t src dst len) := writeMarked_kept h
theorem msix_kept {s t v} (h : Kept s t) : Kept s (State.msix t v) := ite_kept (send_kept h) h.frame

theorem msixFlush_kept {s t} (h : Kept s t) : Kept s (State.msixFlush t) :=
  foldl_kept h fun _ _ hk => ite_kept (msix_kept hk.frame) hk

theorem evcSet_kept {s t : State} {w p m} (h : Kept s t) : Kept s (t.evcSet w p m) := by
  refine ⟨((evcSet_same t w p m).pending).trans h.pending, fun hs => ?_, fun hs => ?_⟩
  · rw [evcSet_mem]
    exact h.mem hs
  · have hw := h.evc hs
    simp only [Evc.wf, Bool.and_eq_true, beq_iff_eq] at hw ⊢
    obtain ⟨⟨hp, hm⟩, hl⟩ := hw
    rw [evcSet_evc]
    split
    · exact ⟨⟨hp, hm⟩, hl⟩
    · rename_i hw0
      simp [hl, BitVec.and_assoc, evcValid, hw0]

theorem edge_kept {s t src} (h : Kept s t) : Kept s (State.edge t src) := evcSet_kept h

theorem event_kept {s t : State} {src kind pl} (h : Kept s t) : Kept s (t.event src kind pl) := by
  have hseq : ∀ (sq : Nat) (f : Health → Health), Kept s { t with
      evc := { t.evc with seqs := t.evc.seqs.set src sq }, health := f t.health } := fun sq f =>
    h.frame (by simp [State.form])
  unfold State.event
  dsimp only
  have hwritten : ∀ (c : Prop) [Decidable c] (k : Nat) (bs : List Byte) (u : State), Kept s u →
      Kept s (if c then u.writeBytes k bs else u) := fun _ _ _ _ _ hu => ite_kept (writeBytes_kept hu) hu
  exact ite_kept (edge_kept (hwritten _ _ _ _ (hseq _ fun x => { x with seen := _ }))) (hwritten _ _ _ _ (hseq _ fun x => { x with seen := _ }))

theorem trace_kept {s t b object data} (h : Kept s t) : Kept s (State.trace t b object data) :=
  ite_kept (ite_kept (writeBytes_kept h.frame) h.frame) h

theorem journal_kept {s t : State} {op q st d} (h : Kept s t) : Kept s (t.journal op q st d) := by
  have hq : ∀ x : Queues, Kept s { t with q := x } := fun _ => h.frame
  unfold State.journal
  exact event_kept (hq _)

theorem journalAction_kept {s t code object} (h : Kept s t) : Kept s (State.journalAction t code object) := journal_kept h
theorem when_kept {s t c t1} (h : Kept s t) (h1 : Kept s t1) : ResKept s (State.when t c t1) := next_kept (ite_kept h1 h)
theorem setCtx_kept {s t c} (h : Kept s t) : Kept s (State.setCtx t c) := h.frame
theorem modCtx_kept {s t id f} (h : Kept s t) : Kept s (State.modCtx t id f) := h.frame
theorem modPair_kept {s t q f} (h : Kept s t) : Kept s (State.modPair t q f) := h.frame
theorem modRec_kept {s t id f} (h : Kept s t) : Kept s (State.modRec t id f) := h.frame

theorem pairError_kept {s t q code value} (h : Kept s t) : Kept s (State.pairError t q code value) := by
  unfold State.pairError
  dsimp only
  split
  · exact ite_kept h (event_kept (modPair_kept h))
  · exact h

theorem writeCq_kept {s t q e st result tick} (h : Kept s t) : Kept s (State.writeCq t q e st result tick) := by
  unfold State.writeCq
  dsimp only
  split
  · exact ite_kept (ite_kept (pairError_kept (writeBytes_kept h)) (ite_kept (msix_kept (modPair_kept (writeBytes_kept h)))
        (modPair_kept (writeBytes_kept h)))) (pairError_kept h)
  · exact h

theorem markDone_kept {s t id st result} (h : Kept s t) : Kept s (State.markDone t id st result) := by
  unfold State.markDone
  dsimp only
  split
  · refine trace_kept (modRec_kept ?_)
    split
    · exact journal_kept h
    · exact h
  · exact h

theorem cancelChain_kept {s t id st} (h : Kept s t) : Kept s (State.cancelChain t id st) := by
  unfold State.cancelChain
  dsimp only
  split
  · exact ite_kept h (ite_kept (modPair_kept (foldl_kept h fun _ _ hk => markDone_kept hk)) (foldl_kept h fun _ _ hk =>
        markDone_kept hk))
  · exact h

theorem markChain_kept {s t id st result} (h : Kept s t) : Kept s (State.markChain t id st result) :=
  cancelChain_kept (markDone_kept h)

theorem settle_kept {s t : State} {n} (h : Kept s t) : Kept s (t.settle n) := by
  induction n generalizing t with
  | zero => exact h
  | succ n ih =>
    unfold State.settle
    split
    · split
      · exact ih (writeCq_kept h.frame)
      · exact h
    · split
      · exact ih (markChain_kept h.frame)
      · exact ite_kept (modPair_kept h) h

theorem settled_kept {s t} (h : Kept s t) : Kept s (State.settled t) := settle_kept h
theorem finish_kept {s t id st result} (h : Kept s t) : Kept s (State.finish t id st result) := settled_kept (markChain_kept h)

theorem finishAll_kept {s t done} (h : Kept s t) : Kept s (State.finishAll t done) :=
  settled_kept (foldl_kept (foldl_kept h fun _ _ hk => ite_kept hk (markDone_kept hk)) fun _ _ hk => cancelChain_kept hk)

theorem takeIn_kept {s t i e refused} (h : Kept s t) : Kept s (State.takeIn t i e refused) := by
  unfold State.takeIn
  dsimp only
  split
  · exact h
  · refine ite_kept (finish_kept (modPair_kept h.frame)) ?_
    split
    · exact finish_kept (modPair_kept h.frame)
    · exact modPair_kept h.frame

theorem startCmd_kept {s t : State} {r zero start} (h : Kept s t) (hs : ∀ id u, Kept s u → Kept s (start id u)) :
    Kept s (t.startCmd r zero start) := by
  have hrun : Kept s ((t.modRec r.id fun r => { r with phase := .running, launched := r.env.atTick && !launchesLater r.cmd }).trace
      0 r.env.q.toNat (leBytes 2 (opcodeOf r.cmd) ++ leBytes 2 r.env.tag.toNat)) := trace_kept (modRec_kept h)
  unfold State.startCmd
  dsimp only
  exact ite_kept (finish_kept hrun) (ite_kept (finish_kept hrun) (ite_kept (finish_kept hrun) (ite_kept (finish_kept hrun)
    (hs _ _ hrun))))

theorem command_kept {s t : State} {i e chk zero start} (h : Kept s t) (hs : ∀ id u, Kept s u → Kept s (start id u)) :
    ResKept s (command i e chk zero start t) := by
  unfold command
  dsimp only
  refine ite_resKept (next_kept h) ?_
  split
  · exact when_kept h (startCmd_kept h hs)
  · refine ite_resKept (next_kept h) ?_
    split
    · exact when_kept (takeIn_kept h) (startCmd_kept (takeIn_kept h) hs)
    · exact next_kept (takeIn_kept h)

theorem launch_kept {s t : State} {r zero start} (h : Kept s t) (hs : ∀ id u, Kept s u → Kept s (start id u)) :
    Kept s (t.launch r zero start) := by
  unfold State.launch
  exact ite_kept (startCmd_kept h hs) (ite_kept (modRec_kept h) (finish_kept h))

theorem timerEvent_kept {s t new old} (h : Kept s t) : Kept s (State.timerEvent t new old) := trace_kept (event_kept h)

theorem timerTo_kept {s t f} (h : Kept s t) : Kept s (State.timerTo t f) :=
  ite_kept (modTmr_kept h) (timerEvent_kept (modTmr_kept h))

theorem setLock_kept {s t new} (h : Kept s t) : Kept s (State.setLock t new) := timerTo_kept h

theorem dropLaunches_kept {s t} (h : Kept s t) : Kept s (State.dropLaunches t) :=
  foldl_kept (modTmr_kept (finishAll_kept h.frame)) fun _ _ hk => event_kept hk

theorem enterUnlocked_kept {s t} (h : Kept s t) : Kept s (State.enterUnlocked t) := dropLaunches_kept (timerTo_kept h)

theorem enterHoldover_kept {s t} (h : Kept s t) : Kept s (State.enterHoldover t) :=
  ite_kept (enterUnlocked_kept (setLock_kept h)) (setLock_kept h)

theorem timerEval_kept {s t} (h : Kept s t) : Kept s (State.timerEval t) :=
  ite_kept (enterUnlocked_kept (ite_kept (enterHoldover_kept h) h)) (ite_kept (enterHoldover_kept h) h)

theorem tickCount_kept {s t} (h : Kept s t) : Kept s (State.tickCount t) := timerEval_kept (modTmr_kept h)
theorem setUpstream_kept {s t m} (h : Kept s t) : Kept s (State.setUpstream t m) := ite_kept h (timerTo_kept h)

theorem badMarker_kept {s t port} (h : Kept s t) : Kept s (State.badMarker t port) :=
  ite_kept (setUpstream_kept (modTmr_kept h)) (modTmr_kept h)

theorem stepTo_kept {s t corrected} (h : Kept s t) : Kept s (State.stepTo t corrected) := by
  unfold State.stepTo
  dsimp only
  exact modTmr_kept h

theorem disciplined_kept {s t corrected sub refLost} (h : Kept s t) : Kept s (State.disciplined t corrected sub refLost) := by
  unfold State.disciplined
  dsimp only
  split
  · exact modTmr_kept (setLock_kept (stepTo_kept h))
  · exact ite_kept (ite_kept (enterUnlocked_kept (modTmr_kept h)) (modTmr_kept (modTmr_kept (modTmr_kept h)))) (modTmr_kept
        (modTmr_kept (modTmr_kept h)))
  · exact ite_kept (timerTo_kept (enterUnlocked_kept (stepTo_kept (modTmr_kept h)))) (ite_kept (modTmr_kept (setLock_kept
        (modTmr_kept h))) (modTmr_kept h))

theorem goodMarker_kept {s t port sub m} (h : Kept s t) : Kept s (State.goodMarker t port sub m) :=
  ite_kept (disciplined_kept (ite_kept (modTmr_kept (modTmr_kept h)) (ite_kept (setUpstream_kept (modTmr_kept h)) (modTmr_kept
      h)))) (ite_kept (modTmr_kept (modTmr_kept h)) (ite_kept (setUpstream_kept (modTmr_kept h)) (modTmr_kept h)))

theorem execTimeMarkerSend_kept {s t} (h : Kept s t) : ResKept s (execTimeMarkerSend t) :=
  when_kept h (foldl_kept h fun _ _ hk => control_kept hk)

theorem execTimeMarker_kept {s port sub body crc t} (h : Kept s t) : ResKept s (execTimeMarker port sub body crc t) :=
  ite_resKept (next_kept h) (ite_resKept (next_kept (goodMarker_kept h)) (next_kept (badMarker_kept (ite_kept (modTmr_kept h)
      h))))

theorem execMarkerMiss_kept {s t} (h : Kept s t) : ResKept s (execMarkerMiss t) := by
  unfold execMarkerMiss
  dsimp only
  split
  · exact when_kept h (setUpstream_kept (timerEvent_kept h))
  · exact next_kept h

theorem execHoldoverEntry_kept {s t} (h : Kept s t) : ResKept s (execHoldoverEntry t) := when_kept h (enterHoldover_kept h)

theorem execHoldoverLimitExpiry_kept {s t} (h : Kept s t) : ResKept s (execHoldoverLimitExpiry t) :=
  when_kept h (enterUnlocked_kept h)

theorem takeMaster_kept {s t role master init} (h : Kept s t) : Kept s (State.takeMaster t role master init) :=
  dropLaunches_kept (timerTo_kept h)

theorem takeWaits_kept {s t} (h : Kept s t) : Kept s (State.takeWaits t) :=
  foldl_kept (modTmr_kept h) fun _ _ hk => finish_kept (takeMaster_kept hk)

theorem execMarkEdge_kept {s t} (h : Kept s t) : ResKept s (execMarkEdge t) :=
  ite_resKept (next_kept h) (ite_resKept (next_kept (takeWaits_kept h)) (when_kept h (event_kept h)))

theorem execTrefLost_kept {s t} (h : Kept s t) : ResKept s (execTrefLost t) :=
  ite_resKept (next_kept h) (ite_resKept (next_kept (event_kept (modTmr_kept (modTmr_kept h)))) (next_kept (modTmr_kept h)))

theorem execTrefRestored_kept {s t} (h : Kept s t) : ResKept s (execTrefRestored t) :=
  ite_resKept (next_kept h) (ite_resKept (next_kept (event_kept (modTmr_kept (modTmr_kept h)))) (next_kept (modTmr_kept h)))

theorem execTmrMasterSetTimeout_kept {s t} (h : Kept s t) : ResKept s (execTmrMasterSetTimeout t) := by
  unfold execTmrMasterSetTimeout
  split
  · exact when_kept h (finish_kept (modTmr_kept h))
  · exact next_kept h

theorem execAlarmFire_kept {s slot t} (h : Kept s t) : ResKept s (execAlarmFire slot t) := by
  unfold execAlarmFire
  dsimp only
  split
  · exact when_kept h (event_kept (modTmr_kept h))
  · exact next_kept h

theorem startTmrMasterSet_kept {s role master init id t} (h : Kept s t) : Kept s (startTmrMasterSet role master init id t) := by
  unfold startTmrMasterSet
  dsimp only
  split
  · exact finish_kept (modTmr_kept (enterUnlocked_kept h))
  · exact finish_kept (takeMaster_kept h)
  · exact modTmr_kept h

theorem execTmrMasterSet_kept {s e role master init t} (h : Kept s t) : ResKept s (execTmrMasterSet e role master init t) :=
  command_kept h (fun _ _ hk => startTmrMasterSet_kept hk)

theorem startTmrQuery_kept {s id t} (h : Kept s t) : Kept s (startTmrQuery id t) := finish_kept h

theorem execTmrQuery_kept {s e t} (h : Kept s t) : ResKept s (execTmrQuery e t) :=
  command_kept h (fun _ _ hk => startTmrQuery_kept hk)

theorem startTmrAlarm_kept {s slot op first period id t} (h : Kept s t) : Kept s (startTmrAlarm slot op first period id t) :=
  ite_kept (ite_kept (finish_kept h) (finish_kept (modTmr_kept h))) (finish_kept (modTmr_kept h))

theorem execTmrAlarm_kept {s e slot op first period t} (h : Kept s t) : ResKept s (execTmrAlarm e slot op first period t) :=
  command_kept h (fun _ _ hk => startTmrAlarm_kept hk)

theorem execTmrHoldoverLimitWrite_kept {s value t} (h : Kept s t) : ResKept s (execTmrHoldoverLimitWrite value t) :=
  when_kept h (modTmr_kept h)

theorem startNop_kept {s id t} (h : Kept s t) : Kept s (startNop id t) := finish_kept h
theorem execNop_kept {s e t} (h : Kept s t) : ResKept s (execNop e t) := command_kept h (fun _ _ hk => startNop_kept hk)
theorem startDevQuery_kept {s id t} (h : Kept s t) : Kept s (startDevQuery id t) := finish_kept h

theorem execDevQuery_kept {s e t} (h : Kept s t) : ResKept s (execDevQuery e t) :=
  command_kept h (fun _ _ hk => startDevQuery_kept hk)

theorem startQpCreate_kept {s sqBase cqBase sqDepth cqDepth vector vecEn job id t} (h : Kept s t) : Kept s (startQpCreate
    sqBase cqBase sqDepth cqDepth vector vecEn job id t) := by
  unfold startQpCreate
  dsimp only
  refine ite_kept (finish_kept h) (ite_kept (finish_kept h) ?_)
  split
  · exact finish_kept (modQ_kept ((choose_kept h).snd ‹_›))
  · exact finish_kept ((choose_kept h).snd ‹_›)

theorem execQpCreate_kept {s e sqBase cqBase sqDepth cqDepth vector vecEn job t} (h : Kept s t) : ResKept s (execQpCreate e
    sqBase cqBase sqDepth cqDepth vector vecEn job t) :=
  command_kept h (fun _ _ hk => startQpCreate_kept hk)

theorem leaveBarriers_kept {s t ids} (h : Kept s t) : Kept s (State.leaveBarriers t ids) := modQ_kept h

theorem startQpDestroy_kept {s e qid id t} (h : Kept s t) : Kept s (startQpDestroy e qid id t) :=
  ite_kept (finish_kept h) (finishAll_kept (leaveBarriers_kept (modPair_kept h)))

theorem execQpDestroy_kept {s e qid t} (h : Kept s t) : ResKept s (execQpDestroy e qid t) :=
  command_kept h (fun _ _ hk => startQpDestroy_kept hk)

theorem startJournalRead_kept {s dest first maxn id t} (h : Kept s t) : Kept s (startJournalRead dest first maxn id t) := by
  unfold startJournalRead
  dsimp only
  split
  · exact finish_kept h
  · exact finish_kept (writeBytes_kept h)

theorem execJournalRead_kept {s e dest first maxn t} (h : Kept s t) : ResKept s (execJournalRead e dest first maxn t) :=
  command_kept h (fun _ _ hk => startJournalRead_kept hk)

theorem closeBarrier_kept {s t bid} (h : Kept s t) : Kept s (State.closeBarrier t bid) := modQ_kept h

theorem releaseIfFull_kept {s t bid} (h : Kept s t) : Kept s (State.releaseIfFull t bid) := by
  unfold State.releaseIfFull
  dsimp only
  split
  · exact ite_kept (finishAll_kept (closeBarrier_kept h)) h
  · exact h

theorem startBarrier_kept {s e bid members id t} (h : Kept s t) : Kept s (startBarrier e bid members id t) := by
  unfold startBarrier
  dsimp only
  split
  · exact ite_kept (releaseIfFull_kept (modQ_kept h)) (finish_kept h)
  · exact ite_kept (finish_kept h) (releaseIfFull_kept (modQ_kept h))

theorem execBarrier_kept {s e bid members t} (h : Kept s t) : ResKept s (execBarrier e bid members t) :=
  command_kept h (fun _ _ hk => startBarrier_kept hk)

theorem lateBarriers_kept {s t} (h : Kept s t) : Kept s (State.lateBarriers t) :=
  finishAll_kept (modQ_kept (foldl_kept h fun _ _ hk => releaseIfFull_kept hk))

theorem strayDoorbell_kept {s t off value} (h : Kept s t) : Kept s (State.strayDoorbell t off value) := event_kept h

theorem execSqTailDoorbell_kept {s q value t} (h : Kept s t) : ResKept s (execSqTailDoorbell q value t) := by
  unfold execSqTailDoorbell
  dsimp only
  refine ite_resKept (next_kept h) ?_
  split
  · exact next_kept (strayDoorbell_kept h)
  · exact ite_resKept (next_kept h) (ite_resKept (next_kept (pairError_kept h)) (next_kept (modPair_kept h)))

theorem execCqHeadDoorbell_kept {s q value t} (h : Kept s t) : ResKept s (execCqHeadDoorbell q value t) := by
  unfold execCqHeadDoorbell
  dsimp only
  refine ite_resKept (next_kept h) ?_
  split
  · exact next_kept (strayDoorbell_kept h)
  · exact ite_resKept (next_kept h) (ite_resKept (next_kept (pairError_kept h)) (next_kept (modPair_kept h)))

theorem execQp0Enable_kept {s ctrl t} (h : Kept s t) : ResKept s (execQp0Enable ctrl t) := by
  unfold execQp0Enable
  dsimp only
  split
  · exact next_kept h
  · exact ite_resKept (next_kept h) (ite_resKept (next_kept (modPair_kept (modPair_kept h))) (next_kept (event_kept
        (modPair_kept (modPair_kept h)))))

theorem execQp0Disable_kept {s ctrl t} (h : Kept s t) : ResKept s (execQp0Disable ctrl t) :=
  ite_resKept (next_kept h) (next_kept (settled_kept (modPair_kept h)))

theorem eraseFlash_kept {s t : State} {off n} (h : Kept s t) : Kept s (t.eraseFlash off n) :=
  ⟨h.pending, fun hs => cellsWf_filter (h.mem hs) _, h.evc⟩

theorem flashWrite_kept {s t type body} (h : Kept s t) : Kept s (State.flashWrite t type body) := by
  unfold State.flashWrite
  dsimp only
  split
  · exact writeBytes_kept (eraseFlash_kept h)
  · exact h

theorem writeRepair_kept {s t} (h : Kept s t) : Kept s (State.writeRepair t) := flashWrite_kept h

theorem flashFails_kept {s t : State} (h : Kept s t) :
    Kept s (t.flashFails).2 := by
  exact h.frame

theorem modCfg_kept {s t ctx handle f} (h : Kept s t) : Kept s (State.modCfg t ctx handle f) := modCtx_kept h
theorem modCore_kept {s t c f} (h : Kept s t) : Kept s (State.modCore t c f) := modFab_kept h
theorem modInv_kept {s t i f} (h : Kept s t) : Kept s (State.modInv t i f) := modFab_kept h
theorem modChan_kept {s t ch f} (h : Kept s t) : Kept s (State.modChan t ch f) := modFab_kept h

theorem popIq_kept {s t core q} (h : Kept s t) : Kept s (State.popIq t core q) := by
  unfold State.popIq
  dsimp only
  split
  · exact h
  · split
    · exact modChan_kept (modCore_kept h)
    · exact modCore_kept h

theorem popIqs_kept {s t core qs} (h : Kept s t) : Kept s (State.popIqs t core qs) := foldl_kept h fun _ _ hk => popIq_kept hk

theorem forward_kept {s t l} (h : Kept s t) : Kept s (State.forward t l) := by
  unfold State.forward
  dsimp only
  split
  · split
    · refine ite_kept h ?_
      split
      · exact modChan_kept (modChan_kept h)
      · exact modChan_kept h
    · exact h
  · exact h

theorem forwardAll_kept {s t l} (h : Kept s t) : Kept s (State.forwardAll t l) := repeat_kept h (fun _ hk => forward_kept hk)

theorem count_kept {s t inv station d} (h : Kept s t) : Kept s (State.count t inv station d) := by
  unfold State.count
  dsimp only
  split
  · exact modInv_kept (modFab_kept h)
  · exact modFab_kept h

theorem countCore_kept {s t c d} (h : Kept s t) : Kept s (State.countCore t c d) := count_kept h

theorem zeroRange_kept {s t : State} {k len} (h : Kept s t) : Kept s (t.zeroRange k len) :=
  ⟨h.pending, fun hs => cellsWf_filter (h.mem hs) _, h.evc⟩

theorem startMemAlloc_kept {s size space job alignLog2 id t} (h : Kept s t) : Kept s (startMemAlloc size space job alignLog2 id
    t) := by
  unfold startMemAlloc
  dsimp only
  split
  · exact finish_kept h
  · split
    · exact finish_kept h
    · exact finish_kept (modMem_kept h)

theorem execMemAlloc_kept {s e size space job alignLog2 t} (h : Kept s t) : ResKept s (execMemAlloc e size space job alignLog2
    t) :=
  command_kept h (fun _ _ hk => startMemAlloc_kept hk)

theorem startMemFree_kept {s id t} (h : Kept s t) : Kept s (startMemFree id t) := by
  unfold startMemFree
  dsimp only
  split
  · exact finish_kept h
  · exact ite_kept (finish_kept h) (finish_kept (modMem_kept h))

theorem execMemFree_kept {s e ga t} (h : Kept s t) : ResKept s (execMemFree e ga t) :=
  command_kept h (fun _ _ hk => startMemFree_kept hk)

theorem startMemCopy_kept {s e src dst len id t} (h : Kept s t) : Kept s (startMemCopy e src dst len id t) := by
  unfold startMemCopy
  dsimp only
  split
  · exact ite_kept (finish_kept h) (modRec_kept h)
  · exact finish_kept h

theorem execMemCopy_kept {s e src dst len t} (h : Kept s t) : ResKept s (execMemCopy e src dst len t) :=
  command_kept h (fun _ _ hk => startMemCopy_kept hk)

theorem startMemFill_kept {s e dst len pattern id t} (h : Kept s t) : Kept s (startMemFill e dst len pattern id t) := by
  unfold startMemFill
  dsimp only
  split
  · exact ite_kept (finish_kept h) (modRec_kept h)
  · exact finish_kept h

theorem execMemFill_kept {s e dst len pattern t} (h : Kept s t) : ResKept s (execMemFill e dst len pattern t) :=
  command_kept h (fun _ _ hk => startMemFill_kept hk)

theorem endCopy_kept {s t id src dst len} (h : Kept s t) : Kept s (State.endCopy t id src dst len) :=
  finish_kept (copyRange_kept h)

theorem endFill_kept {s t id dst len pattern} (h : Kept s t) : Kept s (State.endFill t id dst len pattern) :=
  finish_kept (writeBytes_kept h)

theorem scribble_kept {s t k len} (h : Kept s t) : Kept s (State.scribble t k len) := writeBytes_kept (drawBytes_kept h)
theorem countConv_kept {s t o} (h : Kept s t) : Kept s (State.countConv t o) := count_kept h

theorem endConvert_kept {s t r src dst len desc} (h : Kept s t) : Kept s (State.endConvert t r src dst len desc) := by
  unfold State.endConvert
  dsimp only
  refine ite_kept (finish_kept (scribble_kept h)) ?_
  split
  · exact finish_kept h
  · exact ite_kept (finish_kept h) (finish_kept (countConv_kept (writeMarked_kept h)))

theorem saveOut_kept {s t c p} (h : Kept s t) : Kept s (State.saveOut t c p) := by
  unfold State.saveOut
  dsimp only
  split
  · exact writeMarked_kept h
  · exact copyRange_kept h

theorem saveIn_kept {s t p} (h : Kept s t) : Kept s (State.saveIn t p) := by
  unfold State.saveIn
  refine ite_kept ?_ (copyRange_kept h)
  split
  · exact writeMarked_kept h
  · exact h

theorem evict_kept {s t : State} {c sp} (h : Kept s t) :
    Kept s (t.evict c sp).1 := by
  unfold State.evict
  split
  · exact modCtx_kept (foldl_kept h fun _ _ hk => saveOut_kept hk)
  · exact h

theorem restore_kept {s t : State} {c} (h : Kept s t) :
    Kept s (t.restore c).1 := by
  exact modCtx_kept (foldl_kept h fun _ _ hk => saveIn_kept hk)

theorem blockedEvent_kept {s t r c reason} (h : Kept s t) : Kept s (State.blockedEvent t r c reason) :=
  ite_kept h (event_kept (modCtx_kept h))

theorem noteRunnables_kept {s t j} (h : Kept s t) : Kept s (State.noteRunnables t j) := h.frame

theorem makeRoom_kept {s t : State} {r todo} (h : Kept s t) : Kept s (t.makeRoom r todo) := by
  induction todo with
  | nil =>
    unfold State.makeRoom
    exact ite_kept h h.frame
  | cons n rest ih =>
    unfold State.makeRoom
    split
    · exact ite_kept (blockedEvent_kept h) h.frame
    · exact ih

theorem rebalance_kept {s t j} (h : Kept s t) : Kept s (State.rebalance t j) := by
  unfold State.rebalance
  dsimp only
  refine ite_kept (noteRunnables_kept h) ?_
  split
  · exact noteRunnables_kept h
  · refine ite_kept (makeRoom_kept (noteRunnables_kept h)) (ite_kept (noteRunnables_kept h) (ite_kept (noteRunnables_kept h)
        ?_))
    split
    · exact blockedEvent_kept (noteRunnables_kept h)
    · exact makeRoom_kept (noteRunnables_kept h)

theorem moveOn_kept {s t m} (h : Kept s t) : Kept s (State.moveOn t m) := by
  unfold State.moveOn
  split
  · exact makeRoom_kept (noteRunnables_kept h)
  · exact rebalance_kept h

theorem modServing_kept {s t ctx f} (h : Kept s t) : Kept s (State.modServing t ctx f) := modCtx_kept h

theorem ring_kept {s t ctx request kind flags status tokens step} (h : Kept s t) : Kept s (State.ring t ctx request kind flags
    status tokens step) := by
  unfold State.ring
  dsimp only
  split
  · split
    · split
      · exact ite_kept (msix_kept (writeBytes_kept (modServing_kept h))) (writeBytes_kept (modServing_kept h))
      · exact modServing_kept h
    · exact h
  · exact h

theorem shardEntry_kept {s t c w i status check sat_ nan} (h : Kept s t) : Kept s (State.shardEntry t c w i status check sat_
    nan) := by
  unfold State.shardEntry
  refine ite_kept h ?_
  split
  · exact writeBytes_kept h
  · exact h

theorem cancelShards_kept {s t c} (h : Kept s t) : Kept s (State.cancelShards t c) :=
  foldl_kept h fun _ _ hk => foldl_kept hk fun _ _ hk => shardEntry_kept hk

theorem retire_kept {s t ctx req st poison} (h : Kept s t) : Kept s (State.retire t ctx req st poison) := by
  unfold State.retire
  dsimp only
  split
  · split
    · split
      · split
        · exact finish_kept (ring_kept (modCtx_kept (modServing_kept h)))
        · exact ring_kept (modCtx_kept (modServing_kept h))
      · exact h
    · exact h
  · exact h

theorem stopIfDrained_kept {s t ctx} (h : Kept s t) : Kept s (State.stopIfDrained t ctx) := by
  unfold State.stopIfDrained
  split
  · split
    · split
      · exact ite_kept (finish_kept (modServing_kept h)) h
      · exact h
    · exact h
  · exact h

theorem addService_kept {s t cls route core load} (h : Kept s t) : Kept s (State.addService t cls route core load) :=
  ite_kept h (modFab_kept h)

theorem sendService_kept {s t cls core dst load} (h : Kept s t) : Kept s (State.sendService t cls core dst load) :=
  addService_kept h

theorem managerPacket_kept {s t cls core} (h : Kept s t) : Kept s (State.managerPacket t cls core) :=
  addService_kept (draw_kept h)

theorem passOver_kept {s t id hop} (h : Kept s t) : Kept s (State.passOver t id hop) := modFab_kept h
theorem settleYields_kept {s t} (h : Kept s t) : Kept s (State.settleYields t) := finishAll_kept h.frame

theorem enterCore_kept {s t c g i core} (h : Kept s t) : Kept s (State.enterCore t c g i core) := by
  unfold State.enterCore
  dsimp only
  split
  · exact h
  · split
    · exact h
    · exact modFab_kept (ite_kept (zeroRange_kept h) h)

theorem noteOwner_kept {s t i} (h : Kept s t) : Kept s (State.noteOwner t i) := by
  unfold State.noteOwner
  split
  · exact modRec_kept h
  · exact modRec_kept h
  · exact h

theorem launchInv_kept {s t i} (h : Kept s t) : Kept s (State.launchInv t i) := by
  unfold State.launchInv
  dsimp only
  split
  · exact settleYields_kept (trace_kept (noteOwner_kept (foldl_kept (modFab_kept (modFab_kept (modInv_kept h))) fun _ _ hk =>
        enterCore_kept hk)))
  · exact h

theorem addInv_kept {s t : State} {mk} (h : Kept s t) : Kept s (t.addInv mk).1 := h.frame

theorem writeEntry_kept {s t l e st ticks spill poisoned} (h : Kept s t) : Kept s (State.writeEntry t l e st ticks spill
    poisoned) :=
  writeBytes_kept h

theorem modList_kept {s t cmd f} (h : Kept s t) : Kept s (State.modList t cmd f) := modFab_kept h
theorem finishList_kept {s t l} (h : Kept s t) : Kept s (State.finishList t l) := finish_kept (modFab_kept h)

theorem entryDone_kept {s t : State} {l st ticks spill poisoned} (h : Kept s t) :
    Kept s (t.entryDone l st ticks spill poisoned).1 := by
  exact modList_kept (ite_kept (foldl_kept (writeEntry_kept h) fun _ _ hk => writeEntry_kept hk) (writeEntry_kept h))

theorem listGo_kept {s t : State} {n cmd tick} (h : Kept s t) : Kept s (State.listGo n cmd tick t) := by
  induction n generalizing t tick with
  | zero => exact h
  | succ n ih =>
    unfold State.listGo
    dsimp only
    split
    · exact h
    · refine ite_kept (finishList_kept h) ?_
      split
      · exact ih (entryDone_kept h)
      · exact ih (entryDone_kept h)
      · have hinv : ∀ mk, Kept s (t.addInv mk).1 := fun _ => addInv_kept h
        split
        · exact hinv _
        · exact ite_kept (launchInv_kept (hinv _)) (ite_kept (modInv_kept (hinv _)) (ih (entryDone_kept h)))

theorem writeBlock_kept {s t i st} (h : Kept s t) : Kept s (State.writeBlock t i st) := by
  unfold State.writeBlock
  refine ite_kept h ?_
  split
  · exact writeBytes_kept h
  · exact h

theorem markTorn_kept {s t i} (h : Kept s t) : Kept s (State.markTorn t i) := modInv_kept h

theorem clearInv_kept {s t i} (h : Kept s t) : Kept s (State.clearInv t i) := by
  unfold State.clearInv
  dsimp only
  exact modFab_kept (ite_kept h (modLink_kept h))

theorem endInv_kept {s t : State} {id st torn} (h : Kept s t) : Kept s (t.endInv id st torn) := by
  have hclear : ∀ i j, Kept s (((if torn then t.markTorn i else t).writeBlock j st).clearInv j) := fun _ _ =>
    clearInv_kept (writeBlock_kept (ite_kept (markTorn_kept h) h))
  have hyield : ∀ (c : Prop) [Decidable c] i j n m b, Kept s (if c then
      (((if torn then t.markTorn i else t).writeBlock j st).clearInv j).trace n m b
      else ((if torn then t.markTorn i else t).writeBlock j st).clearInv j).settleYields := fun _ _ _ _ _ _ _ =>
    settleYields_kept (ite_kept (trace_kept (hclear _ _)) (hclear _ _))
  unfold State.endInv
  dsimp only
  split
  · exact h
  · split
    · exact finish_kept (hyield _ _ _ _ _ _)
    · split
      · refine listGo_kept ?_
        split
        · exact entryDone_kept (hyield _ _ _ _ _ _)
        · exact entryDone_kept (hyield _ _ _ _ _ _)
      · exact hyield _ _ _ _ _ _
    · exact modServing_kept (hyield _ _ _ _ _ _)
    · exact modServing_kept (hyield _ _ _ _ _ _)

theorem tearDown_kept {s t ctx cause} (h : Kept s t) : Kept s (State.tearDown t ctx cause) := by
  unfold State.tearDown
  dsimp only
  split
  · exact h
  · exact rebalance_kept (event_kept (modServing_kept (stopIfDrained_kept (foldl_kept (modServing_kept (finishAll_kept
        (modFab_kept (foldl_kept (modFab_kept (modCtx_kept (foldl_kept h fun _ _ hk => markTorn_kept hk))) fun _ _ hk =>
        endInv_kept hk)))) fun _ _ hk => retire_kept hk))))

theorem faultInv_kept {s t inv cause} (h : Kept s t) : Kept s (State.faultInv t inv cause) := by
  unfold State.faultInv
  split
  · exact tearDown_kept h
  · exact h

theorem faultCore_kept {s t c cause} (h : Kept s t) : Kept s (State.faultCore t c cause) := by
  unfold State.faultCore
  split
  · exact tearDown_kept h
  · exact h

theorem writeSpares_kept {s t} (h : Kept s t) : Kept s (State.writeSpares t) := modGrid_kept h

theorem elementOut_kept {s t e} (h : Kept s t) : Kept s (State.elementOut t e) :=
  ite_kept h (journalAction_kept (event_kept (modBoot_kept (modGrid_kept h))))

theorem fabricFault_kept {s t e ctx} (h : Kept s t) : Kept s (State.fabricFault t e ctx) := by
  unfold State.fabricFault
  dsimp only
  refine elementOut_kept ?_
  split
  · exact tearDown_kept h
  · exact h

theorem remapEvents_kept {s t die rows ended} (h : Kept s t) : Kept s (State.remapEvents t die rows ended) :=
  foldl_kept h fun _ _ hk => foldl_kept hk fun _ _ hk => event_kept hk

theorem holdRows_kept {s t die row pos hosts rows moved} (h : Kept s t) : Kept s (State.holdRows t die row pos hosts rows
    moved) := by
  unfold State.holdRows
  dsimp only
  split
  · exact remapEvents_kept (modGrid_kept h)
  · exact remapEvents_kept (modGrid_kept h)

theorem retireColumn_kept {s t : State} {die} (h : Kept s t) : Kept s (t.retireColumn die) := by
  have hdown : ∀ l : List Nat, Kept s (l.foldl (fun s c => s.tearDown c .fault) t) := fun _ =>
    foldl_kept h fun _ _ hk => tearDown_kept hk
  unfold State.retireColumn
  dsimp only
  refine foldl_kept (journalAction_kept (event_kept (writeSpares_kept ?_))) fun _ _ hk => event_kept hk
  exact ⟨(hdown _).pending, fun hs => cellsWf_retire ((hdown _).mem hs) _, (hdown _).evc⟩

theorem retireUntil_kept {s t : State} {n die} (h : Kept s t) : Kept s (State.retireUntil n die t) := by
  induction n generalizing t with
  | zero => exact h
  | succ n ih =>
    unfold State.retireUntil
    exact ite_kept (retireColumn_kept h) (ih (retireColumn_kept h))

theorem failPos_kept {s t die row pos} (h : Kept s t) : Kept s (State.failPos t die row pos) := by
  unfold State.failPos
  dsimp only
  refine ite_kept h ?_
  split
  · refine ite_kept (modGrid_kept ?_) (holdRows_kept (modGrid_kept ?_))
    · split
      · exact tearDown_kept h
      · exact h
    · split
      · exact tearDown_kept h
      · exact h
  · refine holdRows_kept (writeRepair_kept (retireUntil_kept (modGrid_kept ?_)))
    split
    · exact tearDown_kept h
    · exact h

theorem failCore_kept {s t core} (h : Kept s t) : Kept s (State.failCore t core) := failPos_kept h

theorem restart_kept {s t : State} (h : Kept s t) : Kept s t.restart :=
  ⟨h.pending, fun hs => cellsWf_filter (h.mem hs) _, fun _ => show State.reset.evc.wf = true by decide⟩

theorem railsOff_kept {s t} (h : Kept s t) : Kept s (State.railsOff t) := modPins_kept (restart_kept h)
theorem enterTrivet_kept {s t cause} (h : Kept s t) : Kept s (State.enterTrivet t cause) := h.frame
theorem raiseRails_kept {s t} (h : Kept s t) : Kept s (State.raiseRails t) := modPins_kept h
theorem execPwrEnRise_kept {s t} (h : Kept s t) : ResKept s (execPwrEnRise t) := when_kept h (raiseRails_kept (modPins_kept h))
theorem execPwrEnFall_kept {s t} (h : Kept s t) : ResKept s (execPwrEnFall t) := when_kept h (railsOff_kept (modPins_kept h))

theorem execVinRise_kept {s mv t} (h : Kept s t) : ResKept s (execVinRise mv t) :=
  when_kept h (raiseRails_kept (modPins_kept h))

theorem execPwrGoodRise_kept {s t} (h : Kept s t) : ResKept s (execPwrGoodRise t) := when_kept h (modPins_kept h)
theorem execVinRemoval_kept {s t} (h : Kept s t) : ResKept s (execVinRemoval t) := when_kept h (railsOff_kept (modPins_kept h))
theorem execTripLatchRelease_kept {s t} (h : Kept s t) : ResKept s (execTripLatchRelease t) := when_kept h (modPins_kept h)

theorem execResetNAssert_kept {s t} (h : Kept s t) : ResKept s (execResetNAssert t) :=
  when_kept h (restart_kept (modPins_kept h))

theorem execResetNRelease_kept {s t} (h : Kept s t) : ResKept s (execResetNRelease t) :=
  when_kept h (restart_kept (modPins_kept h))

theorem loadTap_kept {s t : State} {i} (h : Kept s t) : ResKept s (t.loadTap i) := by
  have hpins : ∀ (p : Pins) (n : Nat), Kept s { t with pins := p, free := n } := fun _ _ => h.frame
  unfold State.loadTap
  exact when_kept h (ite_kept (send_kept (ite_kept (hpins _ _) (hpins _ _))) (send_kept (modPins_kept h)))

theorem execBypass_kept {s t} (h : Kept s t) : ResKept s (execBypass t) := loadTap_kept h
theorem execIdcode_kept {s t} (h : Kept s t) : ResKept s (execIdcode t) := loadTap_kept h
theorem execSamplePreload_kept {s t} (h : Kept s t) : ResKept s (execSamplePreload t) := loadTap_kept h
theorem execExtest_kept {s t} (h : Kept s t) : ResKept s (execExtest t) := loadTap_kept h
theorem execExtestPulse_kept {s t} (h : Kept s t) : ResKept s (execExtestPulse t) := loadTap_kept h
theorem execExtestTrain_kept {s t} (h : Kept s t) : ResKept s (execExtestTrain t) := loadTap_kept h
theorem execClamp_kept {s t} (h : Kept s t) : ResKept s (execClamp t) := loadTap_kept h
theorem execHighz_kept {s t} (h : Kept s t) : ResKept s (execHighz t) := loadTap_kept h

theorem bootFail_kept {s t code detail} (h : Kept s t) : Kept s (State.bootFail t code detail) :=
  enterTrivet_kept (modBoot_kept h)

theorem nextStage_kept {s t ms} (h : Kept s t) : Kept s (State.nextStage t ms) := modBoot_kept h

theorem bootFlash_kept {s t r} (h : Kept s t) : Kept s (State.bootFlash t r) :=
  ite_kept (bootFail_kept h) (ite_kept (bootFail_kept h) (ite_kept (bootFail_kept h) (nextStage_kept (modBoot_kept h))))

theorem bootPower_kept {s t r} (h : Kept s t) : Kept s (State.bootPower t r) := by
  unfold State.bootPower
  split
  · exact bootFail_kept h
  · exact bootFail_kept h
  · exact nextStage_kept h

theorem bootSelfTest_kept {s t r} (h : Kept s t) : Kept s (State.bootSelfTest t r) := by
  unfold State.bootSelfTest
  split
  · exact bootFail_kept h
  · exact nextStage_kept (modBoot_kept (modGrid_kept h))

theorem bootRepair_kept {s t ms} (h : Kept s t) : Kept s (State.bootRepair t ms) := by
  unfold State.bootRepair
  dsimp only
  split
  · exact bootFail_kept (modGrid_kept h)
  · exact nextStage_kept (ite_kept (modBoot_kept (writeSpares_kept (modGrid_kept (modGrid_kept h)))) (writeRepair_kept
        (modBoot_kept (writeSpares_kept (modGrid_kept (modGrid_kept h))))))

theorem bootTrain_kept {s t r} (h : Kept s t) : Kept s (State.bootTrain t r) := by
  unfold State.bootTrain
  dsimp only
  split
  · exact bootFail_kept h
  · exact nextStage_kept (foldl_kept (modBoot_kept (modGrid_kept h)) fun _ _ hk => event_kept hk)

theorem execBootStageComplete_kept {s r t} (h : Kept s t) : ResKept s (execBootStageComplete r t) := by
  unfold execBootStageComplete
  refine ite_resKept (next_kept h) ?_
  split
  · exact next_kept (nextStage_kept h)
  · exact ite_resKept (next_kept (nextStage_kept (modBoot_kept h))) (next_kept (modBoot_kept h))
  · exact next_kept (bootFlash_kept h)
  · exact next_kept (bootPower_kept h)
  · exact next_kept (bootSelfTest_kept h)
  · exact next_kept (bootRepair_kept h)
  · exact next_kept (bootTrain_kept h)
  · exact next_kept h

theorem execFirmwareStart_kept {s ms t} (h : Kept s t) : ResKept s (execFirmwareStart ms t) := by
  unfold execFirmwareStart
  dsimp only
  split
  · exact ite_resKept (next_kept h) (next_kept (finish_kept (modHealth_kept (modPwr_kept (nextStage_kept (modBoot_kept h))))))
  · exact next_kept h

theorem execDdrZeroFill_kept {s t} (h : Kept s t) : ResKept s (execDdrZeroFill t) := when_kept h (modBoot_kept h)
theorem countCorrected_kept {s t n} (h : Kept s t) : Kept s (State.countCorrected t n) := modHealth_kept h

theorem sramWords_kept {s t die row pos core good bad worn} (h : Kept s t) : Kept s (State.sramWords t die row pos core good
    bad worn) := by
  unfold State.sramWords
  dsimp only
  refine ite_kept (failPos_kept ?_) ?_
  · split
    · exact foldl_kept (modHealth_kept (countCorrected_kept h)) fun _ _ hk => event_kept (markPoison_kept hk)
    · exact modHealth_kept (countCorrected_kept h)
  · split
    · exact foldl_kept (modHealth_kept (countCorrected_kept h)) fun _ _ hk => event_kept (markPoison_kept hk)
    · exact modHealth_kept (countCorrected_kept h)

theorem hbmWords_kept {s t stack pc row good bad} (h : Kept s t) : Kept s (State.hbmWords t stack pc row good bad) :=
  foldl_kept (modHealth_kept (countCorrected_kept h)) fun _ _ hk => event_kept (markPoison_kept hk)

theorem ddrWords_kept {s t channel good bad} (h : Kept s t) : Kept s (State.ddrWords t channel good bad) :=
  foldl_kept (modHealth_kept (countCorrected_kept h)) fun _ _ hk => ite_kept (event_kept (modHealth_kept (event_kept
      (markPoison_kept hk)))) (modHealth_kept (event_kept (markPoison_kept hk)))

theorem settleUpsets_kept {s t ws} (h : Kept s t) : Kept s (State.settleUpsets t ws) := modMem_kept h

theorem meetUpset_kept {s t u'} (h : Kept s t) : Kept s (State.meetUpset t u') := by
  unfold State.meetUpset
  dsimp only
  split
  · exact hbmWords_kept (settleUpsets_kept h)
  · split
    · exact ddrWords_kept (settleUpsets_kept h)
    · exact settleUpsets_kept h
  · exact sramWords_kept (settleUpsets_kept h)
  · exact settleUpsets_kept h

theorem touch_kept {s t k len} (h : Kept s t) : Kept s (State.touch t k len) :=
  ite_kept (modMem_kept (foldl_kept h fun _ _ hk => meetUpset_kept hk)) (foldl_kept h fun _ _ hk => meetUpset_kept hk)

theorem touchAll_kept {s t rs} (h : Kept s t) : Kept s (State.touchAll t rs) := foldl_kept h fun _ _ hk => touch_kept hk
theorem touchHeader_kept {s t d src} (h : Kept s t) : Kept s (State.touchHeader t d src) := ite_kept (touch_kept h) h

theorem startMemConvert_kept {s e src dst len desc id t} (h : Kept s t) : Kept s (startMemConvert e src dst len desc id t) := by
  unfold startMemConvert
  dsimp only
  split
  · exact ite_kept (finish_kept (touchHeader_kept h)) (ite_kept (finish_kept (touchHeader_kept h)) (modRec_kept
        (touchHeader_kept h)))
  · exact finish_kept h

theorem execMemConvert_kept {s e src dst len desc t} (h : Kept s t) : ResKept s (execMemConvert e src dst len desc t) :=
  command_kept h (fun _ _ hk => startMemConvert_kept hk)

theorem restoreMirror_kept {s t : State} {c v step} (h : Kept s t) :
    Kept s (t.restoreMirror c v step).1 := by
  unfold State.restoreMirror
  split
  · refine modCtx_kept (foldl_kept ?_ fun _ _ hk => saveIn_kept hk)
    exact foldl_fst_kept h fun _ _ hk => copyRange_kept hk
  · exact h

theorem startJobOpen_kept {s e desc nrect dlen id t} (h : Kept s t) : Kept s (startJobOpen e desc nrect dlen id t) := by
  unfold startJobOpen
  dsimp only
  split
  · exact finish_kept (touch_kept h)
  · split
    · exact ite_kept (finish_kept (touch_kept h)) (finish_kept ((touch_kept h).frame))
    · exact finish_kept (touch_kept h)

theorem execJobOpen_kept {s e desc nrect dlen t} (h : Kept s t) : ResKept s (execJobOpen e desc nrect dlen t) :=
  command_kept h (fun _ _ hk => startJobOpen_kept hk)

theorem destroyCtx_kept {s t : State} {ctx} (h : Kept s t) : Kept s (t.destroyCtx ctx) := by
  unfold State.destroyCtx
  dsimp only
  split
  · exact h
  · have hmoved : ∀ (l : List Move) (u : State), Kept s u → Kept s (l.foldl State.moveOn u) := fun l u hu =>
      foldl_kept hu fun _ _ hk => moveOn_kept hk
    refine ite_kept (rebalance_kept (hmoved _ _ (finishAll_kept (modLink_kept ?_))))
      (hmoved _ _ (finishAll_kept (modLink_kept ?_))) <;> exact (cancelShards_kept h).frame

theorem destroyForced_kept {s t ctx} (h : Kept s t) : Kept s (State.destroyForced t ctx) := destroyCtx_kept (tearDown_kept h)

theorem startJobClose_kept {s t : State} {job force id} (h : Kept s t) : Kept s (startJobClose job force id t) := by
  unfold startJobClose
  dsimp only
  exact ite_kept (finish_kept h) (ite_kept (finish_kept h)
    (finish_kept (foldl_kept (f := State.destroyForced) h fun _ _ hk => destroyForced_kept hk).frame))

theorem execJobClose_kept {s e job force t} (h : Kept s t) : ResKept s (execJobClose e job force t) :=
  command_kept h (fun _ _ hk => startJobClose_kept hk)

theorem startCtxCreate_kept {s t : State} {e job table n hr pin id} (h : Kept s t) :
    Kept s (startCtxCreate e job table n hr pin id t) := by
  unfold startCtxCreate
  dsimp only
  split
  · exact finish_kept h
  · split
    · exact finish_kept (touch_kept h)
    · refine ite_kept (finish_kept (touch_kept h)) ?_
      split
      · exact finish_kept ((choose_kept (touch_kept h)).snd ‹_›).frame
      · exact finish_kept ((choose_kept (touch_kept h)).snd ‹_›)

theorem execCtxCreate_kept {s e job table nregion hostRouted pin t} (h : Kept s t) : ResKept s (execCtxCreate e job table
    nregion hostRouted pin t) :=
  command_kept h (fun _ _ hk => startCtxCreate_kept hk)

theorem startCtxDestroy_kept {s e force id t} (h : Kept s t) : Kept s (startCtxDestroy e force id t) := by
  unfold startCtxDestroy
  split
  · exact finish_kept h
  · exact ite_kept (finish_kept h) (ite_kept (finish_kept (destroyForced_kept h)) (finish_kept (destroyCtx_kept h)))

theorem execCtxDestroy_kept {s e force t} (h : Kept s t) : ResKept s (execCtxDestroy e force t) :=
  command_kept h (fun _ _ hk => startCtxDestroy_kept hk)

theorem startCtxPin_kept {s e op id t} (h : Kept s t) : Kept s (startCtxPin e op id t) := by
  unfold startCtxPin
  split
  · exact finish_kept h
  · exact finish_kept (modCtx_kept h)

theorem execCtxPin_kept {s e op t} (h : Kept s t) : ResKept s (execCtxPin e op t) :=
  command_kept h (fun _ _ hk => startCtxPin_kept hk)

theorem startCtxEvict_kept {s e space id t} (h : Kept s t) : Kept s (startCtxEvict e space id t) := by
  unfold startCtxEvict
  split
  · exact finish_kept h
  · split
    · exact finish_kept h
    · exact ite_kept (finish_kept h) (modRec_kept h)

theorem execCtxEvict_kept {s e space t} (h : Kept s t) : ResKept s (execCtxEvict e space t) :=
  command_kept h (fun _ _ hk => startCtxEvict_kept hk)

theorem halfMoved_kept {s t ps} (h : Kept s t) : Kept s (State.halfMoved t ps) := foldl_kept h fun _ _ hk => scribble_kept hk

theorem endEvict_kept {s t id ctx space} (h : Kept s t) : Kept s (State.endEvict t id ctx space) := by
  unfold State.endEvict
  dsimp only
  split
  · exact ite_kept (rebalance_kept (finish_kept (halfMoved_kept h))) (rebalance_kept (finish_kept (evict_kept h)))
  · exact finish_kept h

theorem startCtxRestore_kept {s e id t} (h : Kept s t) : Kept s (startCtxRestore e id t) := by
  unfold startCtxRestore
  dsimp only
  split
  · exact finish_kept h
  · refine ite_kept (finish_kept (touchAll_kept h)) (ite_kept (finish_kept (touchAll_kept h)) ?_)
    split
    · exact finish_kept (touchAll_kept h)
    · exact modRec_kept (touchAll_kept h)

theorem execCtxRestore_kept {s e t} (h : Kept s t) : ResKept s (execCtxRestore e t) :=
  command_kept h (fun _ _ hk => startCtxRestore_kept hk)

theorem takeBack_kept {s t : State} {c v} (h : Kept s t) :
    Kept s (t.takeBack c v).1 := by
  have hback : Kept s (if c.resident then (t, 0) else t.restore c).1 := by
    split
    · exact h
    · exact restore_kept h
  unfold State.takeBack
  dsimp only
  split
  · exact modCtx_kept (restoreMirror_kept hback)
  · exact hback

theorem endRestore_kept {s t : State} {id ctx} (h : Kept s t) : Kept s (t.endRestore id ctx) := by
  unfold State.endRestore
  split
  case h_2 => exact finish_kept h
  case h_1 c hc =>
    have htouched : ∀ v : Option (Serving × Nat), Kept s (match v with
        | some (v, _) => (t.touchAll c.mirrorReads).touchAll ((t.touchAll c.mirrorReads).mirrorRestoreReads c v)
        | none => t.touchAll c.mirrorReads) := fun v => by
      split
      · exact touchAll_kept (touchAll_kept h)
      · exact touchAll_kept h
    dsimp only
    generalize (t.touchAll c.mirrorReads).takeover? c = v
    specialize htouched v
    split
    · exact rebalance_kept (finish_kept (halfMoved_kept htouched))
    · exact ite_kept (finish_kept htouched) (rebalance_kept (finish_kept (takeBack_kept htouched)))

theorem moveFails_kept {s t m c} (h : Kept s t) : Kept s (State.moveFails t m c) := by
  unfold State.moveFails
  dsimp only
  refine ite_kept ?_ (halfMoved_kept h)
  split
  · exact blockedEvent_kept (halfMoved_kept h)
  · exact halfMoved_kept h

theorem execEvictionOrRestoreEnd_kept {s t : State} {job} (h : Kept s t) : ResKept s (execEvictionOrRestoreEnd job t) := by
  have hmoved : ∀ (u : State) (c : Prop) [Decidable c] (x : Ctx), Kept s u →
      Kept s (if c then u.evict x 1 else u.restore x).1 := fun u c _ x hu => by
    split
    · exact evict_kept hu
    · exact restore_kept hu
  unfold execEvictionOrRestoreEnd
  dsimp only
  split
  · exact next_kept h
  · split
    · exact when_kept h (moveOn_kept h.frame)
    · exact ite_resKept (when_kept h (rebalance_kept (moveFails_kept (touchAll_kept h.frame))))
        (when_kept h (moveOn_kept (trace_kept (event_kept (hmoved _ _ _ (touchAll_kept h.frame))))))

theorem reserve_kept {s t u : State} {j ctx hd kind g n} (h : Kept s t) (e : t.reserve j ctx hd kind g n = some u) : Kept s u := by
  obtain ⟨k, -, rfl⟩ := Option.map_eq_some_iff.mp e
  exact h.frame

theorem reserveCfg_kept {s t u : State} {j ctx hd im} (h : Kept s t) (e : t.reserveCfg j ctx hd im = some u) : Kept s u := by
  refine foldl_option_kept (fun acc g hacc v hv => ?_) (fun v hv => (Option.some.inj hv) ▸ h) u e
  dsimp only at hv
  split at hv
  · exact hacc v hv
  · obtain ⟨w, hw, hv⟩ := Option.bind_eq_some_iff.mp hv
    obtain ⟨x, hx, hw⟩ := Option.bind_eq_some_iff.mp hw
    exact reserve_kept (reserve_kept (hacc x hx) hw) hv

theorem loadCfg_kept {s t : State} {c im hs ch id} (h : Kept s t) : Kept s (t.loadCfg c im hs ch id) := by
  unfold State.loadCfg
  dsimp only
  split
  · split
    · refine finish_kept (modCtx_kept (foldl_kept (foldl_kept ?_ fun _ _ hk => scribble_kept hk) fun _ _ hk => managerPacket_kept hk))
      exact reserveCfg_kept ((choose_kept h).snd ‹_›) ‹_›
    · exact finish_kept ((choose_kept h).snd ‹_›)
  · exact finish_kept ((choose_kept h).snd ‹_›)

theorem withImage_kept {s t : State} {e image len id done} (h : Kept s t)
    (hd : ∀ c im hs ch u, Kept s u → Kept s (done c im hs ch u)) : Kept s (t.withImage e image len id done) := by
  unfold State.withImage
  dsimp only
  split
  · exact finish_kept (touch_kept h)
  · split
    · exact finish_kept (touch_kept h)
    · split
      · exact finish_kept (touch_kept h)
      · exact hd _ _ _ _ _ (touch_kept h)

theorem startCfgLoad_kept {s e image len id t} (h : Kept s t) : Kept s (startCfgLoad e image len id t) :=
  ite_kept (finish_kept h) (withImage_kept h (fun _ _ _ _ _ hk => loadCfg_kept hk))

theorem execCfgLoad_kept {s e image len t} (h : Kept s t) : ResKept s (execCfgLoad e image len t) :=
  command_kept h (fun _ _ hk => startCfgLoad_kept hk)

theorem startCfgCheck_kept {s e image len id t} (h : Kept s t) : Kept s (startCfgCheck e image len id t) :=
  ite_kept (finish_kept h) (withImage_kept h (fun _ _ _ _ _ hk => finish_kept hk))

theorem execCfgCheck_kept {s e image len t} (h : Kept s t) : ResKept s (execCfgCheck e image len t) :=
  command_kept h (fun _ _ hk => startCfgCheck_kept hk)

theorem unloadCfg_kept {s t ctx handle} (h : Kept s t) : Kept s (State.unloadCfg t ctx handle) :=
  modFab_kept (modMem_kept (modCtx_kept h))

theorem startCfgUnload_kept {s e handle id t} (h : Kept s t) : Kept s (startCfgUnload e handle id t) := by
  unfold startCfgUnload
  split
  · exact finish_kept h
  · exact ite_kept (finish_kept h) (finish_kept (unloadCfg_kept h))

theorem execCfgUnload_kept {s e handle t} (h : Kept s t) : ResKept s (execCfgUnload e handle t) :=
  command_kept h (fun _ _ hk => startCfgUnload_kept hk)

theorem loadStore_kept {s t c core} (h : Kept s t) : Kept s (State.loadStore t c core) :=
  ite_kept (ite_kept (modFab_kept (touchAll_kept h)) (touchAll_kept h)) h

theorem swapCore_kept {s t c g core} (h : Kept s t) : Kept s (State.swapCore t c g core) :=
  ite_kept (zeroRange_kept (loadStore_kept h)) h

theorem setCore_kept {s t x} (h : Kept s t) : Kept s (State.setCore t x) := modFab_kept h

theorem hold_kept {s t u : State} {c g core} (h : Kept s t) (e : t.hold c g core = some u) : Kept s u := by
  unfold State.hold at e
  split at e
  · split at e
    · exact Option.some.inj e ▸ h
    · split at e
      · exact nomatch e
      · exact Option.some.inj e ▸ setCore_kept (swapCore_kept h)
  · exact Option.some.inj e ▸ setCore_kept h

theorem ensureChans_kept {s t ctx g} (h : Kept s t) : Kept s (State.ensureChans t ctx g) := ite_kept h (modFab_kept h)

theorem startCfgActivate_kept {s t : State} {e hd id} (h : Kept s t) : Kept s (startCfgActivate e hd id t) := by
  have hholds : ∀ c d (xs : List Nat) u, Kept s u → Kept s (xs.foldl (fun s x => (s.hold c d x).getD s) u) :=
    fun c d xs u hu => foldl_kept hu fun v x hv => by
      cases hh : v.hold c d x with
      | none => exact hv
      | some w => exact hold_kept hv hh
  unfold startCfgActivate
  dsimp only
  split
  · exact finish_kept h
  · split
    · exact finish_kept h
    · exact finish_kept h
    · exact foldl_kept (modFab_kept h) fun _ _ hk => hholds _ _ _ _ (ensureChans_kept hk)

theorem execCfgActivate_kept {s e handle t} (h : Kept s t) : ResKept s (execCfgActivate e handle t) :=
  command_kept h (fun _ _ hk => startCfgActivate_kept hk)

theorem endWave_kept {s t w} (h : Kept s t) : Kept s (State.endWave t w) := finish_kept (modFab_kept (modCtx_kept h))

theorem switchCore_kept {s t w c g core} (h : Kept s t) : Kept s (State.switchCore t w c g core) := by
  unfold State.switchCore
  dsimp only
  refine ite_kept (endWave_kept (trace_kept (modFab_kept (foldl_kept (modFab_kept (ite_kept ?_ ?_)) fun _ _ hk =>
      forwardAll_kept hk)))) (trace_kept (modFab_kept (foldl_kept (modFab_kept (ite_kept ?_ ?_)) fun _ _ hk => forwardAll_kept
      hk)))
  · split
    · exact enterCore_kept (loadStore_kept h)
    · exact setCore_kept (swapCore_kept h)
  · split
    · exact setCore_kept h
    · exact h
  · split
    · exact enterCore_kept (loadStore_kept h)
    · exact setCore_kept (swapCore_kept h)
  · split
    · exact setCore_kept h
    · exact h

theorem switchRow_kept {s t source core} (h : Kept s t) : Kept s (State.switchRow t source core) := by
  unfold State.switchRow
  dsimp only
  split
  · exact h
  · split
    · refine ite_kept h ?_
      split
      · exact ite_kept h (switchCore_kept h)
      · split
        · split
          · refine ite_kept h ?_
            split
            · exact h
            · exact ite_kept (switchCore_kept (popIqs_kept (setCore_kept (hold_kept h ‹_›)))) (setCore_kept (hold_kept h ‹_›))
          · exact h
        · exact h
    · exact h

theorem execWavefrontSourceSwitch_kept {s core t} (h : Kept s t) : ResKept s (execWavefrontSourceSwitch core t) :=
  when_kept h (switchRow_kept h)

theorem execCoreSwitch_kept {s core t} (h : Kept s t) : ResKept s (execCoreSwitch core t) := when_kept h (switchRow_kept h)

theorem execTreeRebuildAsChain_kept {s ctx handle stream t} (h : Kept s t) : ResKept s (execTreeRebuildAsChain ctx handle
    stream t) := by
  unfold execTreeRebuildAsChain
  dsimp only
  split
  · refine ite_resKept (next_kept h) ?_
    split
    · exact next_kept (modCfg_kept h)
    · exact next_kept (foldl_kept h fun _ _ hk => endInv_kept hk)
  · exact next_kept h

theorem launchRead_kept {s t i} (h : Kept s t) : Kept s (State.launchRead t i) := by
  unfold State.launchRead
  dsimp only
  split
  · exact launchInv_kept (touchAll_kept h)
  · exact touchAll_kept h

theorem startInvoke_kept {s e handle args result deadline id t} (h : Kept s t) : Kept s (startInvoke e handle args result
    deadline id t) := by
  unfold startInvoke
  dsimp only
  split
  · split
    · exact finish_kept h
    · exact finish_kept h
    · split
      · exact ite_kept (addInv_kept h) (ite_kept (launchRead_kept (addInv_kept h)) (ite_kept (modInv_kept (addInv_kept h))
            (endInv_kept (addInv_kept h))))
      · exact addInv_kept h
  · exact finish_kept h

theorem execInvoke_kept {s e handle args result deadline t} (h : Kept s t) : ResKept s (execInvoke e handle args result
    deadline t) :=
  command_kept h (fun _ _ hk => startInvoke_kept hk)

theorem touchList_kept {s t k n} (h : Kept s t) : Kept s (State.touchList t k n) := touchAll_kept (touch_kept h)

theorem startInvokeList_kept {s e list n id t} (h : Kept s t) : Kept s (startInvokeList e list n id t) :=
  listGo_kept (modFab_kept (touchList_kept h))

theorem execInvokeList_kept {s e list n t} (h : Kept s t) : ResKept s (execInvokeList e list n t) :=
  command_kept h (fun _ _ hk => startInvokeList_kept hk)

theorem startPreempt_kept {s e force id t} (h : Kept s t) : Kept s (startPreempt e force id t) := by
  unfold startPreempt
  dsimp only
  split
  · exact finish_kept h
  · exact ite_kept (finish_kept (tearDown_kept h)) (ite_kept (finish_kept h) (ite_kept (finish_kept h) (modCtx_kept h)))

theorem execPreempt_kept {s e force t} (h : Kept s t) : ResKept s (execPreempt e force t) :=
  command_kept h (fun _ _ hk => startPreempt_kept hk)

theorem lenMismatch_kept {s t t'} (h : Kept s t) : Kept s (State.lenMismatch t t') := faultCore_kept (countCore_kept h)
theorem modPoint_kept {s t inv prog f} (h : Kept s t) : Kept s (State.modPoint t inv prog f) := modInv_kept h

theorem score_kept {s t t' prog r tile} (h : Kept s t) : Kept s (State.score t t' prog r tile) := by
  unfold State.score
  dsimp only
  split
  · exact ite_kept (writeMarked_kept (modPoint_kept h)) (modPoint_kept h)
  · exact modPoint_kept h

theorem pushOq_kept {s t core q tile} (h : Kept s t) : Kept s (State.pushOq t core q tile) := by
  unfold State.pushOq
  dsimp only
  split
  · exact h
  · split
    · split
      · exact score_kept (countCore_kept (modCore_kept h))
      · exact modCore_kept (countCore_kept (modCore_kept h))
    · exact h

theorem pushOqs_kept {s t core qs tile} (h : Kept s t) : Kept s (State.pushOqs t core qs tile) :=
  foldl_kept h fun _ _ hk => pushOq_kept hk

theorem countArith_kept {s t x a} (h : Kept s t) : Kept s (State.countArith t x a) := countCore_kept h

theorem goto_kept {s t t' pc} (h : Kept s t) : Kept s (State.goto t t' pc) :=
  ite_kept (faultCore_kept (modCore_kept h)) (modCore_kept h)

theorem again_kept {s t t' w} (h : Kept s t) : Kept s (State.again t t' w) := ite_kept (modCore_kept h) (goto_kept h)

theorem fireStep_kept {s t : State} {core op act} (h : Kept s t)
    (ha : ∀ site w tiles u, Kept s u → Kept s (act site w tiles u)) : ResKept s (t.fireStep core op act) := by
  unfold State.fireStep
  split
  · exact next_kept h
  · split
    · exact next_kept h
    · exact next_kept (lenMismatch_kept h)
    · exact next_kept (again_kept (ha _ _ _ _ (popIqs_kept h)))

theorem setAcc_kept {s t core n clr f} (h : Kept s t) : Kept s (State.setAcc t core n clr f) := modCore_kept h

theorem writeWords_kept {s t c a ws} (h : Kept s t) : Kept s (State.writeWords t c a ws) := by
  unfold State.writeWords
  split
  · exact writeBytes_kept h
  · exact h

theorem writePoint_kept {s t c i r t' p} (h : Kept s t) : Kept s (State.writePoint t c i r t' p) := by
  unfold State.writePoint
  dsimp only
  refine ite_kept (writeWords_kept (writeWords_kept ?_)) (writeWords_kept (writeWords_kept (writeWords_kept ?_)))
  · split
    · refine markPoison_kept ?_
      split
      · exact writeBytes_kept (writeWords_kept (writeWords_kept (foldl_kept h fun _ _ hk => writeWords_kept hk)))
      · exact writeWords_kept (writeWords_kept (foldl_kept h fun _ _ hk => writeWords_kept hk))
    · split
      · exact writeBytes_kept (writeWords_kept (writeWords_kept (foldl_kept h fun _ _ hk => writeWords_kept hk)))
      · exact writeWords_kept (writeWords_kept (foldl_kept h fun _ _ hk => writeWords_kept hk))
  · split
    · refine markPoison_kept ?_
      split
      · exact writeBytes_kept (writeWords_kept (writeWords_kept (foldl_kept h fun _ _ hk => writeWords_kept hk)))
      · exact writeWords_kept (writeWords_kept (foldl_kept h fun _ _ hk => writeWords_kept hk))
    · split
      · exact writeBytes_kept (writeWords_kept (writeWords_kept (foldl_kept h fun _ _ hk => writeWords_kept hk)))
      · exact writeWords_kept (writeWords_kept (foldl_kept h fun _ _ hk => writeWords_kept hk))

theorem tracePoint_kept {s t i p released} (h : Kept s t) : Kept s (State.tracePoint t i p released) := by
  unfold State.tracePoint
  split
  · exact trace_kept h
  · exact h

theorem release_kept {s t i p r stations} (h : Kept s t) : Kept s (State.release t i p r stations) :=
  tracePoint_kept (modFab_kept h)

theorem settlePoint_kept {s t c i p r asks} (h : Kept s t) : Kept s (State.settlePoint t c i p r asks) :=
  ite_kept (modPoint_kept (writePoint_kept h)) (release_kept (modPoint_kept (writePoint_kept h)))

theorem startPoint_kept {s t c i im p r} (h : Kept s t) : Kept s (State.startPoint t c i im p r) := by
  unfold State.startPoint
  dsimp only
  split
  · exact tearDown_kept h
  · exact ite_kept (tearDown_kept (tracePoint_kept h)) (ite_kept (ring_kept (modPoint_kept (tracePoint_kept h)))
        (settlePoint_kept (tracePoint_kept h)))

theorem execRoutingPointStart_kept {s inv program t} (h : Kept s t) : ResKept s (execRoutingPointStart inv program t) := by
  unfold execRoutingPointStart
  dsimp only
  split
  · refine when_kept h ?_
    split
    · exact startPoint_kept (touchAll_kept h)
    · exact touchAll_kept h
  · exact next_kept h

theorem execRouteWaitExpiry_kept {s inv program t} (h : Kept s t) : ResKept s (execRouteWaitExpiry inv program t) := by
  unfold execRouteWaitExpiry
  dsimp only
  split
  · split
    · exact when_kept h (event_kept (settlePoint_kept h))
    · exact next_kept h
  · exact next_kept h

theorem unitOut_kept {s t kind unit} (h : Kept s t) : Kept s (State.unitOut t kind unit) :=
  ite_kept (foldl_kept (elementOut_kept h) fun _ _ hk => tearDown_kept hk) (elementOut_kept h)

theorem answerRoute_kept {s t c step key len id} (h : Kept s t) : Kept s (State.answerRoute t c step key len id) := by
  unfold State.answerRoute
  dsimp only
  refine ite_kept (finish_kept h) (ite_kept (finish_kept h) ?_)
  split
  · exact finish_kept h
  · refine ite_kept (finish_kept h) (ite_kept (finish_kept h) ?_)
    split
    · exact finish_kept h
    · exact ite_kept (finish_kept (touchAll_kept h)) (finish_kept (settlePoint_kept (touchAll_kept h)))

theorem addMissing_kept {s t c i p r n} (h : Kept s t) : Kept s (State.addMissing t c i p r n) :=
  writeWords_kept (modPoint_kept h)

theorem ownRows_kept {s t : State} {p r} (h : Kept s t) :
    Kept s (t.ownRows p r).2 := by
  unfold State.ownRows
  split
  · exact h
  · exact drawBytes_kept h

theorem dispatchOver_kept {s t c i p r slices missing} (h : Kept s t) : Kept s (State.dispatchOver t c i p r slices missing) :=
  addMissing_kept (release_kept (modPoint_kept ((ownRows_kept h).frame)))

theorem returnRows_kept {s t c p r owner data} (h : Kept s t) : Kept s (State.returnRows t c p r owner data) := by
  unfold State.returnRows
  refine foldl_kept h fun _ _ hk => ?_
  split
  · split
    · exact ite_kept (writeMarked_kept hk) (writeMarked_kept hk)
    · exact writeMarked_kept hk
  · exact hk

theorem returnOver_kept {s t c i p r slices} (h : Kept s t) : Kept s (State.returnOver t c i p r slices) :=
  addMissing_kept (release_kept (modPoint_kept (foldl_kept h fun _ _ hk => returnRows_kept hk)))

theorem exchangeOver_kept {s t group slices} (h : Kept s t) : Kept s (State.exchangeOver t group slices) := by
  unfold State.exchangeOver
  dsimp only
  split
  · exact ite_kept (dispatchOver_kept h) (returnOver_kept h)
  · exact h

theorem sieveMismatch_kept {s t core acc} (h : Kept s t) : Kept s (State.sieveMismatch t core acc) :=
  event_kept (modHealth_kept (modFab_kept (setAcc_kept h)))

theorem sieveMismatches_kept {s t core acc n} (h : Kept s t) : Kept s (State.sieveMismatches t core acc n) :=
  ite_kept (failCore_kept (repeat_kept h (fun _ hk => sieveMismatch_kept hk))) (repeat_kept h (fun _ hk => sieveMismatch_kept
      hk))

theorem mmaStep_kept {s t core op bt sieve} (h : Kept s t) : ResKept s (State.mmaStep t core op bt sieve) := by
  unfold State.mmaStep
  dsimp only
  refine fireStep_kept h (fun _ _ _ _ hk => ?_)
  split
  · exact sieveMismatches_kept (countArith_kept (setAcc_kept hk))
  · exact hk

theorem execMma_kept {s core sieve t} (h : Kept s t) : ResKept s (execMma core sieve t) := mmaStep_kept h
theorem execMmaBt_kept {s core sieve t} (h : Kept s t) : ResKept s (execMmaBt core sieve t) := mmaStep_kept h

theorem vecWrite_kept {s t t' w o} (h : Kept s t) : Kept s (State.vecWrite t t' w o) :=
  ite_kept (setAcc_kept (countArith_kept h)) (pushOqs_kept (countArith_kept (countArith_kept h)))

theorem execVec1_kept {s core t} (h : Kept s t) : ResKept s (execVec1 core t) := by
  unfold execVec1
  dsimp only
  refine fireStep_kept h (fun _ _ _ _ hk => ?_)
  split
  · exact vecWrite_kept hk
  · exact hk

theorem execVec2_kept {s core t} (h : Kept s t) : ResKept s (execVec2 core t) := by
  unfold execVec2
  dsimp only
  refine fireStep_kept h (fun _ _ _ _ hk => ?_)
  split
  · exact vecWrite_kept hk
  · exact hk

theorem execVecacc_kept {s core t} (h : Kept s t) : ResKept s (execVecacc core t) := by
  unfold execVecacc
  dsimp only
  refine fireStep_kept h (fun _ _ _ _ hk => ?_)
  split
  · exact setAcc_kept (countArith_kept hk)
  · exact hk

theorem execRed_kept {s core t} (h : Kept s t) : ResKept s (execRed core t) := by
  unfold execRed
  dsimp only
  refine fireStep_kept h (fun _ _ _ _ hk => ?_)
  split
  · exact countArith_kept (setAcc_kept hk)
  · exact hk

theorem execCvt_kept {s core t} (h : Kept s t) : ResKept s (execCvt core t) := by
  unfold execCvt
  dsimp only
  refine fireStep_kept h (fun _ _ _ _ hk => ?_)
  split
  · exact pushOqs_kept (countArith_kept hk)
  · exact hk

theorem execEmit_kept {s core t} (h : Kept s t) : ResKept s (execEmit core t) :=
  fireStep_kept h (fun _ _ _ _ hk => pushOqs_kept (countArith_kept hk))

theorem execMove_kept {s core t} (h : Kept s t) : ResKept s (execMove core t) := by
  unfold execMove
  refine fireStep_kept h (fun _ _ _ _ hk => ?_)
  split
  · exact pushOqs_kept hk
  · exact hk

theorem execDrop_kept {s core t} (h : Kept s t) : ResKept s (execDrop core t) := fireStep_kept h (fun _ _ _ _ hk => hk)

theorem execOneos_kept {s core t} (h : Kept s t) : ResKept s (execOneos core t) := by
  unfold execOneos
  dsimp only
  split
  · exact next_kept h
  · exact ite_resKept (next_kept h) (ite_resKept (next_kept (goto_kept (popIqs_kept h))) (ite_resKept (next_kept
        (lenMismatch_kept h)) (next_kept (goto_kept h))))

theorem execJump_kept {s core t} (h : Kept s t) : ResKept s (execJump core t) := by
  unfold execJump
  split
  · exact next_kept (goto_kept h)
  · exact next_kept h

theorem execLdc_kept {s core t} (h : Kept s t) : ResKept s (execLdc core t) := by
  unfold execLdc
  split
  · exact next_kept (goto_kept (modCore_kept h))
  · exact next_kept h

theorem execLoop_kept {s t : State} {core} (h : Kept s t) : ResKept s (execLoop core t) := by
  have hdrawn : ∀ (c : Prop) [Decidable c] (f : U64 → Nat) (n : Nat), Kept s (if c then (f t.draw.1, t.draw.2) else (n, t)).2 :=
    fun _ _ _ _ => by
      split
      · exact draw_kept h
      · exact h
  unfold execLoop
  dsimp only
  split
  · exact next_kept (goto_kept (modCore_kept (hdrawn _ (fun v => v.toNat % 2 ^ 17) _)))
  · exact next_kept h

theorem execPhase_kept {s core t} (h : Kept s t) : ResKept s (execPhase core t) := by
  unfold execPhase
  dsimp only
  split
  · exact next_kept (goto_kept (trace_kept (modInv_kept h)))
  · exact next_kept h

theorem pushEos_kept {s t t' q} (h : Kept s t) : Kept s (State.pushEos t t' q) := by
  unfold State.pushEos
  dsimp only
  split
  · exact modPoint_kept h
  · exact modCore_kept h

theorem execEosout_kept {s core t} (h : Kept s t) : ResKept s (execEosout core t) := by
  unfold execEosout
  split
  · exact ite_resKept (next_kept (goto_kept (foldl_kept h fun _ _ hk => pushEos_kept hk))) (next_kept h)
  · exact next_kept h

theorem execEndStep_kept {s core t} (h : Kept s t) : ResKept s (execEndStep core t) := by
  unfold execEndStep
  split
  · exact next_kept (modCore_kept h)
  · exact next_kept h

theorem execTicket_kept {s core t} (h : Kept s t) : ResKept s (execTicket core t) := by
  unfold execTicket
  dsimp only
  split
  · exact next_kept (sendService_kept (modCore_kept h))
  · exact next_kept h

theorem execTicketRequest_kept {s requester rail reqNo t} (h : Kept s t) : ResKept s (execTicketRequest requester rail reqNo t)
    := by
  unfold execTicketRequest
  dsimp only
  split
  · exact next_kept h
  · split
    · refine ite_resKept (next_kept h) ?_
      split
      · exact next_kept (sendService_kept (modCore_kept h))
      · exact next_kept (sendService_kept (modCore_kept (modFab_kept h)))
    · exact next_kept h

theorem execTicketReply_kept {s requester t} (h : Kept s t) : ResKept s (execTicketReply requester t) := by
  unfold execTicketReply
  dsimp only
  split
  · exact next_kept h
  · split
    · exact ite_resKept (next_kept (goto_kept (modCore_kept (modCore_kept h)))) (next_kept (goto_kept (modCore_kept h)))
    · exact next_kept h

theorem launchTile_kept {s t hs t'} (h : Kept s t) : Kept s (State.launchTile t hs t') :=
  foldl_kept h fun _ _ hk => modChan_kept hk

theorem popOq_kept {s t core q} (h : Kept s t) : Kept s (State.popOq t core q) := modCore_kept h

theorem execTileSend_kept {s core oq t} (h : Kept s t) : ResKept s (execTileSend core oq t) := by
  unfold execTileSend
  dsimp only
  split
  · exact next_kept h
  · split
    · exact when_kept h (countCore_kept (launchTile_kept (popOq_kept h)))
    · exact next_kept h

theorem execCreditReturn_kept {s ch t} (h : Kept s t) : ResKept s (execCreditReturn ch t) := by
  unfold execCreditReturn
  split
  · exact when_kept h (forward_kept (modChan_kept h))
  · exact next_kept h

theorem crcFailed_kept {s t hop ctx} (h : Kept s t) : Kept s (State.crcFailed t hop ctx) :=
  ite_kept (fabricFault_kept (modFab_kept h)) (modFab_kept h)

theorem dropTile_kept {s t x ctx d} (h : Kept s t) : Kept s (State.dropTile t x ctx d) := tearDown_kept (countCore_kept h)

theorem spoilBeyond_kept {s t g x h' hop seq} (h : Kept s t) : Kept s (State.spoilBeyond t g x h' hop seq) :=
  foldl_kept h fun _ _ hk => countCore_kept (modChan_kept hk)

theorem degrade_kept {s t g x h' hop} (h : Kept s t) : Kept s (State.degrade t g x h' hop) := by
  unfold State.degrade
  dsimp only
  refine ite_kept ?_ h
  split
  · exact modInv_kept (modCfg_kept (spoilBeyond_kept h))
  · exact modCfg_kept (spoilBeyond_kept h)

theorem deliver_kept {s t h' x t' enter} (h : Kept s t) : Kept s (State.deliver t h' x t' enter) := by
  unfold State.deliver
  dsimp only
  split
  · refine forward_kept (modChan_kept ?_)
    split
    · exact modChan_kept (modCore_kept h)
    · exact modCore_kept h
  · refine modChan_kept ?_
    split
    · exact modChan_kept (modCore_kept h)
    · exact modCore_kept h

theorem enterTile_kept {s t h' x st t' hop} (h : Kept s t) : Kept s (State.enterTile t h' x st t' hop) := by
  unfold State.enterTile
  dsimp only
  split
  · exact deliver_kept (count_kept h)
  · exact ite_kept (dropTile_kept h) (ite_kept (deliver_kept h) (ite_kept (dropTile_kept h) (ite_kept (fabricFault_kept h)
        (ite_kept (deliver_kept (countCore_kept (ite_kept h (modChan_kept h)))) (ite_kept (dropTile_kept (ite_kept h
        (modChan_kept h))) (deliver_kept (ite_kept h (modChan_kept h))))))))

theorem arrive_kept {s t h' g x st sent rx hop} (h : Kept s t) : Kept s (State.arrive t h' g x st sent rx hop) :=
  ite_kept (ite_kept (dropTile_kept (modChan_kept h)) (enterTile_kept (modChan_kept h))) (ite_kept (crcFailed_kept
      (dropTile_kept (modChan_kept h))) (crcFailed_kept (enterTile_kept (degrade_kept (countCore_kept (modChan_kept h))))))

/-- A core that runs nothing takes on the configuration of a tile. -/
theorem takeOn_kept {s t u : State} {c : Ctx} {g : Cfg} {core : Nat} (h : Kept s t) (e : (match t.core? core with
      | some x => if x.occupant == some c.uid then some t else t.hold c g core
      | none => t.hold c g core) = some u) : Kept s u := by
  split at e
  · split at e
    · exact Option.some.inj e ▸ h
    · exact hold_kept h e
  · exact hold_kept h e

theorem execTileArrival_kept {s t : State} {ch rx hop} (h : Kept s t) : ResKept s (execTileArrival ch rx hop t) := by
  unfold execTileArrival
  split
  · exact next_kept h
  · split
    · dsimp only
      split
      · exact next_kept h
      · rename_i htaken
        split
        · exact when_kept h (arrive_kept (takeOn_kept h htaken))
        · exact next_kept h
    · exact next_kept h

theorem spillTrace_kept {s t h' leave} (h : Kept s t) : Kept s (State.spillTrace t h' leave) := trace_kept h

theorem execSpillEntry_kept {s ch t} (h : Kept s t) : ResKept s (execSpillEntry ch t) := by
  unfold execSpillEntry
  dsimp only
  split
  · exact next_kept h
  · split
    · exact next_kept h
    · exact when_kept h (spillTrace_kept (countCore_kept (modChan_kept h)))

theorem spillPlace_kept {s t : State} {base n tile} (h : Kept s t) :
    Kept s (t.spillPlace base n tile).2 := by
  exact draw_kept h

theorem putSpilled_kept {s t base size t'} (h : Kept s t) : Kept s (State.putSpilled t base size t') := by
  unfold State.putSpilled
  dsimp only
  exact ite_kept h (scribble_kept (spillPlace_kept h))

theorem takeSpilled_kept {s t : State} {base n tile} (h : Kept s t) :
    Kept s (t.takeSpilled base n tile).2 := by
  unfold State.takeSpilled
  split
  · exact h
  · exact touch_kept (spillPlace_kept h)

theorem putDrip_kept {s t x im t'} (h : Kept s t) : Kept s (State.putDrip t x im t') := putSpilled_kept h
theorem takeDrip_kept {s t : State} {x im tile} (h : Kept s t) : Kept s (t.takeDrip x im tile).2 := takeSpilled_kept h

theorem spillPacket_kept {s t core ch back} (h : Kept s t) : Kept s (State.spillPacket t core ch back) :=
  ite_kept (addService_kept h) (addService_kept h)

theorem spillTile_kept {s t h' x im t'} (h : Kept s t) : Kept s (State.spillTile t h' x im t') := by
  unfold State.spillTile
  dsimp only
  refine ite_kept (putDrip_kept (countCore_kept (modChan_kept (modChan_kept (popOq_kept h))))) (ite_kept ?_ (tearDown_kept h))
  split
  · exact putSpilled_kept (spillPacket_kept (countCore_kept (modChan_kept (modChan_kept (popOq_kept h)))))
  · exact spillPacket_kept (countCore_kept (modChan_kept (modChan_kept (popOq_kept h))))

theorem execSpillOut_kept {s ch t} (h : Kept s t) : ResKept s (execSpillOut ch t) := by
  unfold execSpillOut
  split
  · exact next_kept h
  · split
    · exact next_kept h
    · split
      · exact when_kept h (spillTile_kept h)
      · exact next_kept h

theorem refill_kept {s t : State} {n ch x im} (h : Kept s t) : Kept s (State.refill n ch x im t) := by
  induction n generalizing t with
  | zero => exact h
  | succ n ih =>
    unfold State.refill
    split
    · exact ite_kept (ih (spillPacket_kept h)) h
    · exact h

theorem refillCore_kept {s t x im} (h : Kept s t) : Kept s (State.refillCore t x im) :=
  foldl_kept h fun _ _ hk => refill_kept hk

theorem leaveSpill_kept {s t ch} (h : Kept s t) : Kept s (State.leaveSpill t ch) := by
  unfold State.leaveSpill
  split
  · exact ite_kept (spillTrace_kept (modChan_kept h)) h
  · exact h

theorem execSpillReturn_kept {s ch t} (h : Kept s t) : ResKept s (execSpillReturn ch t) := by
  unfold execSpillReturn
  dsimp only
  split
  · exact next_kept h
  · split
    · refine ite_resKept (next_kept h) ?_
      split
      · exact ite_resKept (next_kept (takeDrip_kept h)) (next_kept (leaveSpill_kept (refillCore_kept (countCore_kept
            (launchTile_kept (modChan_kept (takeDrip_kept h)))))))
      · exact next_kept (ite_kept (spillPacket_kept h) (leaveSpill_kept h))
    · exact next_kept h

theorem serviceArrives_kept {s t : State} {p} (h : Kept s t) : Kept s (t.serviceArrives p) := by
  unfold State.serviceArrives
  split
  · split
    · split
      · refine putDrip_kept (modChan_kept ?_)
        split
        · exact takeSpilled_kept h
        · exact h
      · exact h
    · exact h
  · split
    · exact refillCore_kept h
    · exact h
  · exact h

theorem execServicePacketReceive_kept {s id crcOk t} (h : Kept s t) : ResKept s (execServicePacketReceive id crcOk t) := by
  unfold execServicePacketReceive
  dsimp only
  split
  · exact next_kept h
  · exact ite_resKept (next_kept h) (ite_resKept (next_kept (modFab_kept (modFab_kept (passOver_kept h)))) (ite_resKept
        (next_kept (modFab_kept (passOver_kept h))) (next_kept (serviceArrives_kept (modFab_kept (passOver_kept h))))))

theorem execServicePacketRepeat_kept {s id t} (h : Kept s t) : ResKept s (execServicePacketRepeat id t) := by
  unfold execServicePacketRepeat
  split
  · exact next_kept h
  · exact ite_resKept (next_kept h) (ite_resKept (next_kept (modFab_kept h)) (next_kept (fabricFault_kept (modFab_kept h))))

theorem raiseMinimum_kept {s t rec} (h : Kept s t) : Kept s (State.raiseMinimum t rec) :=
  ite_kept h (ite_kept (modBoot_kept (flashFails_kept h)) (modBoot_kept (flashWrite_kept (flashFails_kept h))))

theorem startFwLoad_kept {s e image len id t} (h : Kept s t) : Kept s (startFwLoad e image len id t) := by
  unfold startFwLoad
  dsimp only
  refine ite_kept (finish_kept h) ?_
  split
  · exact finish_kept (modBoot_kept (touch_kept h))
  · exact modBoot_kept (raiseMinimum_kept (touch_kept h))

theorem execFwLoad_kept {s e image len t} (h : Kept s t) : ResKept s (execFwLoad e image len t) :=
  command_kept h (fun _ _ hk => startFwLoad_kept hk)

theorem startIdQuery_kept {s id t} (h : Kept s t) : Kept s (startIdQuery id t) := finish_kept h

theorem execIdQuery_kept {s e t} (h : Kept s t) : ResKept s (execIdQuery e t) :=
  command_kept h (fun _ _ hk => startIdQuery_kept hk)

theorem startAttest_kept {s e dst nonce len id t} (h : Kept s t) : Kept s (startAttest e dst nonce len id t) :=
  finish_kept (writeBytes_kept h)

theorem execAttest_kept {s e dst len nonce t} (h : Kept s t) : ResKept s (execAttest e dst len nonce t) :=
  command_kept h (fun _ _ hk => startAttest_kept hk)

theorem startFlashRecordRead_kept {s e type dst maxLen id t} (h : Kept s t) : Kept s (startFlashRecordRead e type dst maxLen id
    t) := by
  unfold startFlashRecordRead
  split
  · exact ite_kept (finish_kept h) (finish_kept (writeBytes_kept h))
  · exact finish_kept h

theorem execFlashRecordRead_kept {s e type dst maxLen t} (h : Kept s t) : ResKept s (execFlashRecordRead e type dst maxLen t) :=
  command_kept h (fun _ _ hk => startFlashRecordRead_kept hk)

theorem spdmAnswer_kept {s t : State} {via f} (h : Kept s t) (hf : ∀ u, Kept s u → Kept s (f u)) :
    ResKept s (t.spdmAnswer via f) := by
  unfold State.spdmAnswer
  exact ite_resKept (next_kept (send_kept h)) (ite_resKept (next_kept h) (ite_resKept (next_kept (send_kept h))
    (next_kept (hf _ h))))

theorem execGetVersion_kept {s via t} (h : Kept s t) : ResKept s (execGetVersion via t) :=
  spdmAnswer_kept h (fun _ hk => send_kept hk)

theorem execGetCapabilities_kept {s via t} (h : Kept s t) : ResKept s (execGetCapabilities via t) :=
  spdmAnswer_kept h (fun _ hk => send_kept hk)

theorem execNegotiateAlgorithms_kept {s via t} (h : Kept s t) : ResKept s (execNegotiateAlgorithms via t) :=
  spdmAnswer_kept h (fun _ hk => send_kept hk)

theorem execGetDigests_kept {s via t} (h : Kept s t) : ResKept s (execGetDigests via t) :=
  spdmAnswer_kept h (fun _ hk => send_kept hk)

theorem spdmSlot_kept {s t : State} {via slot f} (h : Kept s t) (hf : ∀ u, Kept s u → Kept s (f u)) :
    Kept s (t.spdmSlot via slot f) := ite_kept (hf _ h) (send_kept h)

theorem execGetCertificate_kept {s via slot off len t} (h : Kept s t) : ResKept s (execGetCertificate via slot off len t) :=
  spdmAnswer_kept h (fun _ hk => spdmSlot_kept hk (fun _ hk => ite_kept (send_kept hk) (send_kept hk)))

theorem spdmSigned_kept {s t : State} {body} (h : Kept s t) :
    Kept s (t.spdmSigned body).2 := by
  exact drawBytes_kept h

theorem execChallenge_kept {s via slot nonce t} (h : Kept s t) : ResKept s (execChallenge via slot nonce t) := by
  unfold execChallenge
  dsimp only
  exact spdmAnswer_kept h (fun _ hk => spdmSlot_kept hk (fun _ hk => send_kept (spdmSigned_kept hk)))

theorem execGetMeasurements_kept {s via slot index nonce t} (h : Kept s t) : ResKept s (execGetMeasurements via slot index
    nonce t) := by
  unfold execGetMeasurements
  dsimp only
  refine spdmAnswer_kept h (fun _ hk => spdmSlot_kept hk (fun _ hk => ?_))
  split
  · exact send_kept hk
  · exact send_kept (spdmSigned_kept hk)

theorem execDoeDiscovery_kept {s index t} (h : Kept s t) : ResKept s (execDoeDiscovery index t) := by
  unfold execDoeDiscovery
  refine when_kept h (ite_kept (send_kept h) ?_)
  split
  · exact send_kept h
  · exact send_kept h
  · exact send_kept h

theorem execEvcPendWrite_kept {s word value t} (h : Kept s t) : ResKept s (execEvcPendWrite word value t) :=
  when_kept h (evcSet_kept h)

theorem execEvcMaskWrite_kept {s word value t} (h : Kept s t) : ResKept s (execEvcMaskWrite word value t) :=
  when_kept h (evcSet_kept h)

theorem execEvcRouteWrite_kept {s k value t} (h : Kept s t) : ResKept s (execEvcRouteWrite k value t) :=
  when_kept h (modEvc_kept h)

theorem execEvcRingSizeWrite_kept {s value t} (h : Kept s t) : ResKept s (execEvcRingSizeWrite value t) :=
  when_kept h (modEvc_kept h)

theorem setMsix_kept {s t v f} (h : Kept s t) : Kept s (State.setMsix t v f) := modCxl_kept h

theorem execMsixVectorUnmask_kept {s a t} (h : Kept s t) : ResKept s (execMsixVectorUnmask a t) := by
  unfold execMsixVectorUnmask
  dsimp only
  split
  · exact when_kept h (msixFlush_kept (setMsix_kept h))
  · exact when_kept h (msixFlush_kept (setMsix_kept h))
  · exact when_kept h (ite_kept (send_kept h) (msixFlush_kept (modCxl_kept h)))

theorem execHdmDecoderCommit_kept {s dec base size ways t} (h : Kept s t) : ResKept s (execHdmDecoderCommit dec base size ways
    t) :=
  when_kept h (modCxl_kept h)

theorem writeComponent_kept {s t off v} (h : Kept s t) : Kept s (State.writeComponent t off v) := by
  unfold State.writeComponent
  dsimp only
  split
  · exact modCxl_kept h
  · exact modCxl_kept h

theorem poisonLine_kept {s t} (h : Kept s t) : Kept s (State.poisonLine t) := send_kept (drawBytes_kept h)

theorem execHostMemRead_kept {s dec off t} (h : Kept s t) : ResKept s (execHostMemRead dec off t) :=
  ite_resKept (next_kept h) (ite_resKept (next_kept (poisonLine_kept h)) (next_kept (send_kept (touch_kept h))))

theorem execHostMemWrite_kept {s dec off data t} (h : Kept s t) : ResKept s (execHostMemWrite dec off data t) :=
  ite_resKept (next_kept h) (ite_resKept (next_kept h) (ite_resKept (next_kept (modEvc_kept h)) (next_kept (writeBytes_kept
      h))))

theorem modPort_kept {s t n f} (h : Kept s t) : Kept s (State.modPort t n f) := modLink_kept h

theorem portTo_kept {s t n st} (h : Kept s t) : Kept s (State.portTo t n st) :=
  ite_kept (modPort_kept h) (trace_kept (modPort_kept h))

theorem freeUnits_kept {s t n p} (h : Kept s t) : Kept s (State.freeUnits t n p) := modPort_kept h

theorem leaveBuffer_kept {s t w} (h : Kept s t) : Kept s (State.leaveBuffer t w) := by
  unfold State.leaveBuffer
  dsimp only
  split
  · exact freeUnits_kept h
  · exact h

theorem flushPort_kept {s t n} (h : Kept s t) : Kept s (State.flushPort t n) :=
  foldl_kept (modLink_kept (modPort_kept h)) fun _ _ hk => leaveBuffer_kept (sendPkt_kept hk)

theorem enqueue_kept {s t n w} (h : Kept s t) : Kept s (State.enqueue t n w) := flushPort_kept (modPort_kept h)

theorem egress_kept {s t : State} {r cls} (h : Kept s t) :
    Kept s (t.egress r cls).2 := by
  unfold State.egress
  dsimp only
  split
  · split
    · exact (choose_kept h).snd ‹_›
    · exact (choose_kept h).snd ‹_›
  · split
    · exact h
    · split
      · exact h
      · exact h

theorem modTransfer_kept {s t xtag f} (h : Kept s t) : Kept s (State.modTransfer t xtag f) := modLink_kept h
theorem dropTransfer_kept {s t xtag} (h : Kept s t) : Kept s (State.dropTransfer t xtag) := modLink_kept h

theorem endTransfer_kept {s t t' st result} (h : Kept s t) : Kept s (State.endTransfer t t' st result) := by
  unfold State.endTransfer
  dsimp only
  split
  · refine finish_kept ?_
    split
    · exact ite_kept (dropTransfer_kept h) (modCtx_kept (dropTransfer_kept h))
    · exact dropTransfer_kept h
  · split
    · exact ite_kept (dropTransfer_kept h) (modCtx_kept (dropTransfer_kept h))
    · exact dropTransfer_kept h

theorem unreached_kept {s t type xtag} (h : Kept s t) : Kept s (State.unreached t type xtag) := by
  unfold State.unreached
  dsimp only
  split
  · exact h
  · split
    · exact ite_kept h (modTransfer_kept h)
    · exact ite_kept h (ite_kept (endTransfer_kept h) (modTransfer_kept h))

theorem tryRoute_kept {s t u : State} {p n q} (h : Kept s t) (e : t.tryRoute p = .ok (u, n, q)) : Kept s u := by
  unfold State.tryRoute at e
  split at e
  · exact nomatch e
  · split at e
    · exact nomatch e
    · split at e
      · cases e
        exact (egress_kept h).snd ‹_›
      · exact nomatch e

theorem countDrop_kept {s t} (h : Kept s t) : Kept s (State.countDrop t) := modLink_kept h

theorem bounce_kept {s t p cause} (h : Kept s t) : Kept s (State.bounce t p cause) := by
  unfold State.bounce
  dsimp only
  refine ite_kept (unreached_kept (countDrop_kept h)) ?_
  split
  · exact enqueue_kept (tryRoute_kept (countDrop_kept h) ‹_›)
  · exact countDrop_kept (countDrop_kept h)

theorem originate_kept {s t p} (h : Kept s t) : Kept s (State.originate t p) := by
  unfold State.originate
  split
  · exact enqueue_kept (tryRoute_kept h ‹_›)
  · exact bounce_kept h

theorem sendMirror_kept {s t job buddy ps} (h : Kept s t) : Kept s (State.sendMirror t job buddy ps) := by
  unfold State.sendMirror
  split
  · exact foldl_kept h fun _ _ hk => originate_kept hk
  · exact foldl_kept h fun _ _ hk => bounce_kept hk

theorem sendOpen_kept {s t t'} (h : Kept s t) : Kept s (State.sendOpen t t') := originate_kept h

theorem sendData_kept {s t t'} (h : Kept s t) : Kept s (State.sendData t t') := by
  unfold State.sendData
  dsimp only
  split
  · exact foldl_kept (touch_kept h) fun _ _ hk => originate_kept (modTransfer_kept hk)
  · split
    · exact sendMirror_kept h
    · exact h
  · exact foldl_kept h fun _ _ hk => ite_kept hk (originate_kept hk)

theorem startTransfer_kept {s t cmd kind slice chip local_ remote len deadline} (h : Kept s t) : Kept s (State.startTransfer t
    cmd kind slice chip local_ remote len deadline) :=
  sendOpen_kept (modLink_kept h.frame)

theorem train_kept {s t n cmd auto} (h : Kept s t) : Kept s (State.train t n cmd auto) :=
  control_kept (foldl_kept (portTo_kept (modPort_kept h)) fun _ _ hk => control_kept hk)

theorem identityTick_kept {s t} (h : Kept s t) : Kept s (State.identityTick t) :=
  foldl_kept h fun _ _ hk => control_kept (modPort_kept hk)

theorem trainDone_kept {s t cmd} (h : Kept s t) : Kept s (State.trainDone t cmd) := ite_kept h (finish_kept h)

theorem trained_kept {s t n} (h : Kept s t) : Kept s (State.trained t n) :=
  foldl_kept (modPort_kept h) fun _ _ hk => trainDone_kept hk

theorem disablePort_kept {s t n} (h : Kept s t) : Kept s (State.disablePort t n) := trained_kept (portTo_kept h)

theorem startLinkTrain_kept {s mask id t} (h : Kept s t) : Kept s (startLinkTrain mask id t) :=
  ite_kept (finish_kept h) (trainDone_kept (foldl_kept h fun _ _ hk => ite_kept (disablePort_kept hk) (train_kept hk)))

theorem execLinkTrain_kept {s e mask t} (h : Kept s t) : ResKept s (execLinkTrain e mask t) :=
  command_kept h (fun _ _ hk => startLinkTrain_kept hk)

theorem startLinkExpectSet_kept {s port farChip farPort digest id t} (h : Kept s t) : Kept s (startLinkExpectSet port farChip
    farPort digest id t) :=
  finish_kept (ite_kept (ite_kept (modPort_kept h) (portTo_kept (modPort_kept h))) (modPort_kept h))

theorem execLinkExpectSet_kept {s e port farChip farPort digest t} (h : Kept s t) : ResKept s (execLinkExpectSet e port farChip
    farPort digest t) :=
  command_kept h (fun _ _ hk => startLinkExpectSet_kept hk)

theorem startLinkQuery_kept {s port id t} (h : Kept s t) : Kept s (startLinkQuery port id t) := finish_kept h

theorem execLinkQuery_kept {s e port t} (h : Kept s t) : ResKept s (execLinkQuery e port t) :=
  command_kept h (fun _ _ hk => startLinkQuery_kept hk)

theorem startRouteLoad_kept {s e table n slice id t} (h : Kept s t) : Kept s (startRouteLoad e table n slice id t) := by
  unfold startRouteLoad
  dsimp only
  split
  · exact finish_kept (touch_kept h)
  · exact finish_kept (event_kept (touch_kept h))
  · exact ite_kept (finish_kept (touch_kept h)) (finish_kept (modLink_kept (touch_kept h)))

theorem execRouteLoad_kept {s e table n slice t} (h : Kept s t) : ResKept s (execRouteLoad e table n slice t) :=
  command_kept h (fun _ _ hk => startRouteLoad_kept hk)

theorem startPortOwnerSet_kept {s port owner id t} (h : Kept s t) : Kept s (startPortOwnerSet port owner id t) :=
  ite_kept (finish_kept h) (finish_kept (modPort_kept h))

theorem execPortOwnerSet_kept {s e port owner t} (h : Kept s t) : ResKept s (execPortOwnerSet e port owner t) :=
  command_kept h (fun _ _ hk => startPortOwnerSet_kept hk)

theorem beginTransfer_kept {s t e id kind local_ remote len deadline} (h : Kept s t) : Kept s (State.beginTransfer t e id kind
    local_ remote len deadline) := by
  unfold State.beginTransfer
  split
  · exact finish_kept h
  · refine ite_kept (finish_kept h) ?_
    split
    · exact finish_kept h
    · exact startTransfer_kept h

theorem startPut_kept {s e src dst len deadline id t} (h : Kept s t) : Kept s (startPut e src dst len deadline id t) :=
  beginTransfer_kept h

theorem execPut_kept {s e src dst len deadline t} (h : Kept s t) : ResKept s (execPut e src dst len deadline t) :=
  command_kept h (fun _ _ hk => startPut_kept hk)

theorem startGet_kept {s e src dst len deadline id t} (h : Kept s t) : Kept s (startGet e src dst len deadline id t) :=
  beginTransfer_kept h

theorem execGet_kept {s e src dst len deadline t} (h : Kept s t) : ResKept s (execGet e src dst len deadline t) :=
  command_kept h (fun _ _ hk => startGet_kept hk)

theorem modColl_kept {s t group f} (h : Kept s t) : Kept s (State.modColl t group f) := modLink_kept h
theorem fillPoison_kept {s t k len} (h : Kept s t) : Kept s (State.fillPoison t k len) := writeMarked_kept h

theorem endColl_kept {s t c} (h : Kept s t) : Kept s (State.endColl t c) := by
  unfold State.endColl
  dsimp only
  split
  · refine finish_kept (ite_kept (ite_kept (count_kept (writeMarked_kept (modLink_kept h))) (fillPoison_kept (modLink_kept h)))
        (foldl_kept (modLink_kept h) fun _ _ hk => ?_))
    split
    · exact fillPoison_kept hk
    · exact hk
  · refine exchangeOver_kept (ite_kept (ite_kept (count_kept (writeMarked_kept (modLink_kept h))) (fillPoison_kept
        (modLink_kept h))) (foldl_kept (modLink_kept h) fun _ _ hk => ?_))
    split
    · exact fillPoison_kept hk
    · exact hk

theorem takeSlice_kept {s t c rank off len data marks} (h : Kept s t) : Kept s (State.takeSlice t c rank off len data marks) :=
    by
  unfold State.takeSlice
  dsimp only
  split
  · exact countDrop_kept h
  · exact ite_kept (countDrop_kept h) (ite_kept (endColl_kept (modColl_kept (ite_kept h (writeMarked_kept h)))) (modColl_kept
        (ite_kept h (writeMarked_kept h))))

theorem sendSlice_kept {s t c j sliceNo} (h : Kept s t) : Kept s (State.sendSlice t c j sliceNo) := by
  unfold State.sendSlice
  dsimp only
  split
  · exact h
  · refine foldl_kept (ite_kept h (touch_kept h)) fun _ _ hk => ite_kept ?_ (originate_kept hk)
    split
    · exact takeSlice_kept hk
    · exact hk

theorem deliverHeld_kept {s t group} (h : Kept s t) : Kept s (State.deliverHeld t group) := by
  unfold State.deliverHeld
  dsimp only
  refine foldl_kept (modLink_kept h) fun _ _ hk => ?_
  split
  · exact ite_kept (takeSlice_kept (freeUnits_kept hk)) (countDrop_kept (freeUnits_kept hk))
  · exact freeUnits_kept hk

theorem openColl_kept {s t c0 job} (h : Kept s t) : Kept s (State.openColl t c0 job) :=
  deliverHeld_kept (foldl_kept (modLink_kept h) fun _ _ hk => sendSlice_kept hk)

theorem startColl_kept {s opcode e desc deadline group id t} (h : Kept s t) : Kept s (startColl opcode e desc deadline group id
    t) := by
  unfold startColl
  dsimp only
  refine ite_kept (finish_kept (touch_kept h)) ?_
  split
  · exact finish_kept (touch_kept h)
  · split
    · exact finish_kept (touch_kept (touch_kept h))
    · exact ite_kept (finish_kept (touch_kept (touch_kept h))) (openColl_kept (touch_kept (touch_kept h)))

theorem execExchange_kept {s e desc deadline group t} (h : Kept s t) : ResKept s (execExchange e desc deadline group t) :=
  command_kept h (fun _ _ hk => startColl_kept hk)

theorem execReduceScatter_kept {s e desc deadline group t} (h : Kept s t) : ResKept s (execReduceScatter e desc deadline group
    t) :=
  command_kept h (fun _ _ hk => startColl_kept hk)

theorem execAllGather_kept {s e desc deadline group t} (h : Kept s t) : ResKept s (execAllGather e desc deadline group t) :=
  command_kept h (fun _ _ hk => startColl_kept hk)

theorem dropSlices_kept {s t group} (h : Kept s t) : Kept s (State.dropSlices t group) := by
  unfold State.dropSlices
  dsimp only
  exact modLink_kept h

theorem execCollectiveDeadline_kept {s group t} (h : Kept s t) : ResKept s (execCollectiveDeadline group t) := by
  unfold execCollectiveDeadline
  split
  · exact when_kept h (endColl_kept (dropSlices_kept h))
  · exact next_kept h

theorem endMirror_kept {s t c} (h : Kept s t) : Kept s (State.endMirror t c) := by
  unfold State.endMirror
  dsimp only
  split
  · exact h
  · split
    · exact finish_kept (modCtx_kept (dropTransfer_kept h))
    · exact modCtx_kept (dropTransfer_kept h)

theorem startMirrorSet_kept {s e buddy enable id t} (h : Kept s t) : Kept s (startMirrorSet e buddy enable id t) := by
  unfold startMirrorSet
  dsimp only
  split
  · exact finish_kept h
  · refine ite_kept (finish_kept (endMirror_kept h)) ?_
    split
    · exact finish_kept h
    · split
      · exact finish_kept h
      · exact startTransfer_kept (modCtx_kept (endMirror_kept h))

theorem execMirrorSet_kept {s e buddy enable t} (h : Kept s t) : ResKept s (execMirrorSet e buddy enable t) :=
  command_kept h (fun _ _ hk => startMirrorSet_kept hk)

theorem portDown_kept {s t n cause} (h : Kept s t) : Kept s (State.portDown t n cause) :=
  ite_kept (journalAction_kept (event_kept (portTo_kept h))) (ite_kept (disablePort_kept (journalAction_kept (event_kept
      (portTo_kept h)))) (train_kept (journalAction_kept (event_kept (portTo_kept h)))))

theorem loseLane_kept {s t n lane} (h : Kept s t) : Kept s (State.loseLane t n lane) :=
  ite_kept (portDown_kept (modPort_kept h)) (ite_kept (modPort_kept h) (ite_kept (journalAction_kept (event_kept (modPort_kept
      (modPort_kept h)))) (journalAction_kept (event_kept (modPort_kept (modPort_kept h))))))

theorem execLaneFailure_kept {s port lane t} (h : Kept s t) : ResKept s (execLaneFailure port lane t) :=
  when_kept h (loseLane_kept h)

theorem execFarEndIdle_kept {s port t} (h : Kept s t) : ResKept s (execFarEndIdle port t) := when_kept h (portDown_kept h)

theorem quarantine_kept {s t n reason} (h : Kept s t) : Kept s (State.quarantine t n reason) :=
  trained_kept (journalAction_kept (event_kept (portTo_kept (modPort_kept h))))

theorem portUp_kept {s t n} (h : Kept s t) : Kept s (State.portUp t n) :=
  trained_kept (flushPort_kept (event_kept (portTo_kept (modPort_kept h))))

theorem execLinkTrainingComplete_kept {s port good eye t} (h : Kept s t) : ResKept s (execLinkTrainingComplete port good eye t)
    := by
  unfold execLinkTrainingComplete
  dsimp only
  refine ite_resKept (next_kept h) (ite_resKept (next_kept (trained_kept (journalAction_kept (event_kept (portTo_kept
      (modPort_kept (modPort_kept h))))))) ?_)
  split
  · exact next_kept (modPort_kept (modPort_kept h))
  · split
    · exact next_kept (quarantine_kept (modPort_kept h))
    · exact next_kept (portUp_kept (modPort_kept h))

theorem execIdentityTimeout_kept {s port t} (h : Kept s t) : ResKept s (execIdentityTimeout port t) :=
  when_kept h (quarantine_kept h)

theorem execIdentity_kept {s port farPort farChip rsv digest crc t} (h : Kept s t) : ResKept s (execIdentity port farPort
    farChip rsv digest crc t) :=
  when_kept h (modPort_kept h)

theorem journalWrite_kept {s t : State} {off v} (h : Kept s t) :
    Kept s (t.journalWrite off v).1 := by
  exact journal_kept h

theorem retrain_kept {s t n} (h : Kept s t) : Kept s (State.retrain t n) :=
  ite_kept h (ite_kept (disablePort_kept h) (train_kept h))

theorem execRetrain_kept {s port value t} (h : Kept s t) : ResKept s (execRetrain port value t) :=
  ite_resKept (next_kept h) (next_kept (ite_kept (retrain_kept (journalWrite_kept h)) (journalWrite_kept h)))

theorem sendAck_kept {s t n} (h : Kept s t) : Kept s (State.sendAck t n) := control_kept (modPort_kept h)
theorem execAckTimer_kept {s port t} (h : Kept s t) : ResKept s (execAckTimer port t) := when_kept h (sendAck_kept h)

theorem execCreditFrameTimer_kept {s port vc cls t} (h : Kept s t) : ResKept s (execCreditFrameTimer port vc cls t) :=
  when_kept h (control_kept (modPort_kept h))

theorem execCredit_kept {s port ch rsv total tail t} (h : Kept s t) : ResKept s (execCredit port ch rsv total tail t) :=
  when_kept h (flushPort_kept (modPort_kept h))

theorem replay_kept {s t n lseq} (h : Kept s t) : Kept s (State.replay t n lseq) :=
  ite_kept (modPort_kept h) (ite_kept (portDown_kept (modPort_kept h)) (flushPort_kept (foldl_kept (modPort_kept h) fun _ _ hk
      => sendPkt_kept hk)))

theorem execAcknowledgement_kept {s port flags lseq tail t} (h : Kept s t) : ResKept s (execAcknowledgement port flags lseq
    tail t) :=
  ite_resKept (next_kept h) (ite_resKept (next_kept (replay_kept h)) (next_kept (flushPort_kept (modPort_kept h))))

theorem execTimeProbe_kept {s port flags probe turn stamp crc at_ t} (h : Kept s t) : ResKept s (execTimeProbe port flags probe
    turn stamp crc at_ t) :=
  ite_resKept (next_kept h) (ite_resKept (next_kept (control_kept (draw_kept h))) (ite_resKept (next_kept h) (next_kept
      (modPort_kept h))))

theorem execPacketReceive_kept {s port fecOk got t} (h : Kept s t) : ResKept s (execPacketReceive port fecOk got t) :=
  ite_resKept (next_kept h) (ite_resKept (next_kept (control_kept h)) (ite_resKept (next_kept h) (ite_resKept (next_kept
      (ite_kept (control_kept h) h)) (ite_resKept (next_kept (freeUnits_kept (countDrop_kept (ite_kept (sendAck_kept
      (modPort_kept h)) (modPort_kept h))))) (ite_resKept (ite_resKept (next_kept (freeUnits_kept (countDrop_kept (ite_kept
      (sendAck_kept (modPort_kept h)) (modPort_kept h))))) (next_kept (modLink_kept (ite_kept (sendAck_kept (modPort_kept h))
      (modPort_kept h))))) (next_kept (modLink_kept (ite_kept (sendAck_kept (modPort_kept h)) (modPort_kept h)))))))))

theorem execTransitForward_kept {s t} (h : Kept s t) : ResKept s (execTransitForward t) := by
  unfold execTransitForward
  dsimp only
  split
  · exact next_kept h
  · refine when_kept h (ite_kept (bounce_kept (freeUnits_kept (modLink_kept h))) ?_)
    split
    · exact enqueue_kept (tryRoute_kept (modLink_kept h) ‹_›)
    · exact bounce_kept (freeUnits_kept (modLink_kept h))

theorem execVcStall_kept {s port vc t} (h : Kept s t) : ResKept s (execVcStall port vc t) :=
  ite_resKept (next_kept h) (next_kept (event_kept (foldl_kept (modPort_kept h) fun _ _ hk => bounce_kept (leaveBuffer_kept
      hk))))

theorem deliverRow_kept {s t : State} {type act} (h : Kept s t) (ha : ∀ p u, Kept s u → Kept s (act p u)) :
    ResKept s (t.deliverRow type act) := by
  unfold State.deliverRow
  split
  · exact next_kept h
  · refine ite_resKept (next_kept h) (next_kept (ite_kept (ha _ _ ?_) (countDrop_kept ?_))) <;>
      exact freeUnits_kept (modLink_kept h)

theorem setOpened_kept {s t o} (h : Kept s t) : Kept s (State.setOpened t o) := modLink_kept h
theorem closeOpened_kept {s t src xtag} (h : Kept s t) : Kept s (State.closeOpened t src xtag) := modLink_kept h

theorem noteOpened_kept {s t : State} {o ga len} (h : Kept s t) :
    Kept s (t.noteOpened o ga len).1 := by
  exact ite_kept (closeOpened_kept h) (setOpened_kept h)

theorem execWriteData_kept {s t} (h : Kept s t) : ResKept s (execWriteData t) := by
  unfold execWriteData
  dsimp only
  refine deliverRow_kept h (fun _ _ hk => ?_)
  split
  · exact ite_kept (originate_kept (noteOpened_kept (writeMarked_kept hk))) (countDrop_kept hk)
  · exact countDrop_kept hk

theorem execReadRequest_kept {s t} (h : Kept s t) : ResKept s (execReadRequest t) := by
  unfold execReadRequest
  dsimp only
  refine deliverRow_kept h (fun _ _ hk => ?_)
  split
  · exact ite_kept (originate_kept (noteOpened_kept (touch_kept hk))) (countDrop_kept hk)
  · exact countDrop_kept hk

theorem execReadData_kept {s t} (h : Kept s t) : ResKept s (execReadData t) := by
  unfold execReadData
  dsimp only
  refine deliverRow_kept h (fun _ _ hk => ?_)
  split
  · split
    · exact ite_kept (countDrop_kept hk) (ite_kept (endTransfer_kept (modTransfer_kept (writeMarked_kept hk)))
          (modTransfer_kept (writeMarked_kept hk)))
    · exact ite_kept (countDrop_kept hk) (modTransfer_kept hk)
    · exact countDrop_kept hk
  · exact countDrop_kept hk

theorem execCollectiveSlice_kept {s t} (h : Kept s t) : ResKept s (execCollectiveSlice t) := by
  unfold execCollectiveSlice
  dsimp only
  split
  · exact next_kept h
  · split
    · refine ite_resKept (ite_resKept (next_kept (modLink_kept (modLink_kept h))) (next_kept (countDrop_kept (freeUnits_kept
          (modLink_kept h))))) (deliverRow_kept h (fun _ _ hk => ?_))
      split
      · exact ite_kept (takeSlice_kept hk) (countDrop_kept hk)
      · exact countDrop_kept hk
    · exact deliverRow_kept h (fun _ _ hk => countDrop_kept hk)

theorem execHeldPacketDiscard_kept {s port t} (h : Kept s t) : ResKept s (execHeldPacketDiscard port t) := by
  unfold execHeldPacketDiscard
  split
  · exact when_kept h (countDrop_kept (freeUnits_kept (modLink_kept h)))
  · exact next_kept h

theorem execMirrorData_kept {s t} (h : Kept s t) : ResKept s (execMirrorData t) := by
  unfold execMirrorData
  refine deliverRow_kept h (fun _ _ hk => ?_)
  split
  · exact ite_kept (writeMarked_kept hk) (countDrop_kept hk)
  · exact countDrop_kept hk

theorem execOpenRange_kept {s t} (h : Kept s t) : ResKept s (execOpenRange t) := by
  unfold execOpenRange
  dsimp only
  refine deliverRow_kept h (fun _ _ hk => ?_)
  split
  · exact originate_kept (ite_kept (modLink_kept (closeOpened_kept hk)) hk)
  · exact hk

theorem execOpenReply_kept {s t} (h : Kept s t) : ResKept s (execOpenReply t) := by
  unfold execOpenReply
  dsimp only
  refine deliverRow_kept h (fun _ _ hk => ?_)
  split
  · refine ite_kept (countDrop_kept hk) (ite_kept ?_ ?_)
    · split
      · exact modTransfer_kept hk
      · exact endTransfer_kept hk
    · split
      · split
        · exact finish_kept (modCtx_kept (modTransfer_kept hk))
        · exact modCtx_kept (modTransfer_kept hk)
      · exact sendData_kept (modTransfer_kept hk)
  · exact countDrop_kept hk

theorem execEndToEndAcknowledgement_kept {s t} (h : Kept s t) : ResKept s (execEndToEndAcknowledgement t) := by
  unfold execEndToEndAcknowledgement
  dsimp only
  refine deliverRow_kept h (fun _ _ hk => ?_)
  split
  · exact ite_kept (countDrop_kept hk) (ite_kept (endTransfer_kept (modTransfer_kept hk)) (modTransfer_kept hk))
  · exact countDrop_kept hk

theorem execUnreachable_kept {s t} (h : Kept s t) : ResKept s (execUnreachable t) := by
  unfold execUnreachable
  refine deliverRow_kept h (fun _ _ hk => ?_)
  split
  · exact unreached_kept hk
  · exact hk

theorem execTransferRetry_kept {s xtag t} (h : Kept s t) : ResKept s (execTransferRetry xtag t) := by
  unfold execTransferRetry
  dsimp only
  split
  · split
    · exact when_kept h (ite_kept (sendData_kept (modTransfer_kept h)) (sendOpen_kept (modTransfer_kept h)))
    · exact next_kept h
  · exact next_kept h

theorem execTransferDeadline_kept {s xtag t} (h : Kept s t) : ResKept s (execTransferDeadline xtag t) := by
  unfold execTransferDeadline
  split
  · exact when_kept h (endTransfer_kept h)
  · exact next_kept h

theorem tracePoint5_kept {s t t1} (h : Kept s t) (h1 : Kept s t1) : Kept s (State.tracePoint5 t t1) := ite_kept h (trace_kept h)
theorem adjustOp_kept {s t} (h : Kept s t) : Kept s (State.adjustOp t) := ite_kept h (tracePoint5_kept (modPwr_kept h) h)
theorem setDuty_kept {s t d} (h : Kept s t) : Kept s (State.setDuty t d) := ite_kept h (tracePoint5_kept (modPwr_kept h) h)

theorem watchPhases_kept {s t} (h : Kept s t) : Kept s (State.watchPhases t) :=
  foldl_kept (ite_kept h (modPwr_kept h)) fun _ _ hk => event_kept hk

theorem phaseTick_kept {s t} (h : Kept s t) : Kept s (State.phaseTick t) := ite_kept (watchPhases_kept (adjustOp_kept h)) h

theorem capChanged_kept {s t old cause} (h : Kept s t) : Kept s (State.capChanged t old cause) :=
  ite_kept h (ite_kept (modPwr_kept (event_kept h)) (event_kept h))

theorem setLimits_kept {s t f cause} (h : Kept s t) : Kept s (State.setLimits t f cause) := capChanged_kept (modPwr_kept h)

theorem managerBack_kept {s t} (h : Kept s t) : Kept s (State.managerBack t) :=
  ite_kept h (setLimits_kept (journalAction_kept (event_kept h)))

theorem watchOff_kept {s t} (h : Kept s t) : Kept s (State.watchOff t) := ite_kept (managerBack_kept h) h

theorem startPwrLimits_kept {s sustain peak window lost timeout id t} (h : Kept s t) : Kept s (startPwrLimits sustain peak
    window lost timeout id t) :=
  finish_kept (watchOff_kept (setLimits_kept h))

theorem execPwrLimits_kept {s e sustain peak window lost timeout t} (h : Kept s t) : ResKept s (execPwrLimits e sustain peak
    window lost timeout t) :=
  command_kept h (fun _ _ hk => startPwrLimits_kept hk)

theorem startPhaseTableSet_kept {s e table n id t} (h : Kept s t) : Kept s (startPhaseTableSet e table n id t) := by
  unfold startPhaseTableSet
  dsimp only
  split
  · exact finish_kept (touch_kept h)
  · exact finish_kept (ite_kept (adjustOp_kept (modPwr_kept (touch_kept h))) (modPwr_kept (touch_kept h)))

theorem execPhaseTableSet_kept {s e table n t} (h : Kept s t) : ResKept s (execPhaseTableSet e table n t) :=
  command_kept h (fun _ _ hk => startPhaseTableSet_kept hk)

theorem startKeepwarmSet_kept {s floor ramp id t} (h : Kept s t) : Kept s (startKeepwarmSet floor ramp id t) :=
  finish_kept (modPwr_kept h)

theorem execKeepwarmSet_kept {s e floor ramp t} (h : Kept s t) : ResKept s (execKeepwarmSet e floor ramp t) :=
  command_kept h (fun _ _ hk => startKeepwarmSet_kept hk)

theorem startMgrHeartbeat_kept {s seq id t} (h : Kept s t) : Kept s (startMgrHeartbeat seq id t) :=
  finish_kept (modPwr_kept (managerBack_kept h))

theorem execMgrHeartbeat_kept {s e seq t} (h : Kept s t) : ResKept s (execMgrHeartbeat e seq t) :=
  command_kept h (fun _ _ hk => startMgrHeartbeat_kept hk)

theorem startPwrQuery_kept {s id t} (h : Kept s t) : Kept s (startPwrQuery id t) := finish_kept h

theorem execPwrQuery_kept {s e t} (h : Kept s t) : ResKept s (execPwrQuery e t) :=
  command_kept h (fun _ _ hk => startPwrQuery_kept hk)

theorem writeCap_kept {s t reg v} (h : Kept s t) : Kept s (State.writeCap t reg v) := by
  unfold State.writeCap
  dsimp only
  split
  · exact setLimits_kept h
  · exact setLimits_kept h
  · exact setLimits_kept h

theorem hostWrite_kept {s t : State} {off v f} (h : Kept s t) (hf : ∀ u, Kept s u → Kept s (f u)) :
    Kept s (t.hostWrite off v f) :=
  ite_kept (hf _ (journalWrite_kept h)) (journalWrite_kept h)

theorem execPowerCapWrite_kept {s reg value t} (h : Kept s t) : ResKept s (execPowerCapWrite reg value t) :=
  when_kept h (hostWrite_kept h (fun _ hk => writeCap_kept hk))

theorem writeCoolant_kept {s t v} (h : Kept s t) : Kept s (State.writeCoolant t v) := modTherm_kept h

theorem execFlowKWrite_kept {s value t} (h : Kept s t) : ResKept s (execFlowKWrite value t) :=
  when_kept h (hostWrite_kept h (fun _ hk => writeCoolant_kept hk))

theorem powerTrivet_kept {s t cause trivetCause} (h : Kept s t) : Kept s (State.powerTrivet t cause trivetCause) :=
  enterTrivet_kept (journalAction_kept (event_kept h))

theorem applyClamp_kept {s t mv} (h : Kept s t) : Kept s (State.applyClamp t mv) := by
  unfold State.applyClamp
  dsimp only
  exact capChanged_kept (journalAction_kept (event_kept (setDuty_kept (modPwr_kept h))))

theorem releaseClamp_kept {s t mv} (h : Kept s t) : Kept s (State.releaseClamp t mv) :=
  capChanged_kept (event_kept (modPwr_kept h))

theorem vinResponse_kept {s t mv} (h : Kept s t) : Kept s (State.vinResponse t mv) := by
  unfold State.vinResponse
  dsimp only
  exact ite_kept (powerTrivet_kept (ite_kept (event_kept (ite_kept (applyClamp_kept h) (ite_kept (releaseClamp_kept h) h)))
      (ite_kept (applyClamp_kept h) (ite_kept (releaseClamp_kept h) h)))) (ite_kept (powerTrivet_kept (ite_kept (event_kept
      (ite_kept (applyClamp_kept h) (ite_kept (releaseClamp_kept h) h))) (ite_kept (applyClamp_kept h) (ite_kept
      (releaseClamp_kept h) h)))) (ite_kept (event_kept (ite_kept (applyClamp_kept h) (ite_kept (releaseClamp_kept h) h)))
      (ite_kept (applyClamp_kept h) (ite_kept (releaseClamp_kept h) h))))

theorem execVinSample_kept {s mv watts t} (h : Kept s t) : ResKept s (execVinSample mv watts t) :=
  ite_resKept fault_resKept (ite_resKept (next_kept (modPins_kept h)) (ite_resKept (next_kept (railsOff_kept (modPins_kept h)))
      (ite_resKept (next_kept (modPins_kept h)) (next_kept (ite_kept (modPwr_kept (modPins_kept h)) (vinResponse_kept
      (modPwr_kept (modPins_kept h))))))))

theorem execDroopTrip_kept {s die t} (h : Kept s t) : ResKept s (execDroopTrip die t) := when_kept h (modPwr_kept h)

theorem execPeakLimiterAdjust_kept {s t} (h : Kept s t) : ResKept s (execPeakLimiterAdjust t) :=
  ite_resKept (next_kept h) (ite_resKept (next_kept (setDuty_kept h)) (ite_resKept (next_kept (setDuty_kept h)) (next_kept h)))

theorem runLoop_kept {s t fixedW} (h : Kept s t) : Kept s (State.runLoop t fixedW) :=
  ite_kept (setDuty_kept (ite_kept (modPwr_kept (ite_kept (modPwr_kept (adjustOp_kept (modPwr_kept h))) (adjustOp_kept
      (modPwr_kept h)))) (ite_kept (modPwr_kept (adjustOp_kept (modPwr_kept h))) (adjustOp_kept (modPwr_kept h))))) (ite_kept
      (modPwr_kept (adjustOp_kept (modPwr_kept h))) (adjustOp_kept (modPwr_kept h)))

theorem execSustainedLoopRun_kept {s fixedW t} (h : Kept s t) : ResKept s (execSustainedLoopRun fixedW t) :=
  when_kept h (runLoop_kept h)

theorem execCapFallDutyStep_kept {s fixedW t} (h : Kept s t) : ResKept s (execCapFallDutyStep fixedW t) := by
  unfold execCapFallDutyStep
  dsimp only
  refine ite_resKept (next_kept h) ?_
  split
  · exact next_kept (setDuty_kept (modPwr_kept h))
  · exact ite_resKept (next_kept (modPwr_kept h)) (ite_resKept (next_kept h) (next_kept (setDuty_kept h)))
  · exact ite_resKept (next_kept (modPwr_kept h)) (ite_resKept (next_kept h) (next_kept (setDuty_kept h)))
  · exact next_kept h

theorem execOpRailSettled_kept {s t} (h : Kept s t) : ResKept s (execOpRailSettled t) := by
  unfold execOpRailSettled
  dsimp only
  split
  · exact when_kept h (tracePoint5_kept (modPwr_kept h) h)
  · exact next_kept h

theorem execKeepwarmBeat_kept {s unfilledW coreMilliW t} (h : Kept s t) : ResKept s (execKeepwarmBeat unfilledW coreMilliW t) :=
  when_kept h (ite_kept (setDuty_kept (modPwr_kept (draw_kept h))) (modPwr_kept (draw_kept h)))

theorem execMgrTimeoutLapse_kept {s t} (h : Kept s t) : ResKept s (execMgrTimeoutLapse t) :=
  when_kept h (setLimits_kept (journalAction_kept (event_kept h)))

theorem hardTrip_kept {s t} (h : Kept s t) : Kept s (State.hardTrip t) := modPins_kept (railsOff_kept h)
theorem inletTest_kept {s t} (h : Kept s t) : Kept s (State.inletTest t) := ite_kept h (event_kept (modTherm_kept h))
theorem throttleEvent_kept {s t ended} (h : Kept s t) : Kept s (State.throttleEvent t ended) := event_kept h

theorem throttleStart_kept {s t} (h : Kept s t) : Kept s (State.throttleStart t) :=
  ite_kept h (throttleEvent_kept (modTherm_kept h))

theorem takeCoolant_kept {s t coolIn coolOut} (h : Kept s t) : Kept s (State.takeCoolant t coolIn coolOut) := by
  unfold State.takeCoolant
  dsimp only
  exact modTherm_kept h

theorem takeReadings_kept {s t tmax where_ coolIn coolOut} (h : Kept s t) : Kept s (State.takeReadings t tmax where_ coolIn
    coolOut) :=
  modTherm_kept (takeCoolant_kept h)

theorem execThermalSample_kept {s tmax where_ coolIn coolOut t} (h : Kept s t) : ResKept s (execThermalSample tmax where_
    coolIn coolOut t) :=
  ite_resKept (next_kept h) (ite_resKept (next_kept (hardTrip_kept h)) (ite_resKept (next_kept (takeReadings_kept h))
      (ite_resKept (next_kept (powerTrivet_kept (takeReadings_kept h))) (next_kept (ite_kept (throttleStart_kept
      (inletTest_kept (takeReadings_kept h))) (takeReadings_kept h))))))

theorem execThermalThrottleStep_kept {s t} (h : Kept s t) : ResKept s (execThermalThrottleStep t) :=
  ite_resKept (next_kept h) (ite_resKept (next_kept (adjustOp_kept (modTherm_kept h))) (ite_resKept (ite_resKept (next_kept
      (adjustOp_kept (throttleEvent_kept (modTherm_kept (modTherm_kept h))))) (next_kept (adjustOp_kept (modTherm_kept h))))
      (next_kept h)))

theorem execFlowPulse_kept {s t} (h : Kept s t) : ResKept s (execFlowPulse t) := when_kept h (modTherm_kept h)
theorem simmerEvent_kept {s t left} (h : Kept s t) : Kept s (State.simmerEvent t left) := event_kept h

theorem enterSimmer_kept {s t cause} (h : Kept s t) : Kept s (State.enterSimmer t cause) :=
  ite_kept h (adjustOp_kept (journalAction_kept (simmerEvent_kept (modPwr_kept h))))

theorem flowWarning_kept {s t} (h : Kept s t) : Kept s (State.flowWarning t) := ite_kept h (event_kept (modTherm_kept h))

theorem execFlowCheck_kept {s coolIn coolOut t} (h : Kept s t) : ResKept s (execFlowCheck coolIn coolOut t) :=
  ite_resKept (next_kept h) (ite_resKept (next_kept (enterSimmer_kept (modPwr_kept (modTherm_kept (ite_kept (flowWarning_kept
      (takeCoolant_kept h)) (takeCoolant_kept h)))))) (ite_resKept (next_kept (enterSimmer_kept (modPwr_kept (modTherm_kept
      (ite_kept (flowWarning_kept (takeCoolant_kept h)) (takeCoolant_kept h)))))) (next_kept (modPwr_kept (modTherm_kept
      (ite_kept (flowWarning_kept (takeCoolant_kept h)) (takeCoolant_kept h)))))))

theorem execSimmerExit_kept {s t} (h : Kept s t) : ResKept s (execSimmerExit t) := by
  unfold execSimmerExit
  split
  · exact when_kept h (journalAction_kept (simmerEvent_kept (modPwr_kept h)))
  · exact next_kept h

theorem katFailCore_kept {s t core unit} (h : Kept s t) : Kept s (State.katFailCore t core unit) :=
  failCore_kept (event_kept (modHealth_kept h))

theorem execKatRound_kept {s target pass unit t} (h : Kept s t) : ResKept s (execKatRound target pass unit t) := by
  unfold execKatRound
  dsimp only
  split
  · exact ite_resKept (next_kept h) (next_kept (ite_kept (repeat_kept (modFab_kept h) (fun _ hk => managerPacket_kept hk))
        (katFailCore_kept (repeat_kept (modFab_kept h) (fun _ hk => managerPacket_kept hk)))))
  · exact ite_resKept (next_kept h) (next_kept (unitOut_kept (modHealth_kept h)))

theorem execLbistCoreRun_kept {s die row pos pass t} (h : Kept s t) : ResKept s (execLbistCoreRun die row pos pass t) :=
  when_kept h (failPos_kept h)

theorem execSramScrub_kept {s t : State} {c good bad} (h : Kept s t) : ResKept s (execSramScrub c good bad t) := by
  obtain ⟨die, row, pos⟩ := c
  unfold execSramScrub
  dsimp only
  split
  · exact next_kept h
  · exact next_kept (sramWords_kept (settleUpsets_kept h))

theorem execHbmPatrolScrub_kept {s stack pc row corrected uncorrectable pcFailed t} (h : Kept s t) : ResKept s
    (execHbmPatrolScrub stack pc row corrected uncorrectable pcFailed t) :=
  ite_resKept (next_kept h) (next_kept (ite_kept (modGrid_kept (hbmWords_kept (settleUpsets_kept h))) (hbmWords_kept
      (settleUpsets_kept h))))

theorem execHbmRowRepair_kept {s stack pc bank row spares t} (h : Kept s t) : ResKept s (execHbmRowRepair stack pc bank row
    spares t) :=
  ite_resKept (next_kept h) (ite_resKept (next_kept (event_kept (modHealth_kept h))) (next_kept (journalAction_kept (event_kept
      (modHealth_kept (modGrid_kept (modHealth_kept h)))))))

theorem execDdrPatrolScrub_kept {s channel corrected uncorrectable t} (h : Kept s t) : ResKept s (execDdrPatrolScrub channel
    corrected uncorrectable t) :=
  ite_resKept (next_kept h) (next_kept (ddrWords_kept (settleUpsets_kept h)))

theorem moveCore_kept {s t core} (h : Kept s t) : Kept s (State.moveCore t core) := by
  unfold State.moveCore
  dsimp only
  split
  · exact modFab_kept (scribble_kept h)
  · exact modFab_kept (scribble_kept h)

theorem execCoreRemap_kept {s die row pos t} (h : Kept s t) : ResKept s (execCoreRemap die row pos t) := by
  unfold execCoreRemap
  dsimp only
  split
  · exact next_kept h
  · exact ite_resKept (next_kept h) (next_kept (journalAction_kept (event_kept (modHealth_kept (remapEvents_kept
        (writeSpares_kept (foldl_kept (modGrid_kept h) fun _ _ hk => managerPacket_kept (moveCore_kept hk))))))))

theorem execLockstepMismatch_kept {s pair t} (h : Kept s t) : ResKept s (execLockstepMismatch pair t) :=
  ite_resKept (next_kept h) (ite_resKept (next_kept (enterTrivet_kept h)) (next_kept (enterTrivet_kept (journalAction_kept
      (event_kept h)))))

theorem startSelftest_kept {s mask id t} (h : Kept s t) : Kept s (startSelftest mask id t) :=
  ite_kept (finish_kept h) (modHealth_kept h)

theorem execSelftest_kept {s e mask t} (h : Kept s t) : ResKept s (execSelftest e mask t) :=
  command_kept h (fun _ _ hk => startSelftest_kept hk)

theorem loopbackFail_kept {s t l} (h : Kept s t) : Kept s (State.loopbackFail t l) := modPort_kept h

theorem execSelftestComplete_kept {s failures lanes t} (h : Kept s t) : ResKept s (execSelftestComplete failures lanes t) := by
  unfold execSelftestComplete
  dsimp only
  split
  · exact next_kept h
  · exact ite_resKept (next_kept h) (next_kept (finish_kept (foldl_kept (foldl_kept (modHealth_kept h) fun _ _ hk =>
        failPos_kept hk) fun _ _ hk => loopbackFail_kept hk)))

theorem startRepairCommit_kept {s write id t} (h : Kept s t) : Kept s (startRepairCommit write id t) :=
  ite_kept (finish_kept h) (ite_kept (finish_kept (flashFails_kept h)) (finish_kept (writeRepair_kept (flashFails_kept h))))

theorem execRepairCommit_kept {s e write t} (h : Kept s t) : ResKept s (execRepairCommit e write t) :=
  command_kept h (fun _ _ hk => startRepairCommit_kept hk)

theorem startKatCfg_kept {s ms id t} (h : Kept s t) : Kept s (startKatCfg ms id t) := finish_kept (modHealth_kept h)

theorem execKatCfg_kept {s e ms t} (h : Kept s t) : ResKept s (execKatCfg e ms t) :=
  command_kept h (fun _ _ hk => startKatCfg_kept hk)

theorem startScrubCfg_kept {s hbmS ddrS id t} (h : Kept s t) : Kept s (startScrubCfg hbmS ddrS id t) :=
  finish_kept (modHealth_kept h)

theorem execScrubCfg_kept {s e hbmS ddrS t} (h : Kept s t) : ResKept s (execScrubCfg e hbmS ddrS t) :=
  command_kept h (fun _ _ hk => startScrubCfg_kept hk)

theorem startHealthQuery_kept {s e dst len id t} (h : Kept s t) : Kept s (startHealthQuery e dst len id t) :=
  finish_kept (writeBytes_kept h)

theorem execHealthQuery_kept {s e dst len t} (h : Kept s t) : ResKept s (execHealthQuery e dst len t) :=
  command_kept h (fun _ _ hk => startHealthQuery_kept hk)

theorem execWearMeasure_kept {s stressed reference t} (h : Kept s t) : ResKept s (execWearMeasure stressed reference t) :=
  ite_resKept (next_kept h) (next_kept (ite_kept (event_kept (modHealth_kept h)) (modHealth_kept h)))

theorem appendWear_kept {s t entry} (h : Kept s t) : Kept s (State.appendWear t entry) := writeBytes_kept h

theorem execWearLogWrite_kept {s t} (h : Kept s t) : ResKept s (execWearLogWrite t) :=
  ite_resKept (next_kept h) (next_kept (ite_kept (modHealth_kept (appendWear_kept h)) (writeRepair_kept (modHealth_kept
      (appendWear_kept h)))))

theorem startTraceCfg_kept {s buf size mask id t} (h : Kept s t) : Kept s (startTraceCfg buf size mask id t) :=
  finish_kept (modHealth_kept h)

theorem execTraceCfg_kept {s e buf size mask t} (h : Kept s t) : ResKept s (execTraceCfg e buf size mask t) :=
  command_kept h (fun _ _ hk => startTraceCfg_kept hk)

theorem startDump_kept {s e dst len kind core id t} (h : Kept s t) : Kept s (startDump e dst len kind core id t) :=
  ite_kept (finish_kept h) (finish_kept (writeBytes_kept h))

theorem execDump_kept {s e dst len kind core t} (h : Kept s t) : ResKept s (execDump e dst len kind core t) :=
  command_kept h (fun _ _ hk => startDump_kept hk)

theorem sendRows_kept {s t c job chip len} (h : Kept s t) : Kept s (State.sendRows t c job chip len) := by
  unfold State.sendRows
  dsimp only
  split
  · exact countDrop_kept h
  · exact foldl_kept h fun _ _ hk => originate_kept (drawBytes_kept hk)

theorem openExchange_kept {s t c i p r ret} (h : Kept s t) : Kept s (State.openExchange t c i p r ret) := by
  unfold State.openExchange
  dsimp only
  refine ite_kept (deliverHeld_kept (modPoint_kept (modLink_kept h))) (deliverHeld_kept ?_)
  split
  · exact takeSlice_kept (drawBytes_kept (foldl_kept (modPoint_kept (modLink_kept h)) fun _ _ hk => sendRows_kept hk))
  · exact drawBytes_kept (foldl_kept (modPoint_kept (modLink_kept h)) fun _ _ hk => sendRows_kept hk)

theorem exchangeDue_kept {s t inv program} (h : Kept s t) : Kept s (State.exchangeDue t inv program) := by
  unfold State.exchangeDue
  split
  · exact h
  · refine ite_kept h (ite_kept (openExchange_kept h) (ite_kept ?_ (ite_kept (openExchange_kept h) h)))
    split
    · exact endColl_kept (dropSlices_kept h)
    · exact h

theorem exchangeTick_kept {s t} (h : Kept s t) : Kept s (State.exchangeTick t) :=
  foldl_kept h fun _ _ hk => exchangeDue_kept (exchangeDue_kept hk)

theorem startSrvStart_kept {s e desc id t} (h : Kept s t) : Kept s (startSrvStart e desc id t) := by
  unfold startSrvStart
  dsimp only
  split
  · exact finish_kept h
  · refine ite_kept (finish_kept h) ?_
    split
    · exact finish_kept (touch_kept h)
    · exact ite_kept (finish_kept (touch_kept h)) (finish_kept (modCtx_kept (touch_kept h)))

theorem execSrvStart_kept {s e desc t} (h : Kept s t) : ResKept s (execSrvStart e desc t) :=
  command_kept h (fun _ _ hk => startSrvStart_kept hk)

theorem startSrvPolicy_kept {s e chunk nMin nMax sMin sMax interval id t} (h : Kept s t) : Kept s (startSrvPolicy e chunk nMin
    nMax sMin sMax interval id t) := by
  unfold startSrvPolicy
  dsimp only
  split
  · exact finish_kept h
  · exact ite_kept (finish_kept h) (finish_kept (modServing_kept h))

theorem execSrvPolicy_kept {s e chunk nMin nMax sMin sMax interval t} (h : Kept s t) : ResKept s (execSrvPolicy e chunk nMin
    nMax sMin sMax interval t) :=
  command_kept h (fun _ _ hk => startSrvPolicy_kept hk)

theorem startReqAdmit_kept {s e desc deadline adapter hostStep id t} (h : Kept s t) : Kept s (startReqAdmit e desc deadline
    adapter hostStep id t) := by
  unfold startReqAdmit
  dsimp only
  split
  · exact finish_kept h
  · split
    · exact finish_kept h
    · refine ite_kept (finish_kept h) ?_
      split
      · exact finish_kept (touch_kept h)
      · exact ite_kept (finish_kept (touch_kept h)) (rebalance_kept (finish_kept (modServing_kept (draw_kept (touch_kept h)))))

theorem execReqAdmit_kept {s e desc deadline adapter hostStep t} (h : Kept s t) : ResKept s (execReqAdmit e desc deadline
    adapter hostStep t) :=
  command_kept h (fun _ _ hk => startReqAdmit_kept hk)

theorem modReq_kept {s t ctx req f} (h : Kept s t) : Kept s (State.modReq t ctx req f) := modServing_kept h

theorem retireNow_kept {s t ctx req st} (h : Kept s t) : Kept s (State.retireNow t ctx req st) :=
  rebalance_kept (stopIfDrained_kept (retire_kept h))

theorem startReqCancel_kept {s e req id t} (h : Kept s t) : Kept s (startReqCancel e req id t) := by
  unfold startReqCancel
  dsimp only
  split
  · exact finish_kept h
  · refine ite_kept (finish_kept h) ?_
    split
    · exact finish_kept h
    · exact ite_kept (finish_kept h) (ite_kept (modReq_kept h) (retireNow_kept (modReq_kept h)))

theorem execReqCancel_kept {s e req t} (h : Kept s t) : ResKept s (execReqCancel e req t) :=
  command_kept h (fun _ _ hk => startReqCancel_kept hk)

theorem execRequestDeadline_kept {s ctx req t} (h : Kept s t) : ResKept s (execRequestDeadline ctx req t) := by
  unfold execRequestDeadline
  split
  · exact next_kept h
  · split
    · exact when_kept h (retireNow_kept h)
    · exact next_kept h

theorem answerReq_kept {s t c v req step key len id} (h : Kept s t) : Kept s (State.answerReq t c v req step key len id) := by
  unfold State.answerReq
  dsimp only
  refine ite_kept (finish_kept h) ?_
  split
  · exact finish_kept h
  · refine ite_kept (finish_kept h) (ite_kept (finish_kept h) (rebalance_kept (finish_kept (modReq_kept ?_))))
    split
    · exact writeMarked_kept h
    · exact h

theorem startStepAnswer_kept {s e req step answer len id t} (h : Kept s t) : Kept s (startStepAnswer e req step answer len id
    t) := by
  unfold startStepAnswer
  dsimp only
  split
  · exact finish_kept h
  · refine ite_kept (answerRoute_kept (touch_kept h)) ?_
    split
    · exact finish_kept (touch_kept h)
    · exact answerReq_kept (touch_kept h)

theorem execStepAnswer_kept {s e req step answer len t} (h : Kept s t) : ResKept s (execStepAnswer e req step answer len t) :=
  command_kept h (fun _ _ hk => startStepAnswer_kept hk)

theorem retireAll_kept {s t ctx st} (h : Kept s t) : Kept s (State.retireAll t ctx st) :=
  foldl_kept h fun _ _ hk => retire_kept hk

theorem startSrvStop_kept {s e drain id t} (h : Kept s t) : Kept s (startSrvStop e drain id t) := by
  unfold startSrvStop
  dsimp only
  split
  · exact finish_kept h
  · exact ite_kept (finish_kept h) (rebalance_kept (stopIfDrained_kept (ite_kept (retireAll_kept (modServing_kept h))
        (modServing_kept h))))

theorem execSrvStop_kept {s e drain t} (h : Kept s t) : ResKept s (execSrvStop e drain t) :=
  command_kept h (fun _ _ hk => startSrvStop_kept hk)

theorem setExt_kept {s t ctx} (h : Kept s t) : Kept s (State.setExt t ctx) := by
  unfold State.setExt
  dsimp only
  split
  · exact h
  · exact ite_kept (modServing_kept h) (event_kept (modServing_kept h))

theorem pickDec_kept {s t : State} {ctx n} (h : Kept s t) :
    Kept s (State.pickDec ctx n t).1 := by
  induction n generalizing t with
  | zero => exact h
  | succ n ih =>
    unfold State.pickDec
    dsimp only
    split
    · exact h
    · split
      · exact h
      · split
        · exact ih (retire_kept h)
        · exact h

theorem givePages_kept {s t : State} {ctx req n} (h : Kept s t) : Kept s (t.givePages ctx req n) := by
  induction n with
  | zero => exact h
  | succ n ih =>
    unfold State.givePages
    dsimp only
    split
    · exact ih
    · split
      · exact modReq_kept ((choose_kept ih).snd ‹_›)
      · exact (choose_kept ih).snd ‹_›

theorem pickChunks_kept {s t : State} {ctx qs budget acc} (h : Kept s t) :
    Kept s (State.pickChunks ctx qs budget acc t).1 := by
  induction qs generalizing t budget acc with
  | nil => exact h
  | cons q qs ih =>
    unfold State.pickChunks
    dsimp only
    split
    · exact h
    · split
      · exact h
      · split
        · exact ih h
        · split
          · exact ih h
          · split
            · exact h
            · split
              · exact h
              · exact ih (givePages_kept (modReq_kept h))

theorem writeRecords_kept {s t ctx dec chunks} (h : Kept s t) : Kept s (State.writeRecords t ctx dec chunks) := by
  unfold State.writeRecords
  dsimp only
  split
  · exact h
  · refine foldl_kept (foldl_kept (foldl_kept h fun _ _ hk => ?_) fun _ _ hk => ?_) fun _ _ hk => ?_
    · split
      · exact writeBytes_kept hk
      · exact hk
    · split
      · exact writeBytes_kept hk
      · exact hk
    · split
      · exact writeBytes_kept hk
      · exact hk

/-- The invocation of DEC or PRE, where the step has one. -/
theorem addStepInv_kept {s u : State} {o : Option Cfg} {mk : Cfg → Nat → Inv} (h : Kept s u) : Kept s (match o with
    | some g => ((u.addInv (mk g)).1, some (u.addInv (mk g)).2)
    | none => (u, none)).1 := by
  split
  · exact addInv_kept h
  · exact h

theorem launchStep_kept {s t : State} {ctx dec chunks} (h : Kept s t) : Kept s (t.launchStep ctx dec chunks) := by
  unfold State.launchStep
  dsimp only
  split
  · exact h
  · refine modCtx_kept (modServing_kept (ite_fst_kept (ite_fst_kept h ?_) ?_))
    · exact addStepInv_kept h
    · exact addStepInv_kept (ite_fst_kept h (addStepInv_kept h))

theorem retireDue_kept {s t ctx} (h : Kept s t) : Kept s (State.retireDue t ctx) := by
  unfold State.retireDue
  split
  · exact h
  · exact foldl_kept h fun _ _ hk => retire_kept hk

theorem compose_kept {s t ctx} (h : Kept s t) : Kept s (State.compose t ctx) := by
  unfold State.compose
  dsimp only
  split
  · exact pickDec_kept (setExt_kept (retireDue_kept h))
  · exact ite_kept (rebalance_kept (stopIfDrained_kept (modServing_kept (pickChunks_kept (foldl_kept (pickDec_kept (setExt_kept
        (retireDue_kept h))) fun _ _ hk => givePages_kept hk))))) (ite_kept (rebalance_kept (launchStep_kept (writeRecords_kept
        (pickChunks_kept (foldl_kept (pickDec_kept (setExt_kept (retireDue_kept h))) fun _ _ hk => givePages_kept hk)))))
        (launchStep_kept (writeRecords_kept (pickChunks_kept (foldl_kept (pickDec_kept (setExt_kept (retireDue_kept h))) fun _
        _ hk => givePages_kept hk)))))

theorem execStepCompose_kept {s ctx t} (h : Kept s t) : ResKept s (execStepCompose ctx t) := by
  unfold execStepCompose
  split
  · exact when_kept h (compose_kept h)
  · exact next_kept h

theorem goOn_kept {s t ctx r} (h : Kept s t) : Kept s (State.goOn t ctx r) :=
  ite_kept (ring_kept (modReq_kept h)) (modReq_kept h)

theorem endDec_kept {s t ctx st m} (h : Kept s t) : Kept s (State.endDec t ctx st m) := by
  unfold State.endDec
  dsimp only
  split
  · exact touchAll_kept h
  · split
    · exact touchAll_kept h
    · exact ite_kept (retire_kept (modServing_kept (touchAll_kept h))) (ite_kept (retire_kept (modServing_kept (touchAll_kept
          h))) (ite_kept (retire_kept (modServing_kept (touchAll_kept h))) (ite_kept (ite_kept (retire_kept (modServing_kept
          (touchAll_kept h))) (ite_kept (retire_kept (modServing_kept (touchAll_kept h))) (modServing_kept (touchAll_kept h))))
          (ite_kept (retire_kept (modReq_kept (writeWords_kept (modServing_kept (touchAll_kept h))))) (ite_kept (retire_kept
          (modReq_kept (writeWords_kept (modServing_kept (touchAll_kept h))))) (ite_kept (retire_kept (modReq_kept
          (writeWords_kept (modServing_kept (touchAll_kept h))))) (goOn_kept (modReq_kept (writeWords_kept (modServing_kept
          (touchAll_kept h)))))))))))

theorem endChunk_kept {s t ctx st m} (h : Kept s t) : Kept s (State.endChunk t ctx st m) := by
  unfold State.endChunk
  dsimp only
  split
  · exact h
  · split
    · exact h
    · exact ite_kept (retire_kept (modServing_kept h)) (ite_kept (retire_kept (modServing_kept h)) (ite_kept (retire_kept
          (modServing_kept h)) (ite_kept (retire_kept (modServing_kept h)) (ite_kept (retire_kept (modServing_kept h))
          (ite_kept (modServing_kept h) (ite_kept (goOn_kept (modReq_kept (modServing_kept h))) (modReq_kept (modServing_kept
          h))))))))

theorem dropMirror_kept {s t : State} {ctx} (h : Kept s t) : Kept s (t.dropMirror ctx).1 := h.frame

theorem mirrorStep_kept {s t ctx clear} (h : Kept s t) : Kept s (State.mirrorStep t ctx clear) := by
  unfold State.mirrorStep
  dsimp only
  split
  · exact h
  · exact ite_kept h (modCtx_kept (sendMirror_kept (touchAll_kept (ite_kept (event_kept (dropMirror_kept h)) (dropMirror_kept
        h)))))

theorem endStep_kept {s t c v r} (h : Kept s t) : Kept s (State.endStep t c v r) :=
  rebalance_kept (stopIfDrained_kept (modServing_kept (mirrorStep_kept (modServing_kept (ite_kept (retireAll_kept (foldl_kept
      (foldl_kept (modServing_kept h) fun _ _ hk => endDec_kept hk) fun _ _ hk => endChunk_kept hk)) (foldl_kept (foldl_kept
      (modServing_kept h) fun _ _ hk => endDec_kept hk) fun _ _ hk => endChunk_kept hk))))))

theorem execStepEnd_kept {s ctx t} (h : Kept s t) : ResKept s (execStepEnd ctx t) := by
  unfold execStepEnd
  split
  · exact next_kept h
  · exact when_kept h (endStep_kept h)

theorem touchManifest_kept {s t ctx man mask kinds} (h : Kept s t) : Kept s (State.touchManifest t ctx man mask kinds) := by
  unfold State.touchManifest
  dsimp only
  split
  · exact h
  · exact touchAll_kept (touchAll_kept h)

theorem modOp_kept {s t ctx cmd f} (h : Kept s t) : Kept s (State.modOp t ctx cmd f) := modCtx_kept h
theorem dropShards_kept {s t ctx cmd} (h : Kept s t) : Kept s (State.dropShards t ctx cmd) := modLink_kept h

theorem fixBarrier_kept {s t ctx cmd} (h : Kept s t) : Kept s (State.fixBarrier t ctx cmd) := by
  unfold State.fixBarrier
  dsimp only
  split
  · exact h
  · refine ite_kept (modCtx_kept (modOp_kept h)) ?_
    split
    · exact ite_kept (stopIfDrained_kept (foldl_kept (modServing_kept (modCtx_kept (modOp_kept h))) fun _ _ hk => retire_kept
          hk)) (rebalance_kept (stopIfDrained_kept (foldl_kept (modServing_kept (modCtx_kept (modOp_kept h))) fun _ _ hk =>
          retire_kept hk)))
    · exact modServing_kept (modCtx_kept (modOp_kept h))

theorem removeOp_kept {s t ctx cmd} (h : Kept s t) : Kept s (State.removeOp t ctx cmd) := dropShards_kept (modCtx_kept h)

theorem endLoad_kept {s t ctx w st} (h : Kept s t) : Kept s (State.endLoad t ctx w st) := by
  unfold State.endLoad
  dsimp only
  split
  · exact h
  · refine finish_kept ?_
    split
    · exact modCtx_kept (removeOp_kept h)
    · exact modCtx_kept (removeOp_kept h)
    · exact removeOp_kept h

theorem adapterCurrent_kept {s t ctx w} (h : Kept s t) : Kept s (State.adapterCurrent t ctx w) :=
  finish_kept (modCtx_kept (removeOp_kept h))

theorem settleOp_kept {s t ctx cmd} (h : Kept s t) : Kept s (State.settleOp t ctx cmd) := by
  unfold State.settleOp
  split
  · exact h
  · refine ite_kept h ?_
    split
    · exact endLoad_kept h
    · split
      · exact adapterCurrent_kept h
      · exact fixBarrier_kept h
      · exact endLoad_kept h

theorem giveUp_kept {s t ctx cmd st} (h : Kept s t) : Kept s (State.giveUp t ctx cmd st) := by
  unfold State.giveUp
  dsimp only
  split
  · refine dropShards_kept (foldl_kept (foldl_kept h fun _ _ hk => ?_) fun _ _ hk => modOp_kept (shardEntry_kept hk))
    split
    · exact scribble_kept hk
    · exact hk
  · exact h

theorem abortOp_kept {s t ctx cmd} (h : Kept s t) : Kept s (State.abortOp t ctx cmd) := by
  unfold State.abortOp
  dsimp only
  split
  · exact endLoad_kept (giveUp_kept h)
  · exact giveUp_kept h

theorem beginOp_kept {s t ctx w} (h : Kept s t) : Kept s (State.beginOp t ctx w) :=
  settleOp_kept (ite_kept (giveUp_kept (modCtx_kept (modMem_kept h))) (modCtx_kept (modMem_kept h)))

theorem startWgtLoad_kept {s e manifest mask deadline id t} (h : Kept s t) : Kept s (startWgtLoad e manifest mask deadline id
    t) := by
  unfold startWgtLoad
  dsimp only
  split
  · exact finish_kept (touchManifest_kept h)
  · refine ite_kept (finish_kept (touchManifest_kept h)) (ite_kept (finish_kept (touchManifest_kept h)) ?_)
    split
    · exact finish_kept (touchManifest_kept h)
    · split
      · exact finish_kept (touchManifest_kept h)
      · split
        · exact finish_kept (touchManifest_kept h)
        · exact beginOp_kept (modCtx_kept (touchManifest_kept h))

theorem execWgtLoad_kept {s e manifest mask deadline t} (h : Kept s t) : ResKept s (execWgtLoad e manifest mask deadline t) :=
  command_kept h (fun _ _ hk => startWgtLoad_kept hk)

theorem startWgtReplace_kept {s e manifest keepKv deadline id t} (h : Kept s t) : Kept s (startWgtReplace e manifest keepKv
    deadline id t) := by
  unfold startWgtReplace
  dsimp only
  split
  · exact finish_kept (touchManifest_kept h)
  · refine ite_kept (finish_kept (touchManifest_kept h)) ?_
    split
    · exact finish_kept (touchManifest_kept h)
    · exact beginOp_kept (modCtx_kept (touchManifest_kept h))

theorem execWgtReplace_kept {s e manifest keepKv deadline t} (h : Kept s t) : ResKept s (execWgtReplace e manifest keepKv
    deadline t) :=
  command_kept h (fun _ _ hk => startWgtReplace_kept hk)

theorem startAdapterLoad_kept {s e manifest adapter version deadline id t} (h : Kept s t) : Kept s (startAdapterLoad e manifest
    adapter version deadline id t) := by
  unfold startAdapterLoad
  dsimp only
  split
  · exact finish_kept (touchManifest_kept h)
  · refine ite_kept (finish_kept (touchManifest_kept h)) ?_
    split
    · exact finish_kept (touchManifest_kept h)
    · exact ite_kept (finish_kept (touchManifest_kept h)) (beginOp_kept (ite_kept (modCtx_kept (touchManifest_kept h))
          (touchManifest_kept h)))

theorem execAdapterLoad_kept {s e manifest adapter version deadline t} (h : Kept s t) : ResKept s (execAdapterLoad e manifest
    adapter version deadline t) :=
  command_kept h (fun _ _ hk => startAdapterLoad_kept hk)

theorem execAdapterRoomDeadline_kept {s ctx adapter t} (h : Kept s t) : ResKept s (execAdapterRoomDeadline ctx adapter t) := by
  unfold execAdapterRoomDeadline
  split
  · exact when_kept h (finish_kept (removeOp_kept h))
  · exact next_kept h

theorem startAdapterRetire_kept {s e adapter version id t} (h : Kept s t) : Kept s (startAdapterRetire e adapter version id t)
    := by
  unfold startAdapterRetire
  dsimp only
  split
  · exact finish_kept h
  · exact ite_kept (finish_kept h) (finish_kept (modCtx_kept h))

theorem execAdapterRetire_kept {s e adapter version t} (h : Kept s t) : ResKept s (execAdapterRetire e adapter version t) :=
  command_kept h (fun _ _ hk => startAdapterRetire_kept hk)

theorem touchMask_kept {s t ctx mask} (h : Kept s t) : Kept s (State.touchMask t ctx mask) := by
  unfold State.touchMask
  split
  · exact ite_kept h (touchAll_kept h)
  · exact h

theorem startWgtVerify_kept {s e mask id t} (h : Kept s t) : Kept s (startWgtVerify e mask id t) := by
  unfold startWgtVerify
  dsimp only
  split
  · exact finish_kept (touchMask_kept h)
  · refine ite_kept (finish_kept (touchMask_kept h)) (ite_kept (finish_kept (touchMask_kept h)) ?_)
    split
    · exact finish_kept (touchMask_kept h)
    · exact ite_kept (finish_kept (touchMask_kept h)) (modRec_kept (modCtx_kept (touchMask_kept h)))

theorem execWgtVerify_kept {s e mask t} (h : Kept s t) : ResKept s (execWgtVerify e mask t) :=
  command_kept h (fun _ _ hk => startWgtVerify_kept hk)

theorem endVerify_kept {s t id ctx ix} (h : Kept s t) : Kept s (State.endVerify t id ctx ix) := by
  unfold State.endVerify
  dsimp only
  split
  · exact finish_kept h
  · exact ite_kept (finish_kept (modCtx_kept h)) (finish_kept (modCtx_kept h))

theorem execShardReadyPoll_kept {s ctx shard t} (h : Kept s t) : ResKept s (execShardReadyPoll ctx shard t) := by
  unfold execShardReadyPoll
  dsimp only
  split
  · exact next_kept h
  · split
    · exact next_kept h
    · split
      · exact next_kept (ite_kept h (ite_kept (modOp_kept (touch_kept h)) (touch_kept h)))
      · exact next_kept h

theorem execShardStart_kept {s ctx shard t} (h : Kept s t) : ResKept s (execShardStart ctx shard t) := by
  unfold execShardStart
  dsimp only
  split
  · exact next_kept h
  · split
    · exact next_kept h
    · refine ite_resKept (next_kept h) (ite_resKept (next_kept (abortOp_kept h)) ?_)
      split
      · exact ite_resKept (next_kept (startTransfer_kept (modCtx_kept (modOp_kept h)))) (next_kept (modCtx_kept (modOp_kept h)))
      · exact next_kept (modCtx_kept (modOp_kept h))

theorem takeShard_kept {s t c w shard x bs ps} (h : Kept s t) : Kept s (State.takeShard t c w shard x bs ps) := by
  unfold State.takeShard
  dsimp only
  split
  · exact modOp_kept (shardEntry_kept (ite_kept (scribble_kept (modLink_kept h)) (modLink_kept h)))
  · exact modOp_kept (modCtx_kept (shardEntry_kept (countConv_kept (writeMarked_kept (modLink_kept h)))))

theorem touchShard_kept {s t c x} (h : Kept s t) : Kept s (State.touchShard t c x) := by
  unfold State.touchShard
  split
  · exact touch_kept h
  · exact h

theorem execShardComplete_kept {s ctx shard t} (h : Kept s t) : ResKept s (execShardComplete ctx shard t) := by
  unfold execShardComplete
  dsimp only
  split
  · exact next_kept h
  · split
    · exact next_kept h
    · split
      · exact next_kept h
      · exact when_kept h (ite_kept (abortOp_kept (touchShard_kept h)) (settleOp_kept (takeShard_kept (touchShard_kept h))))

theorem execWeightDeadline_kept {s ctx t} (h : Kept s t) : ResKept s (execWeightDeadline ctx t) := by
  unfold execWeightDeadline
  split
  · exact when_kept h (settleOp_kept (giveUp_kept h))
  · exact next_kept h

theorem execLayerOverwriteStart_kept {s ctx t} (h : Kept s t) : ResKept s (execLayerOverwriteStart ctx t) := by
  unfold execLayerOverwriteStart
  split
  · exact when_kept h (modOp_kept h)
  · exact next_kept h

theorem overwriteShard_kept {s t c w x r} (h : Kept s t) : Kept s (State.overwriteShard t c w x r) := by
  unfold State.overwriteShard
  dsimp only
  split
  · exact h
  · exact ite_kept (modOp_kept (writeMarked_kept h)) (writeBytes_kept h)

theorem endReplace_kept {s t ctx cmd} (h : Kept s t) : Kept s (State.endReplace t ctx cmd) := by
  unfold State.endReplace
  dsimp only
  split
  · exact h
  · exact finish_kept (modCtx_kept h)

theorem replaceFault_kept {s t ctx cmd} (h : Kept s t) : Kept s (State.replaceFault t ctx cmd) :=
  finish_kept (tearDown_kept (modCtx_kept h))

theorem execLayerOverwriteDone_kept {s ctx pathFault t} (h : Kept s t) : ResKept s (execLayerOverwriteDone ctx pathFault t) :=
    by
  unfold execLayerOverwriteDone
  dsimp only
  split
  · exact next_kept h
  · split
    · exact next_kept h
    · refine ite_resKept (next_kept h) (ite_resKept (next_kept (replaceFault_kept h)) (next_kept (ite_kept (modOp_kept
          (foldl_kept (touchAll_kept h) fun _ _ hk => ?_)) (endReplace_kept (modOp_kept (foldl_kept (touchAll_kept h) fun _ _
          hk => ?_))))))
      · split
        · exact overwriteShard_kept hk
        · exact hk
      · split
        · exact overwriteShard_kept hk
        · exact hk

theorem noteLaunch_kept {s t i} (h : Kept s t) : Kept s (State.noteLaunch t i) := by
  unfold State.noteLaunch
  split
  · exact modServing_kept h
  · exact modServing_kept h
  · exact h

theorem execInvocationLaunch_kept {s inv t} (h : Kept s t) : ResKept s (execInvocationLaunch inv t) := by
  unfold execInvocationLaunch
  dsimp only
  split
  · exact next_kept h
  · exact ite_resKept (next_kept h) (ite_resKept (next_kept (endInv_kept h)) (ite_resKept (next_kept h) (next_kept (foldl_kept
        h fun _ _ hk => noteLaunch_kept (launchRead_kept hk)))))

theorem execInvocationComplete_kept {s inv t} (h : Kept s t) : ResKept s (execInvocationComplete inv t) := by
  unfold execInvocationComplete
  split
  · exact when_kept h (endInv_kept h)
  · exact next_kept h

theorem execInvocationDeadline_kept {s inv t} (h : Kept s t) : ResKept s (execInvocationDeadline inv t) := by
  unfold execInvocationDeadline
  split
  · exact when_kept h (endInv_kept h)
  · exact next_kept h

theorem unitFault_kept {s t i} (h : Kept s t) : Kept s (State.unitFault t i) := by
  unfold State.unitFault
  dsimp only
  split
  · exact tearDown_kept (endInv_kept h)
  · exact tearDown_kept (endInv_kept h)
  · exact endInv_kept h

theorem execPrefetchEntryStart_kept {s inv t} (h : Kept s t) : ResKept s (execPrefetchEntryStart inv t) := by
  unfold execPrefetchEntryStart
  split
  · exact next_kept h
  · split
    · refine ite_resKept (next_kept h) ?_
      split
      · exact ite_resKept (next_kept (unitFault_kept h)) (next_kept (trace_kept (modInv_kept h)))
      · exact next_kept h
    · exact next_kept h

theorem signalGate_kept {s t inv station} (h : Kept s t) : Kept s (State.signalGate t inv station) := by
  unfold State.signalGate
  dsimp only
  exact modFab_kept h

theorem signalEntries_kept {s t : State} {inv n} (h : Kept s t) : Kept s (t.signalEntries inv n) := by
  induction n generalizing t with
  | zero => exact h
  | succ n ih =>
    unfold State.signalEntries
    dsimp only
    split
    · exact h
    · split
      · exact h
      · exact ite_kept (ih (modInv_kept h)) (ite_kept (ih (modInv_kept (ite_kept h (signalGate_kept h)))) h)

theorem prefetchMove_kept {s t c p} (h : Kept s t) : Kept s (State.prefetchMove t c p) := by
  unfold State.prefetchMove
  split
  · split
    · split
      · exact countConv_kept (writeMarked_kept h)
      · exact h
    · exact h
  · exact h

theorem prefetchDone_kept {s t c i entry p} (h : Kept s t) : Kept s (State.prefetchDone t c i entry p) :=
  trace_kept (signalEntries_kept (modInv_kept (prefetchMove_kept h)))

theorem execPrefetchEntryComplete_kept {s inv entry t} (h : Kept s t) : ResKept s (execPrefetchEntryComplete inv entry t) := by
  unfold execPrefetchEntryComplete
  dsimp only
  split
  · exact next_kept h
  · split
    · refine ite_resKept (next_kept h) ?_
      split
      · exact ite_resKept (next_kept (touch_kept h)) (ite_resKept (next_kept (unitFault_kept (touch_kept h))) (next_kept
            (prefetchDone_kept (touch_kept h))))
      · exact next_kept (prefetchDone_kept h)
    · exact next_kept h

theorem startPrefetchListSet_kept {s e list n clear id t} (h : Kept s t) : Kept s (startPrefetchListSet e list n clear id t) :=
    by
  unfold startPrefetchListSet
  dsimp only
  split
  · exact finish_kept (touch_kept h)
  · split
    · exact finish_kept (touch_kept h)
    · exact ite_kept (finish_kept (touch_kept h)) (finish_kept (setCtx_kept (touch_kept h)))

theorem execPrefetchListSet_kept {s e list n clear t} (h : Kept s t) : ResKept s (execPrefetchListSet e list n clear t) :=
  command_kept h (fun _ _ hk => startPrefetchListSet_kept hk)

theorem opParts_kept {s : State} {i : Instr} {chk zero start} (hp : opParts i = some (chk, zero, start)) :
    ∀ id u, Kept s u → Kept s (start id u) := by
  intro id u hu
  unfold opParts at hp
  split at hp
  · cases hp
    exact startNop_kept hu
  · cases hp
    exact startDevQuery_kept hu
  · cases hp
    exact startQpCreate_kept hu
  · cases hp
    exact startQpDestroy_kept hu
  · cases hp
    exact startJournalRead_kept hu
  · cases hp
    exact startBarrier_kept hu
  · cases hp
    exact startCfgLoad_kept hu
  · cases hp
    exact startCfgCheck_kept hu
  · cases hp
    exact startCfgUnload_kept hu
  · cases hp
    exact startCfgActivate_kept hu
  · cases hp
    exact startInvoke_kept hu
  · cases hp
    exact startInvokeList_kept hu
  · cases hp
    exact startPreempt_kept hu
  · cases hp
    exact startSelftest_kept hu
  · cases hp
    exact startRepairCommit_kept hu
  · cases hp
    exact startKatCfg_kept hu
  · cases hp
    exact startScrubCfg_kept hu
  · cases hp
    exact startHealthQuery_kept hu
  · cases hp
    exact startTraceCfg_kept hu
  · cases hp
    exact startDump_kept hu
  · cases hp
    exact startFwLoad_kept hu
  · cases hp
    exact startIdQuery_kept hu
  · cases hp
    exact startAttest_kept hu
  · cases hp
    exact startFlashRecordRead_kept hu
  · cases hp
    exact startJobOpen_kept hu
  · cases hp
    exact startJobClose_kept hu
  · cases hp
    exact startCtxCreate_kept hu
  · cases hp
    exact startCtxDestroy_kept hu
  · cases hp
    exact startCtxPin_kept hu
  · cases hp
    exact startCtxEvict_kept hu
  · cases hp
    exact startCtxRestore_kept hu
  · cases hp
    exact startLinkTrain_kept hu
  · cases hp
    exact startLinkExpectSet_kept hu
  · cases hp
    exact startLinkQuery_kept hu
  · cases hp
    exact startRouteLoad_kept hu
  · cases hp
    exact startPortOwnerSet_kept hu
  · cases hp
    exact startPut_kept hu
  · cases hp
    exact startGet_kept hu
  · cases hp
    exact startColl_kept hu
  · cases hp
    exact startColl_kept hu
  · cases hp
    exact startColl_kept hu
  · cases hp
    exact startMirrorSet_kept hu
  · cases hp
    exact startMemConvert_kept hu
  · cases hp
    exact startPrefetchListSet_kept hu
  · cases hp
    exact startMemAlloc_kept hu
  · cases hp
    exact startMemFree_kept hu
  · cases hp
    exact startMemCopy_kept hu
  · cases hp
    exact startMemFill_kept hu
  · cases hp
    exact startPwrLimits_kept hu
  · cases hp
    exact startPhaseTableSet_kept hu
  · cases hp
    exact startKeepwarmSet_kept hu
  · cases hp
    exact startMgrHeartbeat_kept hu
  · cases hp
    exact startPwrQuery_kept hu
  · cases hp
    exact startSrvStart_kept hu
  · cases hp
    exact startSrvPolicy_kept hu
  · cases hp
    exact startReqAdmit_kept hu
  · cases hp
    exact startReqCancel_kept hu
  · cases hp
    exact startStepAnswer_kept hu
  · cases hp
    exact startSrvStop_kept hu
  · cases hp
    exact startTmrMasterSet_kept hu
  · cases hp
    exact startTmrQuery_kept hu
  · cases hp
    exact startTmrAlarm_kept hu
  · cases hp
    exact startWgtLoad_kept hu
  · cases hp
    exact startWgtReplace_kept hu
  · cases hp
    exact startAdapterLoad_kept hu
  · cases hp
    exact startAdapterRetire_kept hu
  · cases hp
    exact startWgtVerify_kept hu
  · exact nomatch hp

theorem fetchFrom_kept {s t p} (h : Kept s t) : Kept s (State.fetchFrom t p) := by
  unfold State.fetchFrom
  dsimp only
  refine ite_kept (pairError_kept (modQ_kept (ite_kept (touch_kept h) h))) ?_
  split
  · exact takeIn_kept (modPair_kept (modQ_kept (ite_kept (touch_kept h) h)))
  · exact takeIn_kept (modPair_kept (modQ_kept (ite_kept (touch_kept h) h)))

theorem execSqFetch_kept {s t} (h : Kept s t) : ResKept s (execSqFetch t) := by
  unfold execSqFetch
  split
  · exact next_kept (fetchFrom_kept h)
  · exact next_kept h

theorem launchRec_kept {s t : State} {id} (h : Kept s t) : Kept s (t.launchRec id) := by
  unfold State.launchRec
  split
  · refine ite_kept ?_ h
    split
    · exact launch_kept h (opParts_kept ‹_›)
    · exact h
  · exact h

theorem execTickLaunch_kept {s q t} (h : Kept s t) : ResKept s (execTickLaunch q t) := by
  unfold execTickLaunch
  split
  · exact when_kept h (launchRec_kept h)
  · exact next_kept h

theorem katTick_kept {s t} (h : Kept s t) : Kept s (State.katTick t) := ite_kept (modHealth_kept h) h

theorem execTimerTick_kept {s t} (h : Kept s t) : ResKept s (execTimerTick t) :=
  ite_resKept (next_kept h) (ite_resKept (next_kept (modTmr_kept h)) (next_kept (katTick_kept (phaseTick_kept
      (identityTick_kept (exchangeTick_kept (lateBarriers_kept (foldl_kept (tickCount_kept h) fun _ _ hk => launchRec_kept
      hk))))))))

theorem endXfer_kept {s t r x} (h : Kept s t) : Kept s (State.endXfer t r x) := by
  unfold State.endXfer
  split
  · exact endCopy_kept h
  · exact endFill_kept h
  · exact endConvert_kept h
  · exact endEvict_kept h
  · exact endRestore_kept h
  · exact endVerify_kept h

theorem execCommandTransferEnd_kept {s rec t} (h : Kept s t) : ResKept s (execCommandTransferEnd rec t) := by
  unfold execCommandTransferEnd
  dsimp only
  split
  · refine when_kept h ?_
    split
    · exact endXfer_kept (touchAll_kept h)
    · exact touchAll_kept h
  · exact next_kept h

theorem execDynamicAddressAssignment_kept {s addr t} (h : Kept s t) : ResKept s (execDynamicAddressAssignment addr t) :=
  when_kept h (modSide_kept h)

theorem mctpControl_kept {s t command completion data} (h : Kept s t) : Kept s (State.mctpControl t command completion data) :=
  send_kept h

theorem execSetEndpointId_kept {s eid t} (h : Kept s t) : ResKept s (execSetEndpointId eid t) :=
  when_kept h (mctpControl_kept (modSide_kept h))

theorem execGetEndpointId_kept {s t} (h : Kept s t) : ResKept s (execGetEndpointId t) := when_kept h (mctpControl_kept h)

theorem execGetMctpVersionSupport_kept {s t} (h : Kept s t) : ResKept s (execGetMctpVersionSupport t) :=
  when_kept h (mctpControl_kept h)

theorem execGetMessageTypeSupport_kept {s t} (h : Kept s t) : ResKept s (execGetMessageTypeSupport t) :=
  when_kept h (mctpControl_kept h)

theorem vendorReply_kept {s t command completion a b} (h : Kept s t) : Kept s (State.vendorReply t command completion a b) :=
  send_kept h

theorem execSidebandReadRegister_kept {s off t} (h : Kept s t) : ResKept s (execSidebandReadRegister off t) :=
  when_kept h (ite_kept (vendorReply_kept h) (vendorReply_kept h))

theorem execSidebandReadBootStatus_kept {s t} (h : Kept s t) : ResKept s (execSidebandReadBootStatus t) :=
  when_kept h (vendorReply_kept h)

theorem execUnsupportedRequest_kept {s r t} (h : Kept s t) : ResKept s (execUnsupportedRequest r t) := by
  unfold execUnsupportedRequest
  split
  · exact spdmAnswer_kept h (fun _ hk => send_kept hk)
  · exact when_kept h (mctpControl_kept h)
  · exact when_kept h (vendorReply_kept h)
  · exact next_kept h

theorem strayWrite_kept {s t bar off} (h : Kept s t) : Kept s (State.strayWrite t bar off) := event_kept h

theorem take_kept {s t : State} {f : State → Res} (h : Kept s t) (hf : ∀ u, Kept s u → ResKept s (f u)) : Kept s (t.take f) := by
  unfold State.take
  split
  · exact hf t h _ ‹_›
  · exact h

theorem writePower_kept {s t : State} {off v} (h : Kept s t) : Kept s (t.writePower off v) := by
  unfold State.writePower
  split
  · exact writeCap_kept h
  · exact modPwr_kept h
  · exact writeCap_kept h
  · exact modPwr_kept h
  · exact modPwr_kept h
  · exact watchOff_kept (modPwr_kept h)
  · exact writeCap_kept h
  · exact ite_kept (modPwr_kept h) h

theorem writeHealth_kept {s t : State} {off v} (h : Kept s t) : Kept s (t.writeHealth off v) := by
  unfold State.writeHealth
  split
  · exact modHealth_kept h
  · exact modHealth_kept h
  · exact h

theorem writeLinks_kept {s t off v} (h : Kept s t) : Kept s (State.writeLinks t off v) := ite_kept (retrain_kept h) h

theorem writeEvc_kept {s t : State} {off v} (h : Kept s t) : Kept s (t.writeEvc off v) := by
  unfold State.writeEvc
  exact ite_kept (take_kept h fun _ hk => execEvcPendWrite_kept hk) (ite_kept (take_kept h fun _ hk => execEvcMaskWrite_kept hk)
    (ite_kept (take_kept h fun _ hk => execEvcRouteWrite_kept hk) (ite_kept (modEvc_kept h)
    (ite_kept (take_kept h fun _ hk => execEvcRingSizeWrite_kept hk) h))))

theorem writeQueues_kept {s t : State} {off v} (h : Kept s t) : Kept s (t.writeQueues off v) := by
  unfold State.writeQueues
  dsimp only
  split
  · exact ite_kept (modPair_kept h) h
  · exact ite_kept (modPair_kept h) h
  · exact ite_kept (take_kept h fun _ hk => execQp0Enable_kept hk) (take_kept h fun _ hk => execQp0Disable_kept hk)
  · exact h

theorem writeBar0_kept {s t : State} {off v} (h : Kept s t) : Kept s (t.writeBar0 off v) := by
  unfold State.writeBar0
  exact ite_kept (writeQueues_kept h) (ite_kept (writeComponent_kept h) (ite_kept h (ite_kept h (ite_kept (writeEvc_kept h)
    (ite_kept (ite_kept (take_kept h fun _ hk => execTmrHoldoverLimitWrite_kept hk) h)
    (ite_kept (hostWrite_kept h fun _ hk => writePower_kept hk)
    (ite_kept (hostWrite_kept h fun _ hk => ite_kept (writeCoolant_kept hk) hk)
    (ite_kept (hostWrite_kept h fun _ hk => writeHealth_kept hk) (hostWrite_kept h fun _ hk => writeLinks_kept hk)))))))))

theorem writeBar2_kept {s t : State} {off size v} (h : Kept s t) : Kept s (t.writeBar2 off size v) := by
  unfold State.writeBar2
  exact ite_kept (ite_kept (take_kept h fun _ hk => execSqTailDoorbell_kept hk) h)
    (ite_kept (ite_kept (take_kept h fun _ hk => execCqHeadDoorbell_kept hk) h)
    (ite_kept (take_kept h fun _ hk => execMsixVectorUnmask_kept hk) h))

theorem execRegisterWrite_kept {s bar off size value t} (h : Kept s t) : ResKept s (execRegisterWrite bar off size value t) :=
    by
  unfold execRegisterWrite
  dsimp only
  refine ite_resKept (next_kept h) (ite_resKept (next_kept (send_kept h)) (ite_resKept (next_kept h) ?_))
  split
  · exact next_kept (ite_kept (writeBar0_kept h) (strayWrite_kept h))
  · exact next_kept (ite_kept h (ite_kept (writeBar2_kept h) (strayWrite_kept h)))
  · exact next_kept h

theorem clearRc_kept {s t off} (h : Kept s t) : Kept s (State.clearRc t off) :=
  ite_kept (modHealth_kept h) (ite_kept (modPort_kept h) h)

theorem execRegisterReadClear_kept {s at_ t} (h : Kept s t) : ResKept s (execRegisterReadClear at_ t) := by
  unfold execRegisterReadClear
  dsimp only
  refine ite_resKept (next_kept h) (ite_resKept (next_kept (send_kept h)) (ite_resKept (next_kept h) ?_))
  split
  · exact ite_resKept (next_kept (clearRc_kept (send_kept h))) (next_kept (send_kept h))
  · exact next_kept (send_kept h)
  · exact next_kept (send_kept h)

theorem modEngine_kept {s t core eng f} (h : Kept s t) : Kept s (State.modEngine t core eng f) := modCore_kept h

theorem setting_kept {s t core eng op f} (h : Kept s t) : ResKept s (State.setting t core eng op f) := by
  unfold State.setting
  dsimp only
  split
  · exact next_kept (modEngine_kept h)
  · exact next_kept h

theorem execLdb_kept {s core engine t} (h : Kept s t) : ResKept s (execLdb core engine t) := setting_kept h
theorem execStreamLoop_kept {s core engine t} (h : Kept s t) : ResKept s (execStreamLoop core engine t) := setting_kept h
theorem execStride_kept {s core engine t} (h : Kept s t) : ResKept s (execStride core engine t) := setting_kept h
theorem execShape_kept {s core engine t} (h : Kept s t) : ResKept s (execShape core engine t) := setting_kept h
theorem execFmt_kept {s core engine t} (h : Kept s t) : ResKept s (execFmt core engine t) := setting_kept h
theorem execGather_kept {s core engine t} (h : Kept s t) : ResKept s (execGather core engine t) := setting_kept h

theorem execWait_kept {s core engine t} (h : Kept s t) : ResKept s (execWait core engine t) := by
  unfold execWait
  dsimp only
  split
  · exact ite_resKept (next_kept (modEngine_kept (modCore_kept h))) (next_kept h)
  · exact next_kept h

theorem execSignal_kept {s core engine t} (h : Kept s t) : ResKept s (execSignal core engine t) := by
  unfold execSignal
  split
  · exact next_kept (modEngine_kept (modCore_kept h))
  · exact next_kept h

theorem execStreamJump_kept {s core engine t} (h : Kept s t) : ResKept s (execStreamJump core engine t) := by
  unfold execStreamJump
  split
  · exact next_kept (modEngine_kept h)
  · exact next_kept h

theorem execEndp_kept {s core engine t} (h : Kept s t) : ResKept s (execEndp core engine t) := by
  unfold execEndp
  split
  · exact next_kept (modEngine_kept h)
  · exact next_kept h

theorem execRun_kept {s core engine t} (h : Kept s t) : ResKept s (execRun core engine t) := by
  unfold execRun
  dsimp only
  split
  · exact ite_resKept (next_kept (faultCore_kept h)) (next_kept (modEngine_kept h))
  · exact next_kept h

theorem setRun_kept {s t core eng r} (h : Kept s t) : Kept s (State.setRun t core eng r) := modEngine_kept h
theorem endRun_kept {s t core eng} (h : Kept s t) : Kept s (State.endRun t core eng) := modEngine_kept h

theorem advance_kept {s t core eng e r} (h : Kept s t) : Kept s (State.advance t core eng e r) := by
  unfold State.advance
  dsimp only
  split
  · exact setRun_kept (ite_kept (modCore_kept h) h)
  · exact ite_kept (setRun_kept (ite_kept (modCore_kept h) h)) (endRun_kept (ite_kept (modCore_kept h) h))

theorem takeIndex_kept {s t : State} {core q n} (h : Kept s t) :
    Kept s (State.takeIndex core q n t).2 := by
  induction n generalizing t with
  | zero => exact h
  | succ n ih =>
    have hpop : Kept s ((t.popIq core q).modCore core fun x => { x with ipos := x.ipos.set q 0 }) :=
      modCore_kept (popIq_kept h)
    unfold State.takeIndex
    dsimp only
    split
    · exact h
    · split
      · exact h
      · split
        · exact h
        · split
          · exact popIq_kept h
          · split
            · exact ih hpop
            · exact ite_kept (modCore_kept h) hpop

theorem takeValue_kept {s t : State} {core eng g} (h : Kept s t) :
    Kept s (t.takeValue core eng g).2 := by
  unfold State.takeValue
  dsimp only
  split
  · split
    · split
      · exact modCore_kept h
      · exact h
    · exact h
  · exact takeIndex_kept h

theorem countOutside_kept {s t core g v} (h : Kept s t) : Kept s (State.countOutside t core g v) := by
  unfold State.countOutside
  dsimp only
  split
  · exact ite_kept (countCore_kept h) h
  · exact h

theorem takeAll_kept {s t u : State} {core eng gs r p r'} (h : Kept s t)
    (e : State.takeAll core eng gs r t = (p, r', u)) : Kept s u := by
  suffices hall : Kept s (State.takeAll core eng gs r t).2.2 by
    rw [e] at hall
    exact hall
  clear e
  induction gs generalizing t r with
  | nil => exact h
  | cons g gs ih =>
    unfold State.takeAll
    split
    · exact ih h
    · split
      · exact ih (countOutside_kept ((takeValue_kept h).snd ‹_›))
      · exact (takeValue_kept h).snd ‹_›
      · exact (takeValue_kept h).snd ‹_›

theorem feedIq_kept {s t t' q tile} (h : Kept s t) : Kept s (State.feedIq t t' q tile) :=
  ite_kept (countCore_kept h) (modCore_kept h)

theorem iterRead_kept {s t t' eng e r} (h : Kept s t) : Kept s (State.iterRead t t' eng e r) := by
  unfold State.iterRead
  dsimp only
  refine ite_kept (advance_kept h) (ite_kept (setRun_kept h) (ite_kept (advance_kept (feedIq_kept (modCore_kept h))) ?_))
  split
  · exact advance_kept (feedIq_kept (modCore_kept h))
  · exact faultCore_kept h

theorem writeStrip_kept {s t k bit w es poison} (h : Kept s t) : Kept s (State.writeStrip t k bit w es poison) :=
  writeMarked_kept (writeMarked_kept (writeMarked_kept h))

theorem takeOq_kept {s t core q} (h : Kept s t) : Kept s (State.takeOq t core q) := modCore_kept h
theorem coverWords_kept {s t : State} {rs} (h : Kept s t) : Kept s (t.coverWords rs) := h.frame

theorem writeTile_kept {s t u : State} {site eng e r tile vr vc} (h : Kept s t)
    (he : t.writeTile site eng e r tile vr vc = some u) : Kept s u := by
  unfold State.writeTile at he
  dsimp only at he
  split at he
  · exact Option.some.inj he ▸ h
  · split at he
    · refine Option.some.inj he ▸ ?_
      refine foldl_kept (foldl_kept (coverWords_kept h) fun _ _ hk => ?_) fun _ _ hk => writeMarked_kept hk
      exact writeStrip_kept hk
    · exact nomatch he

theorem iterWrite_kept {s t t' eng e r} (h : Kept s t) : Kept s (State.iterWrite t t' eng e r) := by
  unfold State.iterWrite
  dsimp only
  refine ite_kept (advance_kept h) ?_
  split
  · exact setRun_kept h
  · refine ite_kept (faultCore_kept (countCore_kept (takeOq_kept h))) (ite_kept (advance_kept (takeOq_kept h)) ?_)
    split
    · exact advance_kept (writeTile_kept (takeOq_kept h) ‹_›)
    · exact faultCore_kept h

theorem iterCopy_kept {s t t' eng e r} (h : Kept s t) : Kept s (State.iterCopy t t' eng e r) := by
  unfold State.iterCopy
  dsimp only
  refine ite_kept (advance_kept h) ?_
  split
  · exact advance_kept (copyRange_kept h)
  · exact faultCore_kept h

theorem iterTouch_kept {s t core eng r} (h : Kept s t) : Kept s (State.iterTouch t core eng r) := by
  unfold State.iterTouch
  split
  · exact touchAll_kept h
  · exact h

theorem closeRun_kept {s t t' eng r} (h : Kept s t) : Kept s (State.closeRun t t' eng r) :=
  ite_kept (endRun_kept (feedIq_kept h)) h

theorem cutRun_kept {s t core eng r} (h : Kept s t) : Kept s (State.cutRun t core eng r) :=
  ite_kept (setRun_kept h) (endRun_kept h)

theorem execRunIteration_kept {s x0 x1 t} (h : Kept s t) : ResKept s (execRunIteration x0 x1 t) := by
  unfold execRunIteration
  dsimp only
  split
  · exact next_kept h
  · split
    · exact next_kept h
    · refine ite_resKept (next_kept (closeRun_kept h)) (ite_resKept (next_kept (endRun_kept (takeOq_kept h))) (ite_resKept (next_kept h) ?_))
      split
      · exact next_kept (setRun_kept (((takeAll_kept (ite_kept (modCore_kept h) h)) ‹_›)))
      · exact next_kept (cutRun_kept (((takeAll_kept (ite_kept (modCore_kept h) h)) ‹_›)))
      · split
        · refine next_kept ?_
          split
          · exact iterRead_kept (iterTouch_kept (((takeAll_kept (ite_kept (modCore_kept h) h)) ‹_›)))
          · exact iterWrite_kept (iterTouch_kept (((takeAll_kept (ite_kept (modCore_kept h) h)) ‹_›)))
          · exact iterCopy_kept (iterTouch_kept (((takeAll_kept (ite_kept (modCore_kept h) h)) ‹_›)))
        · exact next_kept (iterTouch_kept (((takeAll_kept (ite_kept (modCore_kept h) h)) ‹_›)))

/-- No command of the table touches the waiting commands, and each keeps the two forms. -/
theorem exec_kept {s t : State} (h : Kept s t) : ∀ i, ResKept s (exec i t)
  | .nop .. => execNop_kept h
  | .devQuery .. => execDevQuery_kept h
  | .qpCreate .. => execQpCreate_kept h
  | .qpDestroy .. => execQpDestroy_kept h
  | .fwLoad .. => execFwLoad_kept h
  | .journalRead .. => execJournalRead_kept h
  | .jobOpen .. => execJobOpen_kept h
  | .jobClose .. => execJobClose_kept h
  | .ctxCreate .. => execCtxCreate_kept h
  | .ctxDestroy .. => execCtxDestroy_kept h
  | .ctxEvict .. => execCtxEvict_kept h
  | .ctxRestore .. => execCtxRestore_kept h
  | .ctxPin .. => execCtxPin_kept h
  | .memAlloc .. => execMemAlloc_kept h
  | .memFree .. => execMemFree_kept h
  | .memCopy .. => execMemCopy_kept h
  | .memFill .. => execMemFill_kept h
  | .memConvert .. => execMemConvert_kept h
  | .prefetchListSet .. => execPrefetchListSet_kept h
  | .wgtLoad .. => execWgtLoad_kept h
  | .wgtReplace .. => execWgtReplace_kept h
  | .adapterLoad .. => execAdapterLoad_kept h
  | .adapterRetire .. => execAdapterRetire_kept h
  | .wgtVerify .. => execWgtVerify_kept h
  | .cfgLoad .. => execCfgLoad_kept h
  | .cfgActivate .. => execCfgActivate_kept h
  | .cfgCheck .. => execCfgCheck_kept h
  | .cfgUnload .. => execCfgUnload_kept h
  | .invoke .. => execInvoke_kept h
  | .invokeList .. => execInvokeList_kept h
  | .preempt .. => execPreempt_kept h
  | .barrier .. => execBarrier_kept h
  | .srvStart .. => execSrvStart_kept h
  | .reqAdmit .. => execReqAdmit_kept h
  | .reqCancel .. => execReqCancel_kept h
  | .stepAnswer .. => execStepAnswer_kept h
  | .srvPolicy .. => execSrvPolicy_kept h
  | .srvStop .. => execSrvStop_kept h
  | .linkTrain .. => execLinkTrain_kept h
  | .linkExpectSet .. => execLinkExpectSet_kept h
  | .routeLoad .. => execRouteLoad_kept h
  | .portOwnerSet .. => execPortOwnerSet_kept h
  | .linkQuery .. => execLinkQuery_kept h
  | .put .. => execPut_kept h
  | .get .. => execGet_kept h
  | .exchange .. => execExchange_kept h
  | .reduceScatter .. => execReduceScatter_kept h
  | .allGather .. => execAllGather_kept h
  | .mirrorSet .. => execMirrorSet_kept h
  | .pwrLimits .. => execPwrLimits_kept h
  | .phaseTableSet .. => execPhaseTableSet_kept h
  | .keepwarmSet .. => execKeepwarmSet_kept h
  | .mgrHeartbeat .. => execMgrHeartbeat_kept h
  | .pwrQuery .. => execPwrQuery_kept h
  | .selftest .. => execSelftest_kept h
  | .healthQuery .. => execHealthQuery_kept h
  | .repairCommit .. => execRepairCommit_kept h
  | .katCfg .. => execKatCfg_kept h
  | .scrubCfg .. => execScrubCfg_kept h
  | .idQuery .. => execIdQuery_kept h
  | .attest .. => execAttest_kept h
  | .flashRecordRead .. => execFlashRecordRead_kept h
  | .tmrMasterSet .. => execTmrMasterSet_kept h
  | .tmrQuery .. => execTmrQuery_kept h
  | .tmrAlarm .. => execTmrAlarm_kept h
  | .traceCfg .. => execTraceCfg_kept h
  | .dump .. => execDump_kept h
  | .sqFetch => execSqFetch_kept h
  | .sqTailDoorbell .. => execSqTailDoorbell_kept h
  | .cqHeadDoorbell .. => execCqHeadDoorbell_kept h
  | .qp0Enable .. => execQp0Enable_kept h
  | .qp0Disable .. => execQp0Disable_kept h
  | .evcPendWrite .. => execEvcPendWrite_kept h
  | .evcMaskWrite .. => execEvcMaskWrite_kept h
  | .evcRouteWrite .. => execEvcRouteWrite_kept h
  | .evcRingSizeWrite .. => execEvcRingSizeWrite_kept h
  | .tmrHoldoverLimitWrite .. => execTmrHoldoverLimitWrite_kept h
  | .powerCapWrite .. => execPowerCapWrite_kept h
  | .flowKWrite .. => execFlowKWrite_kept h
  | .retrain .. => execRetrain_kept h
  | .registerWrite .. => execRegisterWrite_kept h
  | .registerReadClear .. => execRegisterReadClear_kept h
  | .msixVectorUnmask .. => execMsixVectorUnmask_kept h
  | .hdmDecoderCommit .. => execHdmDecoderCommit_kept h
  | .hostMemRead .. => execHostMemRead_kept h
  | .hostMemWrite .. => execHostMemWrite_kept h
  | .getVersion .. => execGetVersion_kept h
  | .getCapabilities .. => execGetCapabilities_kept h
  | .negotiateAlgorithms .. => execNegotiateAlgorithms_kept h
  | .getDigests .. => execGetDigests_kept h
  | .getCertificate .. => execGetCertificate_kept h
  | .challenge via slot nonce => execChallenge_kept (nonce := nonce) h
  | .getMeasurements via slot index nonce => execGetMeasurements_kept (nonce := nonce) h
  | .setEndpointId .. => execSetEndpointId_kept h
  | .getEndpointId => execGetEndpointId_kept h
  | .getMctpVersionSupport => execGetMctpVersionSupport_kept h
  | .getMessageTypeSupport => execGetMessageTypeSupport_kept h
  | .sidebandReadRegister .. => execSidebandReadRegister_kept h
  | .sidebandReadBootStatus => execSidebandReadBootStatus_kept h
  | .bypass => execBypass_kept h
  | .idcode => execIdcode_kept h
  | .samplePreload => execSamplePreload_kept h
  | .extest => execExtest_kept h
  | .extestPulse => execExtestPulse_kept h
  | .extestTrain => execExtestTrain_kept h
  | .clamp => execClamp_kept h
  | .highz => execHighz_kept h
  | .pwrEnRise => execPwrEnRise_kept h
  | .pwrEnFall => execPwrEnFall_kept h
  | .resetNAssert => execResetNAssert_kept h
  | .resetNRelease => execResetNRelease_kept h
  | .bootStageComplete .. => execBootStageComplete_kept h
  | .firmwareStart .. => execFirmwareStart_kept h
  | .ddrZeroFill => execDdrZeroFill_kept h
  | .vinSample .. => execVinSample_kept h
  | .droopTrip .. => execDroopTrip_kept h
  | .peakLimiterAdjust => execPeakLimiterAdjust_kept h
  | .sustainedLoopRun .. => execSustainedLoopRun_kept h
  | .capFallDutyStep .. => execCapFallDutyStep_kept h
  | .opRailSettled => execOpRailSettled_kept h
  | .keepwarmBeat .. => execKeepwarmBeat_kept h
  | .mgrTimeoutLapse => execMgrTimeoutLapse_kept h
  | .thermalSample .. => execThermalSample_kept h
  | .thermalThrottleStep => execThermalThrottleStep_kept h
  | .flowPulse => execFlowPulse_kept h
  | .flowCheck .. => execFlowCheck_kept h
  | .simmerExit => execSimmerExit_kept h
  | .timerTick => execTimerTick_kept h
  | .tickLaunch .. => execTickLaunch_kept h
  | .timeMarkerSend => execTimeMarkerSend_kept h
  | .timeMarker .. => execTimeMarker_kept h
  | .markerMiss => execMarkerMiss_kept h
  | .holdoverEntry => execHoldoverEntry_kept h
  | .holdoverLimitExpiry => execHoldoverLimitExpiry_kept h
  | .markEdge => execMarkEdge_kept h
  | .trefLost => execTrefLost_kept h
  | .trefRestored => execTrefRestored_kept h
  | .tmrMasterSetTimeout => execTmrMasterSetTimeout_kept h
  | .alarmFire .. => execAlarmFire_kept h
  | .invocationLaunch .. => execInvocationLaunch_kept h
  | .invocationComplete .. => execInvocationComplete_kept h
  | .invocationDeadline .. => execInvocationDeadline_kept h
  | .mma .. => execMma_kept h
  | .mmaBt .. => execMmaBt_kept h
  | .vec1 .. => execVec1_kept h
  | .vec2 .. => execVec2_kept h
  | .vecacc .. => execVecacc_kept h
  | .red .. => execRed_kept h
  | .cvt .. => execCvt_kept h
  | .emit .. => execEmit_kept h
  | .move .. => execMove_kept h
  | .drop .. => execDrop_kept h
  | .oneos .. => execOneos_kept h
  | .jump .. => execJump_kept h
  | .ldc .. => execLdc_kept h
  | .loop .. => execLoop_kept h
  | .ticket .. => execTicket_kept h
  | .ticketRequest .. => execTicketRequest_kept h
  | .ticketReply .. => execTicketReply_kept h
  | .phase .. => execPhase_kept h
  | .eosout .. => execEosout_kept h
  | .endStep .. => execEndStep_kept h
  | .ldb .. => execLdb_kept h
  | .streamLoop .. => execStreamLoop_kept h
  | .stride .. => execStride_kept h
  | .shape .. => execShape_kept h
  | .fmt .. => execFmt_kept h
  | .gather .. => execGather_kept h
  | .wait .. => execWait_kept h
  | .signal .. => execSignal_kept h
  | .run .. => execRun_kept h
  | .runIteration .. => execRunIteration_kept h
  | .streamJump .. => execStreamJump_kept h
  | .endp .. => execEndp_kept h
  | .tileSend .. => execTileSend_kept h
  | .tileArrival .. => execTileArrival_kept h
  | .creditReturn .. => execCreditReturn_kept h
  | .spillEntry .. => execSpillEntry_kept h
  | .spillOut .. => execSpillOut_kept h
  | .spillReturn .. => execSpillReturn_kept h
  | .servicePacketReceive .. => execServicePacketReceive_kept h
  | .servicePacketRepeat .. => execServicePacketRepeat_kept h
  | .treeRebuildAsChain .. => execTreeRebuildAsChain_kept h
  | .wavefrontSourceSwitch .. => execWavefrontSourceSwitch_kept h
  | .coreSwitch .. => execCoreSwitch_kept h
  | .prefetchEntryStart .. => execPrefetchEntryStart_kept h
  | .prefetchEntryComplete .. => execPrefetchEntryComplete_kept h
  | .shardReadyPoll .. => execShardReadyPoll_kept h
  | .shardStart .. => execShardStart_kept h
  | .shardComplete .. => execShardComplete_kept h
  | .weightDeadline .. => execWeightDeadline_kept h
  | .layerOverwriteStart .. => execLayerOverwriteStart_kept h
  | .layerOverwriteDone .. => execLayerOverwriteDone_kept h
  | .stepCompose .. => execStepCompose_kept h
  | .stepEnd .. => execStepEnd_kept h
  | .requestDeadline .. => execRequestDeadline_kept h
  | .evictionOrRestoreEnd .. => execEvictionOrRestoreEnd_kept h
  | .routingPointStart .. => execRoutingPointStart_kept h
  | .routeWaitExpiry .. => execRouteWaitExpiry_kept h
  | .katRound .. => execKatRound_kept h
  | .lbistCoreRun .. => execLbistCoreRun_kept h
  | .sramScrub .. => execSramScrub_kept h
  | .hbmPatrolScrub .. => execHbmPatrolScrub_kept h
  | .hbmRowRepair .. => execHbmRowRepair_kept h
  | .ddrPatrolScrub .. => execDdrPatrolScrub_kept h
  | .coreRemap .. => execCoreRemap_kept h
  | .lockstepMismatch .. => execLockstepMismatch_kept h
  | .wearMeasure .. => execWearMeasure_kept h
  | .wearLogWrite => execWearLogWrite_kept h
  | .laneFailure .. => execLaneFailure_kept h
  | .farEndIdle .. => execFarEndIdle_kept h
  | .linkTrainingComplete .. => execLinkTrainingComplete_kept h
  | .identityTimeout .. => execIdentityTimeout_kept h
  | .identity .. => execIdentity_kept h
  | .acknowledgement .. => execAcknowledgement_kept h
  | .credit .. => execCredit_kept h
  | .timeProbe .. => execTimeProbe_kept h
  | .ackTimer .. => execAckTimer_kept h
  | .creditFrameTimer .. => execCreditFrameTimer_kept h
  | .packetReceive .. => execPacketReceive_kept h
  | .transitForward => execTransitForward_kept h
  | .writeData => execWriteData_kept h
  | .readRequest => execReadRequest_kept h
  | .readData => execReadData_kept h
  | .collectiveSlice => execCollectiveSlice_kept h
  | .mirrorData => execMirrorData_kept h
  | .openRange => execOpenRange_kept h
  | .openReply => execOpenReply_kept h
  | .endToEndAcknowledgement => execEndToEndAcknowledgement_kept h
  | .unreachable => execUnreachable_kept h
  | .transferRetry .. => execTransferRetry_kept h
  | .transferDeadline .. => execTransferDeadline_kept h
  | .vcStall .. => execVcStall_kept h
  | .heldPacketDiscard .. => execHeldPacketDiscard_kept h
  | .collectiveDeadline .. => execCollectiveDeadline_kept h
  | .vinRise .. => execVinRise_kept h
  | .pwrGoodRise => execPwrGoodRise_kept h
  | .vinRemoval => execVinRemoval_kept h
  | .tripLatchRelease => execTripLatchRelease_kept h
  | .adapterRoomDeadline .. => execAdapterRoomDeadline_kept h
  | .commandTransferEnd .. => execCommandTransferEnd_kept h
  | .selftestComplete .. => execSelftestComplete_kept h
  | .doeDiscovery .. => execDoeDiscovery_kept h
  | .unsupportedRequest .. => execUnsupportedRequest_kept h
  | .dynamicAddressAssignment .. => execDynamicAddressAssignment_kept h

/-- A step keeps the forms and leaves the queue without its front command. -/
theorem step_kept {s t : State} {c : Instr} {rest : List Instr} (hq : s.pending = c :: rest) (h : step s = .next t) :
    Kept { s with pending := rest } t := by
  rw [step, hq] at h
  exact exec_kept (.refl _) c t h

theorem step_idle {s t : State} (hq : s.pending = []) (h : step s = .next t) : t = s := by
  rw [step, hq] at h
  exact (Host.Outcome.next.inj h).symm

/-- A form that does not speak of the waiting commands and that every operation keeps is kept by every step. -/
theorem step_keeps {s t : State} {P : State → Prop} (hP : ∀ {u v : State}, Kept u v → P u → P v)
    (hrest : ∀ rest, P s → P { s with pending := rest }) (hs : P s) (h : step s = .next t) : P t := by
  cases hq : s.pending with
  | nil => exact step_idle hq h ▸ hs
  | cons c rest => exact hP (step_kept hq h) (hrest rest hs)

/-- Settles O3: every operation of the machine keeps memory's form, so every command does. -/
theorem stepKeepsMemoryForm : Obligations.StepKeepsMemoryForm := fun _ _ hs h =>
  step_keeps (P := fun u => u.mem.wf = true) (fun k => k.mem) (fun _ hu => hu) hs h

/-- Settles O4: the pending and mask words are only written through `evcSet`, which masks them. -/
theorem stepKeepsEventForm : Obligations.StepKeepsEventForm := fun _ _ hs h =>
  step_keeps (P := fun u => u.evc.wf = true) (fun k => k.evc) (fun _ hu => hu) hs h

/-- Settles O5: no command adds to the rest of the queue or removes from it. -/
theorem stepTakesOne : Obligations.StepTakesOne := fun _ _ _ _ hq h => (step_kept hq h).pending

end Sys2Proof.Machine
end

section
/-! PROOFS. The front command, the reset state, and the laws of writing and copying memory (O1, O2, O6, O17). -/

set_option Elab.async false

namespace Sys2Proof.Machine

/-- Settles O1: `step` by the queue's two shapes. -/
theorem stepRunsFront : Obligations.StepRunsFront :=
  ⟨fun s _ _ hq => by rw [step, hq], fun s hq => by rw [step, hq]⟩

/-- Settles O2: the fields of `State.reset`, evaluated. -/
theorem resetState : Obligations.ResetState := by
  unfold Obligations.ResetState
  decide

theorem mem_clearPoison {ps : List Nat} {k n w : Nat} :
    w ∈ clearPoison ps k n ↔ w ∈ ps ∧ ¬(k ≤ w ∧ w + eccSize w ≤ k + n) := by
  simp only [clearPoison, List.mem_filter, Bool.not_eq_true', Bool.and_eq_false_iff, decide_eq_false_iff_not]
  tauto

/-- A write that reaches memory reads back. -/
theorem writeBytes_read_all {s : State} (h : s.mem.wf = true) (hf : s.grid.stackFailed = []) (hd : s.mem.hostDead = [])
    (k : Nat) (bs : List Byte) {i : Nat} (hi : i < bs.length) : (s.writeBytes k bs).readByte (k + i) = bs.getD i 0 := by
  rw [writeBytes_read h k bs hi, reaching_all hf hd]

/-- Settles O6: by the laws of memory, for the bytes of the range, those outside it and the poison marks. -/
theorem writeThenRead : Obligations.WriteThenRead := fun _ k bs h hf hd =>
  ⟨fun _ hi => writeBytes_read_all h hf hd k bs hi, fun _ ha => writeBytes_other h ha, fun _ => mem_clearPoison⟩

theorem length_readBytes (s : State) (k n : Nat) : (s.readBytes k n).length = n := by simp [State.readBytes]

theorem getD_readBytes (s : State) (k : Nat) {n i : Nat} (hi : i < n) : (s.readBytes k n).getD i 0 = s.readByte (k + i) := by
  simp [State.readBytes, hi]

theorem mem_poisonOffsets {s : State} {k n i : Nat} : i ∈ s.poisonOffsets k n ↔
    s.poisonedIn k n = true ∧ i < n ∧ s.poisonedAt (k + i) = true := by
  unfold State.poisonOffsets
  split <;> simp_all

theorem eccSize_pos (k : Nat) : 0 < eccSize k := by
  unfold eccSize
  split <;> decide

theorem eccSize_dvd (k : Nat) : eccSize k ∣ 2 ^ 48 := by
  unfold eccSize
  split <;> decide

/-- A word lies in the memory of its bytes. -/
theorem spaceOf_eccBase (k : Nat) : spaceOf (eccBase k) = spaceOf k := by
  obtain ⟨c, hc⟩ := eccSize_dvd k
  have hb : eccBase k = eccSize k * (k / eccSize k) := by
    have := Nat.div_add_mod k (eccSize k)
    unfold eccBase; omega
  rw [spaceOf, spaceOf, hb, hc, ← Nat.div_div_eq_div_mul, ← Nat.div_div_eq_div_mul, Nat.mul_div_cancel_left _ (eccSize_pos k)]

theorem eccSize_eccBase (k : Nat) : eccSize (eccBase k) = eccSize k := by
  rw [eccSize, spaceOf_eccBase, eccSize]

theorem lt_eccBase_add (k : Nat) : k < eccBase k + eccSize k := by
  have := Nat.mod_lt k (eccSize_pos k)
  have := Nat.mod_le k (eccSize k)
  unfold eccBase
  omega

/-- A byte whose word is poisoned makes every range over it poisoned. -/
theorem poisonedIn_of_poisonedAt {s : State} {k n i : Nat} (hi : i < n) (h : s.mem.poisonedAt (k + i) = true) :
    s.poisonedIn k n = true := by
  have hword : eccBase (k + i) ∈ s.mem.poisonWords := by simpa [Memory.poisonedAt] using h
  have hlt : k + i < eccBase (k + i) + eccSize (eccBase (k + i)) := by
    rw [eccSize_eccBase]; exact lt_eccBase_add _
  have hle : eccBase (k + i) ≤ k + i := Nat.sub_le _ _
  simp only [State.poisonedIn, Memory.poisonedIn, Bool.or_eq_true, List.any_eq_true, Bool.and_eq_true, decide_eq_true_eq]
  exact .inl ⟨_, hword, by omega, by omega⟩

theorem poisonedAt_of_poison {m : Memory} {k : Nat} (h : eccBase k ∈ m.poison) : m.poisonedAt k = true := by
  simp [Memory.poisonedAt, Memory.poisonWords, h]

/-- Settles O17: the bytes by the laws of a write, the poison because every poisoned source byte marks its word. -/
theorem copyMovesBytes : Obligations.CopyMovesBytes := by
  intro s src dst len h hf hd
  refine ⟨fun i hi => ?_, fun a ha => ?_, fun i hi h3 hp => ?_⟩
  · rw [State.copyRange, writeMarked_readByte, writeBytes_read_all h hf hd dst _ (by rwa [length_readBytes]), getD_readBytes s src hi]
  · rw [State.copyRange, writeMarked_readByte, writeBytes_other h (by rwa [length_readBytes])]
  · have hoff : i ∈ s.poisonOffsets src len :=
      mem_poisonOffsets.2 ⟨poisonedIn_of_poisonedAt hi hp, hi, by simp [State.poisonedAt, hp]⟩
    exact poisonedAt_of_poison ((markPoison_mem _ _ _).2 (.inr ⟨dst + i, List.mem_map_of_mem hoff, h3, rfl⟩))

end Sys2Proof.Machine
end

section
/-! PROOFS. Event records, the epoch of a load and the region of a matrix step (O13, O34, O23). -/

set_option Elab.async false

namespace Sys2Proof.Machine

theorem edge_evc (s : State) (src : Nat) : (s.edge src).evc =
    if src / 64 = 0 then { s.evc with pend0 := (s.evc.pend0 ||| (1#64 <<< (src % 64))) &&& evcValid 0, mask0 := s.evc.mask0 &&& evcValid 0 }
    else { s.evc with pend1 := (s.evc.pend1 ||| (1#64 <<< (src % 64))) &&& evcValid 1, mask1 := s.evc.mask1 &&& evcValid 1 } := by
  rw [State.edge, evcSet_evc]
  by_cases h : src / 64 = 0 <;> simp [h, Evc.pend, Evc.mask, evcValid]

@[simp] theorem edge_seqs (s : State) (src : Nat) : (s.edge src).evc.seqs = s.evc.seqs := by
  rw [edge_evc]
  split <;> rfl

@[simp] theorem edge_mem (s : State) (src : Nat) : (s.edge src).mem = s.mem := by simp [State.edge]

theorem event_seqs (s : State) (src kind : Nat) (pl : List Byte) :
    (s.event src kind pl).evc.seqs = s.evc.seqs.set src (s.evc.nextSeq src) := by
  unfold State.event
  dsimp only
  split <;> split <;> simp

/-- The state in which an event's record is written: its number is used up and SEEN holds its kind. -/
def State.eventCounted (s : State) (src kind : Nat) (pl : List Byte) : State :=
  { s with
    evc := { s.evc with seqs := s.evc.seqs.set src (s.evc.nextSeq src) }
    health := { s.health with seen := match seenBit kind pl with
      | some b => s.health.seen ||| 2 ^ b
      | none => s.health.seen } }

/-- While rings are disabled an event only uses up its number and is seen. -/
theorem event_ringless {s : State} {src kind : Nat} {pl : List Byte} (h : s.evc.ringN = 0) :
    s.event src kind pl = s.eventCounted src kind pl := by
  have hu : s.slotTried (s.evc.slot src (s.evc.nextSeq src)) = false := by simp [State.slotTried, h]
  have ho : s.slotOk (s.evc.slot src (s.evc.nextSeq src)) = false := by simp [State.slotOk, hu]
  simp only [State.event, hu, ho, Bool.false_eq_true, if_false]
  rfl

/-- A record whose slot can be written is written there and raises its source. -/
theorem event_slotOk {s : State} {src kind : Nat} {pl : List Byte} (h : s.slotOk (s.evc.slot src (s.evc.nextSeq src)) = true) :
    s.event src kind pl = ((s.eventCounted src kind pl).writeBytes (keyOf (s.evc.slot src (s.evc.nextSeq src)))
      (eventBytes src kind (s.evc.nextSeq src) s.now pl)).edge src := by
  have ht : s.slotTried (s.evc.slot src (s.evc.nextSeq src)) = true := by
    rw [State.slotOk, Bool.and_eq_true] at h
    exact h.1
  simp only [State.event, ht, h, if_true]
  rfl

/-- Settles O13: by the two ways of an event, with rings and without. -/
theorem eventRecords : Obligations.EventRecords := by
  intro s src kind pl hsrc _ _ _
  refine ⟨event_seqs s src kind pl, fun hn => ?_, fun hok => ?_⟩
  · rw [event_ringless hn]
    exact ⟨rfl, rfl, rfl, rfl⟩
  · rw [event_slotOk hok, edge_evc, edge_mem]
    refine ⟨rfl, ?_⟩
    by_cases hlow : src < 64
    · have hw : src / 64 = 0 := by omega
      have hb : src % 64 = src := by omega
      rw [if_pos hw, if_pos hlow, if_pos hlow, hb]
      exact ⟨BitVec.and_allOnes, rfl⟩
    · have hw : src / 64 ≠ 0 := by omega
      have hb : src % 64 = src - 64 := by omega
      rw [if_neg hw, if_neg hlow, if_neg hlow, hb]
      exact ⟨rfl, rfl⟩

/-! ### The epoch of a load -/

@[simp] theorem choose_ctxs (s : State) (l : List Nat) : (s.choose l).2.ctxs = s.ctxs := by
  unfold State.choose
  split <;> rfl

@[simp] theorem scribble_ctxs (s : State) (k n : Nat) : (s.scribble k n).ctxs = s.ctxs := rfl

@[simp] theorem addService_ctxs (s : State) (cls x : Nat) (r : List Element) (l : SvcLoad) :
    (s.addService cls r x l).ctxs = s.ctxs := by
  unfold State.addService
  split <;> rfl

@[simp] theorem managerPacket_ctxs (s : State) (cls x : Nat) : (s.managerPacket cls x).ctxs = s.ctxs := by
  unfold State.managerPacket
  exact addService_ctxs _ _ _ _ _

/-- What every step of a fold keeps, the fold keeps. -/
theorem foldl_keeps {α β σ : Type} (f : σ → β) {g : σ → α → σ} (h : ∀ s a, f (g s a) = f s) (l : List α) (s : σ) :
    f (l.foldl g s) = f s := by
  induction l generalizing s with
  | nil => rfl
  | cons a l ih => rw [List.foldl_cons, ih, h]

theorem reserve_ctxs {s t : State} {j : Job} {ctx h k g n : Nat} (e : s.reserve j ctx h k g n = some t) : t.ctxs = s.ctxs := by
  obtain ⟨_, _, rfl⟩ := Option.map_eq_some_iff.1 e
  rfl

theorem reserveCfg_ctxs {s t : State} {j : Job} {ctx h : Nat} {im : Image} (e : s.reserveCfg j ctx h im = some t) :
    t.ctxs = s.ctxs := by
  have key : ∀ (l : List Nat) (acc : Option State), (∀ u, acc = some u → u.ctxs = s.ctxs) → ∀ u,
      l.foldl (fun acc g =>
        let n := (im.cores.filter fun c => s.grid.groupOf c == g).length
        if n = 0 then acc
        else (acc.bind fun t => t.reserve j ctx h 1 g (65536 * n)).bind fun t => t.reserve j ctx h 0 g (4096 * n)) acc = some u →
      u.ctxs = s.ctxs := by
    intro l
    induction l with
    | nil => exact fun _ hacc u hu => hacc u hu
    | cons g l ih =>
      refine fun acc hacc => ih _ fun u hu => ?_
      dsimp only at hu
      split at hu
      · exact hacc u hu
      · obtain ⟨v, hv, hu⟩ := Option.bind_eq_some_iff.1 hu
        obtain ⟨w, hw, hv⟩ := Option.bind_eq_some_iff.1 hv
        rw [reserve_ctxs hu, reserve_ctxs hv, hacc w hw]
  exact key _ _ (fun u hu => by rw [← Option.some.inj hu]) t e

/-- The configuration a load appends. -/
def loadedCfg (c : Ctx) (im : Image) (holds : List SlotHold) (chains : List Nat) (h : Nat) : Cfg :=
  ⟨h, nextEpoch c.epoch, im, [], holds, chains, [], [], false⟩

/-- A load leaves the contexts, or appends its configuration to its context and sets the epoch. -/
theorem loadCfg_ctxs (s : State) (c : Ctx) (im : Image) (hs : List SlotHold) (ch : List Nat) (id : Nat) :
    (s.loadCfg c im hs ch id).ctxs = s.ctxs ∨ ∃ h, (s.loadCfg c im hs ch id).ctxs = s.ctxs.map fun d =>
      if d.id == c.id then { d with epoch := nextEpoch c.epoch, cfgs := d.cfgs ++ [loadedCfg c im hs ch h] } else d := by
  unfold State.loadCfg
  dsimp only
  have hc := choose_ctxs s c.freeHandles
  generalize s.choose c.freeHandles = p at hc ⊢
  obtain ⟨h?, s1⟩ := p
  split
  next h s1' j heq _ =>
    obtain ⟨rfl, rfl⟩ := Prod.mk.inj heq
    split
    next s2 hres =>
      refine .inr ⟨h, ?_⟩
      rw [finish_ctxs]
      simp only [State.modCtx]
      rw [foldl_keeps State.ctxs (fun t x => managerPacket_ctxs t 4 x), foldl_keeps State.ctxs (fun t (r : Reserve) => scribble_ctxs t r.base r.len),
        reserveCfg_ctxs hres, hc]
      rfl
    next => exact .inl (by rw [finish_ctxs, hc])
  next s1' heq _ =>
    obtain ⟨-, rfl⟩ := Prod.mk.inj heq
    exact .inl (by rw [finish_ctxs, hc])

theorem nextEpoch_pos (e : Nat) : nextEpoch e ≠ 0 := by
  unfold nextEpoch
  dsimp only
  split <;> omega

theorem nextEpoch_lt (e : Nat) : nextEpoch e < 65536 := by
  unfold nextEpoch
  dsimp only
  split <;> omega

/-- Settles O34: the one configuration a load adds carries `nextEpoch`, which is its context's new epoch. -/
theorem epochNeverZero : Obligations.EpochNeverZero := by
  intro s c im hs ch id hu d hd hid g hg hnew
  obtain heq | ⟨h, heq⟩ := loadCfg_ctxs s c im hs ch id
  · exact absurd (hu d (heq ▸ hd) hid ▸ hg) hnew
  · rw [heq, List.mem_map] at hd
    obtain ⟨d0, hd0, rfl⟩ := hd
    by_cases h0 : d0.id = c.id
    · obtain rfl := hu d0 hd0 h0
      simp only [beq_self_eq_true, if_true, List.mem_append, List.mem_singleton] at hg ⊢
      obtain rfl := hg.resolve_left hnew
      exact ⟨nextEpoch_pos _, nextEpoch_lt _, rfl, rfl⟩
    · rw [if_neg (by simpa using h0)] at hid
      exact absurd hid h0

/-! ### The region of a matrix step -/

/-- Element (i, j) of a matrix step. -/
theorem mmaAcc_at (bt clr : Bool) (passes : Nat) (a b : Tile) (acc : Acc) {i j : Nat} (hi : i < 32) (hj : j < 32) :
    (mmaAcc bt clr passes a b acc).1.at i j =
      if i < (mmaAcc bt clr passes a b acc).1.vrows ∧ j < (mmaAcc bt clr passes a b acc).1.vcols then
        (mmaElem clr (acc.at i j) (mmaProducts bt passes a b i j)).1
      else if clr then 0 else acc.at i j := by
  have hix : 32 * i + j < 1024 := by omega
  have hrow : (32 * i + j) / 32 = i := by omega
  have hcol : (32 * i + j) % 32 = j := by omega
  simp only [mmaAcc, Acc.at, List.map_map, List.getD_eq_getElem?_getD, List.getElem?_map, List.getElem?_range hix,
    Option.map_some, Option.getD_some, Function.comp, hrow, hcol, Bool.and_eq_true, decide_eq_true_eq]
  exact apply_ite Prod.fst _ _ _

/-- Settles O23: by the element's two cases, and that no product leaves the old value. -/
theorem matrixRegion : Obligations.MatrixRegion := by
  intro bt clr passes a b acc i j hi hj
  refine ⟨rfl, rfl, fun hout => ?_, fun hk => ?_⟩
  · rw [mmaAcc_at bt clr passes a b acc hi hj, if_neg hout]
  · have hp : mmaProducts bt passes a b i j = [] := by simp only [mmaProducts, hk]; rfl
    have hc : chunkRound [] = none := rfl
    rw [mmaAcc_at bt clr passes a b acc hi hj, hp]
    cases clr <;> simp [mmaElem, hc]

end Sys2Proof.Machine
end

section
/-! PROOFS. The frame of completion, and what arrives in a queue (O8, O9). -/

set_option Elab.async false

namespace Sys2Proof.Machine

theorem QPair.cqDepth_pos (p : QPair) : 0 < p.cqDepth := Nat.two_pow_pos _

theorem pair?_modPair (s : State) (q q' : Nat) (f : QPair → QPair) (hid : ∀ p, (f p).id = p.id) :
    (s.modPair q f).pair? q' = (s.pair? q').map fun p => if p.id == q then f p else p := by
  simp only [State.pair?, State.modPair, List.find?_map]
  congr 2
  funext p
  simp only [Function.comp]
  split <;> simp [hid]

/-- The pair found under a number is still found under it where only whole numbers leave. -/
theorem pair?_filter {s : State} {q q' : Nat} {p : QPair}
    (h : (s.q.pairs.filter fun x => x.id != q').find? (fun x => x.id == q) = some p) : s.pair? q = some p := by
  rw [List.find?_filter] at h
  have hpred : ∀ x : QPair, q ≠ q' → decide ((x.id != q') = true ∧ (x.id == q) = true) = (x.id == q) := by
    intro x hq
    by_cases hx : x.id = q <;> simp [hx, hq]
  by_cases hq : q = q'
  · have hid := List.find?_some h
    simp [hq, bne] at hid
  · rw [← h, State.pair?]
    exact congrArg (List.find? · s.q.pairs) (funext fun x => (hpred x hq).symm)

/-- Byte `a` holds `b`, and no completion, event or trace record can reach it. -/
structure State.hides (a : Nat) (b : Byte) (s : State) : Prop where
  wf : s.mem.wf = true
  cq : ∀ q p, s.pair? q = some p → ¬ p.inCq a
  noRing : ¬ s.inRings a
  noTrace : ¬ s.inTrace a
  byte : s.readByte a = b

variable {a : Nat} {b : Byte} {s : State}

namespace State.hides

/-- What leaves memory, the pairs and the places of rings and trace hides what it hid. -/
theorem frame {t : State} (h : s.hides a b) (hm : t.mem = s.mem := by rfl) (hp : t.q.pairs = s.q.pairs := by rfl)
    (hn : t.evc.ringN = s.evc.ringN := by rfl) (hb : t.evc.ringBase = s.evc.ringBase := by rfl)
    (hs : t.health.traceSize = s.health.traceSize := by rfl) (ht : t.health.traceBase = s.health.traceBase := by rfl) :
    t.hides a b := by
  obtain ⟨hwf, hcq, hring, htrace, hbyte⟩ := h
  refine ⟨hm ▸ hwf, fun q p hq => hcq q p (by rwa [State.pair?, hp] at hq), ?_, ?_, by rw [State.readByte, hm]; exact hbyte⟩
  · rwa [State.inRings, hn, hb]
  · rwa [State.inTrace, hs, ht]

theorem write (h : s.hides a b) {k : Nat} {bs : List Byte} (hout : a < k ∨ k + bs.length ≤ a) : (s.writeBytes k bs).hides a b :=
  ⟨writeBytes_wf h.wf k bs, h.cq, h.noRing, h.noTrace, (writeBytes_other h.wf hout).trans h.byte⟩

/-- Where the pair that is found under each number has no new byte, what was hidden is hidden. -/
theorem pairs {t : State} (h : s.hides a b) (hp : ∀ q p, t.pair? q = some p → p.inCq a → ∃ p', s.pair? q = some p' ∧ p'.inCq a)
    (hm : t.mem = s.mem := by rfl) (he : t.evc = s.evc := by rfl) (hh : t.health = s.health := by rfl) : t.hides a b := by
  obtain ⟨hwf, hcq, hring, htrace, hbyte⟩ := h
  refine ⟨hm ▸ hwf, fun q p hq hin => ?_, ?_, ?_, by rw [State.readByte, hm]; exact hbyte⟩
  · obtain ⟨p', hq', hin'⟩ := hp q p hq hin
    exact hcq q p' hq' hin'
  · rwa [State.inRings, he]
  · rwa [State.inTrace, hh]

/-- A change of the pair found under `q` that gives its queue no new byte hides what was hidden. -/
theorem modPair (h : s.hides a b) {q : Nat} {f : QPair → QPair} (hid : ∀ p, (f p).id = p.id)
    (hf : ∀ p, s.pair? q = some p → (f p).inCq a → p.inCq a) : (s.modPair q f).hides a b := by
  refine h.pairs fun q' p hp hin => ?_
  obtain ⟨p', hp', rfl⟩ := Option.map_eq_some_iff.1 ((pair?_modPair s q q' f hid).symm.trans hp)
  refine ⟨p', hp', ?_⟩
  split at hin
  next hq =>
    obtain rfl : q' = q := (by simpa using List.find?_some hp' : p'.id = q').symm.trans (beq_iff_eq.1 hq)
    exact hf _ hp' hin
  next => exact hin

theorem msix (h : s.hides a b) (v : Nat) : (s.msix v).hides a b :=
  h.frame (msix_mem _ _) (by rw [msix_q]) (by rw [msix_evc]) (by rw [msix_evc]) (by rw [msix_health]) (by rw [msix_health])

theorem edge (h : s.hides a b) (src : Nat) : (s.edge src).hides a b := by
  refine h.frame (edge_mem _ _) (by simp [State.edge]) ?_ ?_ (by simp [State.edge]) (by simp [State.edge]) <;>
  · rw [edge_evc]
    split <;> rfl

/-- The slot of an event lies in the rings. -/
theorem slot_out (h : s.hides a b) {src seq : Nat} (hsrc : src < 128) (hn : s.evc.ringN ≠ 0) :
    a < keyOf (s.evc.slot src seq) ∨ keyOf (s.evc.slot src seq) + 32 ≤ a := by
  by_contra hin
  have hlt : seq % s.evc.ringN < s.evc.ringN := Nat.mod_lt _ (Nat.pos_of_ne_zero hn)
  have hslot : s.evc.slot src seq = s.evc.ringBase.toNat + 32 * (s.evc.ringN * src + seq % s.evc.ringN) := by
    rw [Evc.slot]; ring
  have hle : s.evc.ringN * src + s.evc.ringN ≤ 128 * s.evc.ringN := by nlinarith
  rw [hslot] at hin
  exact h.noRing ⟨s.evc.ringN * src + seq % s.evc.ringN, by omega, by omega, by omega⟩

theorem event (h : s.hides a b) {src : Nat} (hsrc : src < 128) (kind : Nat) (pl : List Byte) : (s.event src kind pl).hides a b := by
  have hc : (s.eventCounted src kind pl).hides a b := h.frame
  have hw : ∀ {t : State}, t.hides a b →
      (if s.slotOk (s.evc.slot src (s.evc.nextSeq src)) then t.edge src else t).hides a b := by
    intro t ht
    split
    · exact ht.edge src
    · exact ht
  refine hw ?_
  split
  next htried =>
    refine State.hides.write hc ?_
    have hn : s.evc.ringN ≠ 0 := by simp_all [State.slotTried]
    have hlen : ∀ q, (eventBytes src kind q s.now pl).length = 32 := by intro q; simp [eventBytes, padTo, slice, length_leBytes]
    rw [hlen]
    exact h.slot_out hsrc hn
  next => exact hc

theorem trace (h : s.hides a b) (k o : Nat) (d : List Byte) : (s.trace k o d).hides a b := by
  unfold State.trace
  dsimp only
  split
  next hon =>
    split
    next =>
      refine State.hides.write h.frame ?_
      have hsize : 32 ≤ s.health.traceSize := by simp_all
      have hlt := Nat.mod_lt s.health.traceSeq (Nat.div_pos hsize (by decide : 0 < 32))
      have hlen : (leBytes 2 k ++ leBytes 2 o ++ leBytes 4 s.health.traceSeq ++ leBytes 8 s.now ++ padTo 16 d).length = 32 := by
        simp [padTo, slice, length_leBytes]
      by_contra hin
      rw [hlen] at hin
      exact h.noTrace ⟨_, hlt, by omega, by omega⟩
    next => exact h.frame
  next => exact h

theorem journal (h : s.hides a b) (op q st : Nat) (d : List Byte) : (s.journal op q st d).hides a b := by
  unfold State.journal
  have hq : ∀ q', q'.pairs = s.q.pairs → ({ s with q := q' } : State).hides a b := fun q' hp => h.frame rfl hp
  refine (hq _ ?_).event (by decide) _ _
  rfl

theorem pairError (h : s.hides a b) (q c v : Nat) : (s.pairError q c v).hides a b := by
  unfold State.pairError
  split
  next p hp =>
    split
    · exact h
    · have hm : (s.modPair q fun p => { p with error := true, errCode := c }).hides a b :=
        h.modPair (fun _ => rfl) fun _ _ hin => hin
      have hsrc : (if p.job < 16 then srcJob p.job else srcSafety) < 128 := by
        unfold srcJob srcSafety
        split <;> omega
      exact hm.event hsrc _ _
  next => exact h

theorem modRec (h : s.hides a b) (id : Nat) (f : CmdRec → CmdRec) : (s.modRec id f).hides a b := h.frame

theorem markDone (h : s.hides a b) (id : Nat) (st : Status) (res : List Byte) : (s.markDone id st res).hides a b := by
  unfold State.markDone
  split
  · refine State.hides.trace (State.hides.modRec ?_ _ _) _ _ _
    split
    · exact h.journal _ _ _ _
    · exact h
  · exact h

theorem cancelChain (h : s.hides a b) (id : Nat) (st : Status) : (s.cancelChain id st).hides a b := by
  have hfold : ∀ (l : List CmdRec) {t : State}, t.hides a b → (l.foldl (fun s x => s.markDone x.id .cancelled []) t).hides a b := by
    intro l
    induction l with
    | nil => exact fun ht => ht
    | cons x l ih => exact fun ht => ih (ht.markDone _ _ _)
  unfold State.cancelChain
  dsimp only
  split
  · split
    · exact h
    · split
      · split
        · exact (hfold _ h).modPair (fun _ => rfl) fun _ _ hin => hin
        · exact hfold _ h
      · exact (hfold _ h).modPair (fun _ => rfl) fun _ _ hin => hin
  · exact h

theorem markChain (h : s.hides a b) (id : Nat) (st : Status) (res : List Byte) : (s.markChain id st res).hides a b :=
  (h.markDone _ _ _).cancelChain _ _

/-- Moving CQ_TAIL to an entry of the queue gives the queue no new byte. -/
theorem inCq_of_tail {p : QPair} {tail sqh : Nat} {ph : Bool} (ht : tail < p.cqDepth)
    (h : ({ p with cqTail := tail, phase := ph, sqHead := sqh } : QPair).inCq a) : p.inCq a := by
  obtain ⟨n, hn, hin⟩ := h
  exact ⟨n, .inl (hn.elim id fun e => e ▸ ht), hin⟩

theorem writeCq (h : s.hides a b) (q : Nat) (e : Env) (st : Status) (res : List Byte) (t : Nat) :
    (s.writeCq q e st res t).hides a b := by
  unfold State.writeCq
  split
  next p hp =>
    dsimp only
    have hw : (s.writeBytes (keyOf (p.cqBase.toNat + 32 * p.cqTail)) (cqBytes e.tag.toNat st.code p.phase p.sqHead t res)).hides a b := by
      refine h.write ?_
      have hlen : (cqBytes e.tag.toNat st.code p.phase p.sqHead t res).length = 32 := by simp [cqBytes, padTo, slice, zeros, length_leBytes]
      by_contra hin
      rw [hlen] at hin
      exact h.cq q p hp ⟨_, .inr rfl, by omega, by omega⟩
    have hm : ((s.writeBytes (keyOf (p.cqBase.toNat + 32 * p.cqTail)) (cqBytes e.tag.toNat st.code p.phase p.sqHead t res)).modPair q
        fun p' => { p' with cqTail := (p.cqTail + 1) % p.cqDepth, phase := if (p.cqTail + 1) % p.cqDepth == 0 then !p'.phase else p'.phase }).hides a b := by
      refine hw.modPair (fun _ => rfl) fun p' hp' hin => ?_
      obtain rfl : p' = p := Option.some.inj (hp'.symm.trans hp)
      exact inCq_of_tail (Nat.mod_lt _ p'.cqDepth_pos) hin
    split
    · split
      · exact hw.pairError _ _ _
      · split
        · exact (hm).msix _
        · exact hm
    · exact h.pairError _ _ _
  next => exact h

theorem settle (h : s.hides a b) (n : Nat) : (s.settle n).hides a b := by
  induction n generalizing s with
  | zero => exact h
  | succ n ih =>
    unfold State.settle
    split
    · split
      · exact ih (State.hides.writeCq h.frame _ _ _ _ _)
      · exact h
    · split
      · refine ih (State.hides.markChain ?_ _ _ _)
        exact h.pairs fun q p hp hin => ⟨p, pair?_filter hp, hin⟩
      · split
        · refine h.modPair (fun p => by split <;> rfl) fun p _ hin => ?_
          split at hin
          · exact hin
          · exact inCq_of_tail p.cqDepth_pos hin
        · exact h

theorem finish (h : s.hides a b) (id : Nat) (st : Status) (res : List Byte) : (s.finish id st res).hides a b :=
  (h.markChain _ _ _).settle _

theorem started (h : s.hides a b) (r : CmdRec) : (s.started r).hides a b := (h.modRec _ _).trace _ _ _

/-- Adding a record and opening or closing its pair's chain hides what was hidden. -/
theorem enter (h : s.hides a b) {q : Queues} (hp : q.pairs = s.q.pairs) (n : Nat) (open_ failed : Bool) :
    (({ s with q := q } : State).modPair n fun p => { p with chainOpen := open_, chainFailed := failed }).hides a b :=
  State.hides.modPair (h.frame (t := { s with q := q }) rfl hp) (fun _ => rfl) fun _ _ hin => hin

theorem takeIn (h : s.hides a b) (i : Instr) (e : Env) (st : Option Status) : (s.takeIn i e st).hides a b := by
  unfold State.takeIn
  dsimp only
  split
  · exact h
  · split
    · refine State.hides.finish (h.enter ?_ _ _ _) _ _ _
      rfl
    · split
      · refine State.hides.finish (h.enter ?_ _ _ _) _ _ _
        rfl
      · refine h.enter ?_ _ _ _
        rfl

end State.hides

theorem State.untold.hides (hwf : s.mem.wf = true) (h : s.untold a) : s.hides a (s.readByte a) :=
  ⟨hwf, fun _ _ hp => h.1 _ (List.mem_of_find?_eq_some hp), h.2.1, h.2.2, rfl⟩

/-- Settles O8: no unit by the frames of starting and completing, no byte by what both hide. -/
theorem completionFrame : Obligations.CompletionFrame := fun s r id st res hwf _ =>
  ⟨(started_same s r).trans (finish_same _ id st res), fun _ ha => (((ha.hides hwf).started r).finish id st res).byte⟩

/-- The draws made in an outcome's state. -/
def Res.freeOf : Res → Nat
  | .next t => t.free
  | _ => 0

/-- Queue pair 0, enabled, with rings of 16 entries in host memory. -/
def hostPair : QPair := { QPair.reset 0 with
  enable := true, sqLog2 := 4, cqLog2 := 4, phase := true, sqBase := 0x3000000001000, cqBase := 0x3000000002000 }

/-- The module at stage 9 with queue pair 0 enabled. -/
def bootedState : State := { State.reset with
  boot := { State.reset.boot with stage := 9 }, grid := { State.reset.grid with valid := true },
  q := { State.reset.q with pairs := [hostPair] } }

/-- The envelope of a command of queue pair 0 without a context, a launch tick or a fence. -/
def plainEnv : Env := ⟨0, false, false, false, false, false, false, 0x3FF, 7, 0⟩

/-- Refutes O9: the start clause names no condition on the command's addresses, and a MEM_FILL into package flash, whose
check passes, ends BAD_PARAM at its start (its addresses are not held) and makes no draw. -/
theorem not_arrivingCommands : ¬ Obligations.ArrivingCommands := by
  intro h
  obtain ⟨r, -, -, -, hrun⟩ := h.1 bootedState (.memFill plainEnv 0x5000000000000 8 0) plainEnv hostPair (fun _ => none)
    (fun _ => false)
    (fun _ t => { t with free := t.free + 1 }) ⟨by decide, by decide, by decide, by decide, by decide⟩
    (by unfold State.envelopeOk; decide) rfl rfl rfl (by decide) rfl rfl rfl
  have hfree := congrArg Res.freeOf hrun
  have hzero : ∀ n : Nat, 0 ≠ n + 1 := by omega
  exact hzero _ hfree

end Sys2Proof.Machine
end

section
/-! PROOFS. The completion entry of a command (O7). -/

set_option Elab.async false

namespace Sys2Proof.Machine

section
variable {s : State} {r : CmdRec} {p : QPair}

/-- A command that is not late, not journaled and not traced is marked done and nothing else. -/
theorem markDone_plain {st : Status} {res : List Byte} (hr : s.q.recs = [r]) (hlate : r.late = false)
    (hj : s.journalDetail r.cmd st res = none) (ht : s.health.traceMask = 0) :
    s.markDone r.id st res = { s with q := { s.q with recs :=
      [{ r with phase := .done st (padTo 16 (if st.carries r.cmd then res else [])) s.now, xfer := none }] } } := by
  simp [State.markDone, State.rec?, hr, hlate, hj, State.modRec, State.trace, ht, bit]

/-- A command that is no member of a chain cancels nothing. -/
theorem cancelChain_unchained (id : Nat) (st : Status) (hr : s.q.recs = [r]) (hc : r.env.chain = false) :
    s.cancelChain id st = s := by
  simp only [State.cancelChain, State.rec?, hr, List.find?_cons, List.find?_nil]
  cases r.id == id <;> simp [hc]

/-- A state without commands and closing pairs, whose pairs are not pair 0, is settled. -/
theorem settle_idle (n : Nat) (hr : s.q.recs = []) (hp : s.q.pairs = [p]) (h0 : p.id ≠ 0) (hc : p.closing = none) :
    s.settle n = s := by
  cases n with
  | zero => rfl
  | succ n =>
    have hready : s.readyCq = none := by simp [State.readyCq, hr]
    have hclosed : s.closedPair = none := by simp [State.closedPair, hp, hc]
    have hkeep : s.modPair 0 (fun p => if p.enable then p else { p with sqHead := 0, cqTail := 0 }) = s := by
      have hmap : s.q.pairs.map (fun x => if x.id == 0 then (if x.enable then x else { x with sqHead := 0, cqTail := 0 }) else x) =
          s.q.pairs := by simp [hp, h0]
      rw [State.modPair, hmap]
    rw [State.settle, hready, hclosed]
    simp [State.recsOf, hr, hkeep]

/-- The entry of a queue's only command, where the queue can be written. -/
theorem writeCq_own {e : Env} {st : Status} {res : List Byte} {tick : Nat} (hp : s.q.pairs = [p]) (hvec : p.vecEn = false)
    (hown : p.cqOwn = true) (hhost : s.mem.hostRefuses (keyOf (p.cqBase.toNat + 32 * p.cqTail)) 32 = false)
    (hroom : s.rangeOk (keyOf (p.cqBase.toNat + 32 * p.cqTail)) 32 = true)
    (hsp : spaceOf (keyOf (p.cqBase.toNat + 32 * p.cqTail)) ∈ [0, 1, 3]) :
    s.writeCq p.id e st res tick =
      { (s.writeBytes (keyOf (p.cqBase.toNat + 32 * p.cqTail)) (cqBytes e.tag.toNat st.code p.phase p.sqHead tick res)) with
        q := { s.q with pairs := [{ p with cqTail := (p.cqTail + 1) % p.cqDepth,
                                           phase := if (p.cqTail + 1) % p.cqDepth = 0 then !p.phase else p.phase }] } } := by
  have hfind : s.pair? p.id = some p := by simp [State.pair?, hp]
  have hin : [0, 1, 3].contains (spaceOf (keyOf (p.cqBase.toNat + 32 * p.cqTail))) = true := by simpa using hsp
  have hpw : ∀ k bs, (s.writeBytes k bs).q = s.q := fun _ _ => rfl
  simp only [State.writeCq, hfind, hown, hroom, hin, hhost, hvec, State.modPair, hpw, hp, Bool.and_self, if_true,
    Bool.false_and, Bool.false_eq_true, if_false, List.map_cons, List.map_nil, beq_iff_eq]

end

/-- Settles O7: the record is marked done, its entry is written, and the queue is then settled. -/
theorem completionEntry : Obligations.CompletionEntry := by
  intro s r p st res hr hp hq h0 hlate hchain hj ht hclose hvec hown hhost hroom hsp
  have hdone := markDone_plain hr hlate hj ht
  set r' : CmdRec := { r with phase := .done st (padTo 16 (if st.carries r.cmd then res else [])) s.now, xfer := none }
  set s1 : State := { s with q := { s.q with recs := [r'] } }
  have hready : s1.readyCq = some r' := by simp [State.readyCq, s1, r', CmdRec.isDone, State.recsOf]
  have hmark : s.markChain r.id st res = s1 := by
    rw [State.markChain, hdone]
    exact cancelChain_unchained r.id st (r := r') rfl hchain
  have hfuel : s1.settled = s1.settle 6 := by simp [State.settled, s1, hp]
  have hentry := writeCq_own (s := { s1 with q := { s1.q with recs := s1.q.recs.filter fun x => x.id != r'.id } })
    (e := r.env) (st := st) (res := padTo 16 (if st.carries r.cmd then res else [])) (tick := s.now) hp hvec hown hhost hroom hsp
  have hgone : s1.q.recs.filter (fun x => x.id != r'.id) = [] := by simp [s1]
  rw [State.finish, hmark, hfuel, State.settle, hready]
  dsimp only [r']
  rw [hq, hentry, hgone]
  exact settle_idle _ rfl rfl h0 hclose

end Sys2Proof.Machine
end

section
/-! PROOFS. The two copies of a flash record (O50). -/

set_option Elab.async false

namespace Sys2Proof.Machine

/-! ### Fields of byte strings -/

theorem leNat_leBytes (k n : Nat) : leNat (leBytes k n) = n % 256 ^ k := by
  induction k generalizing n with
  | zero => simp [leBytes, leNat, Nat.mod_one]
  | succ k ih =>
    rw [leBytes, leNat, ih, BitVec.toNat_ofNat]
    exact (Nat.mod_mul (x := n) (a := 256) (b := 256 ^ k)).symm.trans (congrArg (n % ·) (pow_succ' 256 k).symm)

theorem leNat_leBytes_of_lt {k n : Nat} (h : n < 256 ^ k) : leNat (leBytes k n) = n := by
  rw [leNat_leBytes, Nat.mod_eq_of_lt h]

theorem slice_eq_take_drop {bs : List Byte} {off n : Nat} (h : off + n ≤ bs.length) : slice bs off n = (bs.drop off).take n := by
  refine List.ext_getElem (by simp [slice]; omega) fun i hi _ => ?_
  have hi : i < n := by simpa [slice] using hi
  simp [slice, List.getD_eq_getElem?_getD, List.getElem?_eq_getElem (show off + i < bs.length by omega)]

/-! ### Flash -/

theorem getCell_filter {cs : List Host.Cell} (h : cellsWf cs = true) {p : Host.Cell → Bool} {k : Nat}
    (hp : ∀ b, p (k, b) = true) : getCell (cs.filter p) k = getCell cs k := by
  induction cs with
  | nil => rfl
  | cons c cs ih =>
    obtain ⟨a, b⟩ := c
    obtain ⟨-, hlt, hcs⟩ := (cellsWf_cons a b cs).mp h
    by_cases hpc : p (a, b) = true
    · rw [List.filter_cons_of_pos hpc, getCell, getCell, ih hcs]
    · have hne : a ≠ k := fun e => hpc (e ▸ hp b)
      rw [List.filter_cons_of_neg hpc, ih hcs, getCell, if_neg hne]
      split
      next hk => exact getCell_below fun c hc => hk.trans (hlt c hc)
      next => rfl

theorem eraseFlash_wf {s : State} (h : s.mem.wf = true) (o n : Nat) : (s.eraseFlash o n).mem.wf = true := cellsWf_filter h _

/-- Erasing leaves every byte outside its range. -/
theorem eraseFlash_other {s : State} (h : s.mem.wf = true) {o n a : Nat} (ha : a < mkKey 5 o ∨ mkKey 5 o + n ≤ a) :
    (s.eraseFlash o n).readByte a = s.readByte a := by
  simp only [State.readByte, Memory.byte, State.eraseFlash]
  rw [getCell_filter h]
  intro b
  simp only [Bool.not_eq_true', Bool.and_eq_false_iff, decide_eq_false_iff_not]
  omega

/-- Every byte written to flash reaches it. -/
theorem reaching_flash {s : State} {k : Nat} {bs : List Byte} (h : ∀ i < bs.length, spaceOf (k + i) = 5) : s.reaching k bs = bs := by
  unfold State.reaching
  split
  next => rfl
  next =>
    refine List.ext_getElem (by simp) fun i hi _ => ?_
    have hsp := h i (by simpa using hi)
    simp [State.unreachedByte, State.deadByte, Memory.hostRefuses, hsp]

theorem spaceOf_flash {o : Nat} (h : o < 2 ^ 48) : spaceOf (mkKey 5 o) = 5 := by
  unfold spaceOf mkKey
  omega

/-- A string written to flash reads back, field by field. -/
theorem writeBytes_flash_slice {s : State} (hwf : s.mem.wf = true) {o off n : Nat} {bs : List Byte} (ho : o + bs.length ≤ 2 ^ 48)
    (hn : off + n ≤ bs.length) : (s.writeBytes (mkKey 5 o) bs).readBytes (mkKey 5 o + off) n = slice bs off n := by
  have hreach : s.reaching (mkKey 5 o) bs = bs := by
    refine reaching_flash fun i hi => ?_
    have hk : mkKey 5 o + i = mkKey 5 (o + i) := by unfold mkKey; omega
    rw [hk, spaceOf_flash (by omega)]
  refine List.ext_getElem (by simp [State.readBytes, slice]) fun i hi _ => ?_
  have hi : i < n := by simpa [State.readBytes] using hi
  have hread := writeBytes_read hwf (mkKey 5 o) bs (i := off + i) (by omega)
  rw [hreach] at hread
  simp only [State.readBytes, slice, List.getElem_map, List.getElem_range]
  rw [Nat.add_assoc, hread]

theorem length_flashSealed (type seq : Nat) (body : List Byte) : (flashSealed type seq body).length = 32 + body.length := by
  simp [flashSealed, zeros]
  omega

theorem crc32c_lt (bs : List Byte) : crc32c bs < 2 ^ 32 := BitVec.isLt _

/-- The first 16 bytes of a sealed record. -/
def flashHead (type seq len : Nat) : List Byte :=
  leBytes 4 0x31524C46 ++ leBytes 1 type ++ zeros 1 ++ leBytes 2 1 ++ leBytes 4 (32 + len) ++ leBytes 4 seq

theorem flashSealed_eq (type seq : Nat) (body : List Byte) : flashSealed type seq body =
    flashHead type seq body.length ++ leBytes 4 (flashCrc (flashHead type seq body.length ++ zeros 16 ++ body)) ++ zeros 12 ++ body := rfl

/-- Filling in the CRC does not change it. -/
theorem flashCrc_sealed (type seq : Nat) (body : List Byte) :
    flashCrc (flashSealed type seq body) = flashCrc (flashHead type seq body.length ++ zeros 16 ++ body) :=
  congrArg crc32c rfl

/-- The fields of a sealed record. -/
theorem fieldAt_flashSealed {type seq : Nat} {body : List Byte} (ht : type < 256) (hseq : seq < 2 ^ 32)
    (hlen : 32 + body.length < 2 ^ 32) :
    fieldAt (flashSealed type seq body) 0 4 = 0x31524C46 ∧ fieldAt (flashSealed type seq body) 4 1 = type ∧
    fieldAt (flashSealed type seq body) 6 2 = 1 ∧ fieldAt (flashSealed type seq body) 8 4 = 32 + body.length ∧
    fieldAt (flashSealed type seq body) 12 4 = seq ∧
    fieldAt (flashSealed type seq body) 16 4 = flashCrc (flashSealed type seq body) := by
  rw [flashCrc_sealed, flashSealed_eq]
  exact ⟨leNat_leBytes_of_lt (k := 4) (by norm_num), leNat_leBytes_of_lt (k := 1) (by simpa using ht),
    leNat_leBytes_of_lt (k := 2) (by norm_num), leNat_leBytes_of_lt (k := 4) (by simpa using hlen),
    leNat_leBytes_of_lt (k := 4) (by simpa using hseq), leNat_leBytes_of_lt (k := 4) (crc32c_lt _)⟩

/-- What a two-copy record's new copy holds. -/
theorem writeBytes_flashSealed {s : State} (hwf : s.mem.wf = true) {o seq : Nat} {body : List Byte} (ho : o + (32 + body.length) ≤ 2 ^ 48)
    (hlen : body.length + 32 ≤ 65536) (hseq : seq < 2 ^ 32) :
    let t := s.writeBytes (mkKey 5 o) (flashSealed 2 seq body)
    t.flashLen o = 32 + body.length ∧ t.flashSeq o = seq ∧ t.flashBytes o (32 + body.length) = flashSealed 2 seq body ∧
      t.copyValid 2 o = true := by
  intro t
  obtain ⟨hmagic, htype, hver, hl, hs, hcrc⟩ := fieldAt_flashSealed (type := 2) (body := body) (by norm_num) hseq (by omega)
  have hsize : (flashSealed 2 seq body).length = 32 + body.length := length_flashSealed _ _ _
  have hread : ∀ off n, off + n ≤ 32 + body.length → t.readBytes (mkKey 5 o + off) n = slice (flashSealed 2 seq body) off n :=
    fun off n hn => writeBytes_flash_slice hwf (hsize ▸ ho) (hsize ▸ hn)
  have hL : t.flashLen o = 32 + body.length := by rw [State.flashLen, State.readNat, hread 8 4 (by omega)]; exact hl
  have hS : t.flashSeq o = seq := by rw [State.flashSeq, State.readNat, hread 12 4 (by omega)]; exact hs
  have hB : t.flashBytes o (32 + body.length) = flashSealed 2 seq body := by
    have := hread 0 (32 + body.length) (by omega)
    rw [slice_eq_take_drop (by omega), List.drop_zero, ← hsize, List.take_length, hsize] at this
    exact this
  refine ⟨hL, hS, hB, ?_⟩
  have hmax : flashMax 2 = 65536 := rfl
  have hbound : 32 + body.length ≤ flashMax 2 := hmax ▸ (by omega)
  simp [State.copyValid, State.flashValid, hL, hB, hmagic, htype, hver, hcrc, hbound]

/-- A copy whose bytes are unchanged stands as it did. -/
theorem copyValid_congr {s t : State} {o : Nat} (h : ∀ i, i < 65536 → t.readByte (mkKey 5 o + i) = s.readByte (mkKey 5 o + i))
    (hv : s.copyValid 2 o = true) : t.copyValid 2 o = true ∧ t.flashSeq o = s.flashSeq o := by
  have hread : ∀ off n, off + n ≤ 65536 → t.readBytes (mkKey 5 o + off) n = s.readBytes (mkKey 5 o + off) n := by
    intro off n hn
    refine List.map_congr_left fun i hi => ?_
    rw [Nat.add_assoc]
    exact h _ (by have := List.mem_range.1 hi; omega)
  have hL : t.flashLen o = s.flashLen o := congrArg leNat (hread 8 4 (by norm_num))
  have hmax : s.flashLen o ≤ 65536 := by
    simp only [State.copyValid, State.flashValid, Bool.and_eq_true, decide_eq_true_eq] at hv
    exact hv.1.1.2
  have hB : t.flashBytes o (s.flashLen o) = s.flashBytes o (s.flashLen o) := hread 0 _ (by omega)
  refine ⟨?_, congrArg leNat (hread 12 4 (by norm_num))⟩
  rw [← hv]
  simp only [State.copyValid, State.flashValid, hL, hB]

/-- The copy in force of the repair record, by which copies are valid. -/
theorem flashCopy_repair (s : State) : s.flashCopy 2 =
    if s.copyValid 2 0x20000 then
      if s.copyValid 2 0x30000 ∧ s.flashSeq 0x20000 < s.flashSeq 0x30000 then some 0x30000 else some 0x20000
    else if s.copyValid 2 0x30000 then some 0x30000 else none := by
  cases ha : s.copyValid 2 0x20000 <;> cases hb : s.copyValid 2 0x30000 <;>
    simp [State.flashCopy, flashCopies, ha, hb]

/-- The copy of the repair record beside `o`. -/
def otherCopy (o : Nat) : Nat := if o = 0x20000 then 0x30000 else 0x20000

/-- The copy in force is one of the two, and valid. -/
theorem flashCopy_repair_some {s : State} {o : Nat} (h : s.flashCopy 2 = some o) :
    (o = 0x20000 ∨ o = 0x30000) ∧ s.copyValid 2 o = true := by
  rw [flashCopy_repair] at h
  split at h
  next ha =>
    split at h
    next hb => cases h; exact ⟨.inr rfl, hb.1⟩
    next => cases h; exact ⟨.inl rfl, ha⟩
  next =>
    split at h
    next hb => cases h; exact ⟨.inr rfl, hb⟩
    next => cases h

/-- With both copies valid the one with the higher SEQ is in force. -/
theorem flashCopy_other {s : State} {o : Nat} (ho : o = 0x20000 ∨ o = 0x30000) (hv : s.copyValid 2 o = true)
    (hv' : s.copyValid 2 (otherCopy o) = true) (hlt : s.flashSeq o < s.flashSeq (otherCopy o)) : s.flashCopy 2 = some (otherCopy o) := by
  rw [flashCopy_repair]
  rcases ho with rfl | rfl <;> simp_all [otherCopy, Nat.not_lt_of_gt]

theorem flashWrite_repair {s : State} {o : Nat} (h : s.flashCopy 2 = some o) (ho : o = 0x20000 ∨ o = 0x30000) (body : List Byte) :
    s.flashWrite 2 body = (s.eraseFlash (otherCopy o) 65536).writeBytes (mkKey 5 (otherCopy o)) (flashSealed 2 (s.flashSeq o + 1) body) := by
  have hmax : flashMax 2 = 65536 := rfl
  rcases ho with rfl | rfl <;> simp [State.flashWrite, h, flashCopies, otherCopy, hmax]

/-- Settles O50: the new copy reads as it was sealed, the old one as before, and the higher SEQ decides. -/
theorem flashTwoCopies : Obligations.FlashTwoCopies := by
  intro s body o hwf _ hlen hcur hseq
  obtain ⟨ho, hvalid⟩ := flashCopy_repair_some hcur
  have hsize := length_flashSealed 2 (s.flashSeq o + 1) body
  rw [flashWrite_repair hcur ho]
  set t := (s.eraseFlash (otherCopy o) 65536).writeBytes (mkKey 5 (otherCopy o)) (flashSealed 2 (s.flashSeq o + 1) body)
  have hfar : otherCopy o + 65536 ≤ o ∨ o + 65536 ≤ otherCopy o := by rcases ho with rfl | rfl <;> decide
  have hsmall : otherCopy o ≤ 0x30000 := by rcases ho with rfl | rfl <;> decide
  have hold : ∀ i, i < 65536 → t.readByte (mkKey 5 o + i) = s.readByte (mkKey 5 o + i) := by
    intro i hi
    rw [writeBytes_other (eraseFlash_wf hwf _ _) (by unfold mkKey; omega), eraseFlash_other hwf (by unfold mkKey; omega)]
  obtain ⟨hL, hS, hB, hnew⟩ := writeBytes_flashSealed (eraseFlash_wf hwf (otherCopy o) 65536) (o := otherCopy o) (body := body)
    (seq := s.flashSeq o + 1) (by omega) hlen hseq
  obtain ⟨hkeep, hkeepSeq⟩ := copyValid_congr hold hvalid
  refine ⟨?_, fun i hi => ?_⟩
  · have hlt : t.flashSeq o < t.flashSeq (otherCopy o) := by rw [hS, hkeepSeq]; omega
    rw [State.flashRecord, flashCopy_other ho hkeep hnew hlt, Option.map_some, hL, hB]
  · have hk : mkKey 5 (o + i) = mkKey 5 o + i := by unfold mkKey; omega
    rw [hk]
    exact hold i hi

end Sys2Proof.Machine
end

section
/-! PROOFS. Steps, routing points and register writes that complete (O60). -/

set_option Elab.async false

namespace Sys2Proof.Machine

/-! ### Contexts under a serving change -/

theorem ctx?_modCtx {s : State} {c : Ctx} {id : Nat} {f : Ctx → Ctx} (h : s.ctx? id = some c) (hf : ∀ d, (f d).id = d.id) :
    (s.modCtx id f).ctx? id = some (f c) := by
  have hid : c.id = id := by simpa using List.find?_some h
  have hpred : ((fun d : Ctx => d.id == id) ∘ fun d => if d.id == id then f d else d) = fun d => d.id == id := by
    funext d
    simp only [Function.comp]
    split <;> simp_all
  rw [State.ctx?, State.modCtx, List.find?_map, hpred]
  rw [State.ctx?] at h
  simp [h, hid]

theorem ctx?_modServing {s : State} {c : Ctx} {id : Nat} {f : Serving → Serving} (h : s.ctx? id = some c) :
    (s.modServing id f).ctx? id = some { c with serving := c.serving.map f } := ctx?_modCtx h fun _ => rfl

theorem ctx?_congr {s t : State} (h : t.ctxs = s.ctxs) (id : Nat) : t.ctx? id = s.ctx? id := by rw [State.ctx?, h, State.ctx?]

/-! ### Composing a step of one decoding request -/

section
variable {s : State} {c : Ctx} {v : Serving} {q : Req} {g : Cfg}

theorem retireDue_none (hc : s.ctx? c.id = some c) (hv : c.serving = some v) (hq : v.reqs = [q]) (hd : q.deadline = 0) :
    s.retireDue c.id = s := by
  simp [State.retireDue, hc, hv, hq, hd]

/-- Setting the extension changes only it. -/
theorem setExt_serving (hc : s.ctx? c.id = some c) (hv : c.serving = some v) : ∃ n m,
    (s.setExt c.id).ctx? c.id = some { c with serving := some { v with eN := n, eS := m } } ∧ (s.setExt c.id).fab = s.fab := by
  have hmod := fun n m => ctx?_modServing (f := fun v => { v with eN := n, eS := m }) hc
  simp only [State.setExt, hc, hv, Option.map_some, Option.bind_some] at hmod ⊢
  refine ⟨newExt v.interval v.sinceInterval v.nMin v.nMax v.eN v.hist, newExt v.interval v.sinceInterval v.sMin v.sMax v.eS v.hist, ?_⟩
  split
  · exact ⟨hmod _ _, rfl⟩
  · exact ⟨(ctx?_congr (event_ctxs _ _ _ _) _).trans (hmod _ _), event_fab _ _ _ _⟩

/-- The one decoding request that needs no page is the step's member. -/
theorem pickDec_one (n : Nat) (hc : s.ctx? c.id = some c) (hv : c.serving = some v) (hq : v.reqs = [q]) (hcond : q.cond = .decoding)
    (hr : q.replaced = false) (hn : v.need q = 0) : State.pickDec c.id (n + 1) s = (s, [q.id]) := by
  have hdec : v.decoders = [q] := by simp [Serving.decoders, hq, hcond, hr]
  have hgo : v.unpaused [q] = [q] := by simp [Serving.unpaused, sumNat, hn]
  simp [State.pickDec, hc, hv, hdec, hgo]

theorem writeRecords_frame (s : State) (id : Nat) (dec : List (Nat × Nat)) (ch : List (Nat × Nat × Nat)) :
    (s.writeRecords id dec ch).ctxs = s.ctxs ∧ (s.writeRecords id dec ch).fab = s.fab := by
  have hat : ∀ (c : Ctx) (a : Nat) (bs : List Byte) (s : State),
      (match c.translate a bs.length false true with | some k => s.writeBytes k bs | none => s).ctxs = s.ctxs ∧
      (match c.translate a bs.length false true with | some k => s.writeBytes k bs | none => s).fab = s.fab := by
    intro c a bs s
    split <;> exact ⟨rfl, rfl⟩
  unfold State.writeRecords
  split
  · exact ⟨rfl, rfl⟩
  · dsimp only
    exact ⟨(foldl_keeps State.ctxs (fun s _ => (hat _ _ _ s).1) _ _).trans ((foldl_keeps State.ctxs (fun s _ => (hat _ _ _ s).1) _ _).trans
        (foldl_keeps State.ctxs (fun s _ => (hat _ _ _ s).1) _ _)),
      (foldl_keeps State.fab (fun s _ => (hat _ _ _ s).2) _ _).trans ((foldl_keeps State.fab (fun s _ => (hat _ _ _ s).2) _ _).trans
        (foldl_keeps State.fab (fun s _ => (hat _ _ _ s).2) _ _))⟩

/-- A step with decoding members alone launches the DEC configuration. -/
theorem launchStep_dec {d : Nat × Nat} (hc : s.ctx? c.id = some c) (hv : c.serving = some v)
    (hg : (c.cfgs.find? fun g => g.handle == v.desc.dec) = some g) :
    ∃ c', (s.launchStep c.id [d] []).ctx? c.id = some c' ∧
      c'.serving = some { v with
        cur := some { launch := none, dec := [d], chunks := [], decInv := some s.fab.nextInv, preInv := none, decDone := none
                      preDone := none, old := false }
        waitFrom := none, blockedSince := none } ∧
      (s.launchStep c.id [d] []).fab.invs = s.fab.invs ++ [Inv.make s.fab.nextInv c.id g (.decode c.id) v.desc.darg v.desc.dres 0
        (v.waitFrom.getD s.elapsed) false (v.gatedIn g.image false)] := by
  have hcfg : s.cfg? c.id v.desc.dec = some g := by simp [State.cfg?, hc, hg]
  simp only [State.launchStep, hc, hv, Option.map_some, Option.bind_some, List.isEmpty_cons, List.isEmpty_nil, hcfg, State.addInv,
    Bool.false_eq_true, if_false, if_true]
  refine ⟨_, ctx?_modCtx (ctx?_modServing hc) fun _ => rfl, ?_, rfl⟩
  simp [Ctx.activateServing, hv]

theorem compose_one (hc : s.ctx? c.id = some c) (hv : c.serving = some v) (hq : v.reqs = [q]) (hcond : q.cond = .decoding)
    (hr : q.replaced = false) (hd : q.deadline = 0) (hn : v.need q = 0)
    (hg : (c.cfgs.find? fun g => g.handle == v.desc.dec) = some g) :
    ∃ (c' : Ctx) (n m since : Nat) (gated : List Nat), (s.compose c.id).ctx? c.id = some c' ∧
      c'.serving = some { v with
        eN := n, eS := m
        cur := some { launch := none, dec := [(q.id, v.ks q)], chunks := [], decInv := some s.fab.nextInv, preInv := none
                      decDone := none, preDone := none, old := false }
        waitFrom := none, blockedSince := none } ∧
      (s.compose c.id).fab.invs = s.fab.invs ++ [Inv.make s.fab.nextInv c.id g (.decode c.id) v.desc.darg v.desc.dres 0
        since false gated] := by
  obtain ⟨n, m, hc1, hfab1⟩ := setExt_serving hc hv
  set s1 := s.setExt c.id
  set v1 : Serving := { v with eN := n, eS := m }
  set c1 : Ctx := { c with serving := some v1 }
  have hlive : s1.liveReqs c.id = 1 := by simp [State.liveReqs, hc1, c1, v1, hq]
  have hlive0 : s.liveReqs c.id = 1 := by simp [State.liveReqs, hc, hv, hq]
  have hpick := pickDec_one (c := c1) 1 hc1 rfl hq hcond hr hn
  have hneed : v1.need q = 0 := hn
  set s5 := s1.writeRecords c.id [(q.id, v.ks q)] []
  obtain ⟨hrc, hrf⟩ := writeRecords_frame s1 c.id [(q.id, v.ks q)] []
  obtain ⟨c', hc', hserv, hinvs⟩ := launchStep_dec (s := s5) (c := c1) (v := v1) (d := (q.id, v.ks q)) (g := g)
    ((ctx?_congr hrc _).trans hc1) rfl hg
  have hres : s.compose c.id = s5.launchStep c.id [(q.id, v.ks q)] [] := by
    have hks : v1.ks q = v.ks q := rfl
    rw [State.compose, retireDue_none hc hv hq hd]
    dsimp only
    rw [hlive, hpick]
    have hreqs : v1.reqs = [q] := hq
    have hserv : c1.serving = some v1 := rfl
    simp only [hc1, hserv, Option.map_some, Option.bind_some, hreqs]
    simp [hcond, hr, hneed, hks, State.givePages, State.pickChunks, hlive, hlive0, s5]
  have hfab : s5.fab = s.fab := hrf.trans hfab1
  rw [hfab] at hserv hinvs
  rw [hres]
  exact ⟨c', n, m, v1.waitFrom.getD s5.elapsed, v1.gatedIn g.image false, hc', hserv, hinvs⟩

theorem exec_stepCompose (ctx : Nat) (s : State) : exec (.stepCompose ctx) s = execStepCompose ctx s := rfl

/-- A context that may compose does so. -/
theorem execStepCompose_composable (hrun : s.running = true) (hc : s.ctx? c.id = some c) (hok : s.composable c = true) :
    execStepCompose c.id s = .next (s.compose c.id) := by
  simp [execStepCompose, hc, State.when, hrun, hok]

end

/-! ### The end of a step of one decoding request -/

/-- Without changed words an access counts a failed stack's read at most. -/
theorem touchAll_of_no_upsets {s : State} (h : s.mem.upsets = []) (rs : List (Nat × Nat)) :
    ∃ n, s.touchAll rs = s.modMem fun m => { m with deadReads := n } := by
  induction rs generalizing s with
  | nil => exact ⟨_, rfl⟩
  | cons r rs ih =>
    have htouch : ∃ n, s.touch r.1 r.2 = s.modMem fun m => { m with deadReads := n } := by
      simp only [State.touch, h, List.filter_nil, List.foldl_nil]
      split
      · exact ⟨_, rfl⟩
      · exact ⟨_, rfl⟩
    obtain ⟨n, hn⟩ := htouch
    obtain ⟨m, hm⟩ := ih (s := s.modMem fun m => { m with deadReads := n }) h
    exact ⟨m, by rw [State.touchAll, List.foldl_cons, hn]; exact hm⟩

theorem writeWords_ctxs (s : State) (c : Ctx) (a : Nat) (ws : List Nat) : (s.writeWords c a ws).ctxs = s.ctxs := by
  unfold State.writeWords
  split <;> rfl

section
variable {s : State} {c : Ctx} {v : Serving} {q q1 : Req} {k : Nat} {ts : List Nat}

theorem endDec_one (hu : s.mem.upsets = []) (hc : s.ctxs = [c]) (hv : c.serving = some v) (hq : v.reqs = [q]) (hd : q.deadline = 0)
    (hcan : q.cancel = none) (hrep : q.replaced = false) (hhost : q.hostStep = false) (hstop : v.stopNow = false)
    (he : v.emit { q with steps := q.steps + 1 } k (s.readWords c (v.desc.verify + 256 * q.slot.getD 0) 64)
      (if v.desc.threshold then s.readWords c (v.desc.prob + 32 * q.slot.getD 0) 8 else []) = (ts, q1, false)) :
    ∃ ps, (s.endDec c.id .ok (q.id, k)).ctxs =
      [{ c with serving := some { v with reqs := [{ q1 with cond := .decoding }], dirty := ps } }] := by
  obtain ⟨n, hn⟩ := touchAll_of_no_upsets hu (s.decReads c.id (q.id, k))
  set s1 := s.modMem fun m => { m with deadReads := n }
  have hctx : s1.ctx? c.id = some c := by simp [State.ctx?, s1, State.modMem, hc]
  have hbad : (Status.ok == Status.okPoisoned) = false := rfl
  have hok : Status.ok.success = true := rfl
  have he1 : v.emit { q with steps := q.steps + 1 } k (s1.readWords c (v.desc.verify + 256 * q.slot.getD 0) 64)
      (if v.desc.threshold then s1.readWords c (v.desc.prob + 32 * q.slot.getD 0) 8 else []) = (ts, q1, false) := he
  have hq1 : q1.id = q.id ∧ q1.hostStep = q.hostStep := by
    simp only [Serving.emit, Prod.mk.injEq] at he
    obtain ⟨-, rfl, -⟩ := he
    exact ⟨rfl, rfl⟩
  simp only [State.endDec, hn, hctx, Option.bind_some, hv, Option.map_some, hq, List.find?_cons, beq_self_eq_true, hbad, hok, if_true, he1,
    Bool.false_and, Bool.false_eq_true, if_false]
  simp only [hd, hcan, hrep, hstop, State.goOn, hq1.2, hhost, bne_self_eq_false, Option.isSome_none, Bool.not_true,
    Bool.false_and, Bool.false_eq_true, if_false]
  refine ⟨(v.addDirty (v.touched { q with steps := q.steps + 1 } q.kvlen (q.kvlen + k + 1))).dirty, ?_⟩
  simp [State.modReq, State.modServing, State.modCtx, writeWords_ctxs, s1, State.modMem, hc, hv, hq, hq1.1, Serving.addDirty]
  exact ⟨hq1.2.trans hhost, hstop, rfl⟩

theorem noteRunnables_one (hc : s.ctxs = [c]) (hv : c.serving = some v) (j : Nat) : ∃ b r,
    (s.noteRunnables j).ctxs = [{ c with serving := some { v with blockedSince := b, runnableSince := r } }] := by
  simp only [State.noteRunnables, hc, List.map_cons, List.map_nil, hv, Option.map_some, Serving.noteRunnable]
  split
  · split
    · exact ⟨_, _, rfl⟩
    · exact ⟨_, _, rfl⟩
  · exact ⟨v.blockedSince, v.runnableSince, by rw [← hv]⟩

/-- A job whose only context is resident has nothing to make room for. -/
theorem rebalance_resident (hc : s.ctxs = [c]) (hr : c.resident = true) (hv : c.serving = some v) (j : Nat) : ∃ b r,
    (s.rebalance j).ctxs = [{ c with serving := some { v with blockedSince := b, runnableSince := r } }] := by
  obtain ⟨b, r, hn⟩ := noteRunnables_one hc hv j
  refine ⟨b, r, ?_⟩
  simp [State.rebalance, hn, hr]

theorem stopIfDrained_running {id : Nat} (hc : s.ctx? id = some c) (hv : c.serving = some v) (hs : v.stopCmd = none) :
    s.stopIfDrained id = s := by
  simp [State.stopIfDrained, hc, hv, hs]

theorem mirrorStep_unmirrored {id : Nat} (hc : s.ctx? id = some c) (hm : c.mirror = none) (ps : List Nat) : s.mirrorStep id ps = s := by
  simp [State.mirrorStep, hc, hm]

theorem modServing_one {id : Nat} (hc : s.ctxs = [c]) (hid : c.id = id) (hv : c.serving = some v) (f : Serving → Serving) :
    (s.modServing id f).ctxs = [{ c with serving := some (f v) }] := by
  simp [State.modServing, State.modCtx, hc, hv, hid]

theorem ctx?_one {id : Nat} (hc : s.ctxs = [c]) (hid : c.id = id) : s.ctx? id = some c := by simp [State.ctx?, hc, hid]

/-- The serving state in which a step's member has its outcome and the step is not yet counted. -/
def Serving.stepDone (v : Serving) (q1 : Req) (d : Nat) (ps : List Nat) : Serving :=
  { v with
    reqs := [{ q1 with cond := .decoding }], dirty := ps, cur := none, sinceInterval := v.sinceInterval + 1
    hist := ((some d, none) :: v.hist).take 65535 }

/-- The step of one decoding request ends: the request goes on with what it emitted, and the step is counted. -/
theorem endStep_one {r : StepRec} {d : Nat} (hu : s.mem.upsets = []) (hc : s.ctxs = [c]) (hres : c.resident = true) (hmir : c.mirror = none)
    (hv : c.serving = some v) (hdec : r.dec = [(q.id, k)]) (hch : r.chunks = []) (hdd : r.decDone = some (.ok, d)) (hpd : r.preDone = none)
    (hq : v.reqs = [q]) (hd : q.deadline = 0) (hcan : q.cancel = none) (hrep : q.replaced = false) (hhost : q.hostStep = false)
    (hstop : v.stopNow = false) (hcmd : v.stopCmd = none)
    (he : v.emit { q with steps := q.steps + 1 } k (s.readWords c (v.desc.verify + 256 * q.slot.getD 0) 64)
      (if v.desc.threshold then s.readWords c (v.desc.prob + 32 * q.slot.getD 0) 8 else []) = (ts, q1, false)) :
    ∃ b run ps, (s.endStep c v r).ctxs = [{ c with serving := some { v.stepDone q1 d ps with
      step := v.step + 1, waitFrom := some s.tmr.elapsed, blockedSince := b, runnableSince := run } }] := by
  have h0 : (s.modServing c.id fun v => { v with dirty := [] }).ctxs = [{ c with serving := some { v with dirty := [] } }] :=
    modServing_one hc rfl hv _
  obtain ⟨ps, h1⟩ := endDec_one (s := s.modServing c.id fun v => { v with dirty := [] }) hu h0 rfl hq hd hcan hrep hhost hstop
    (k := k) (q1 := q1) (ts := ts) he
  replace h1 : ((s.modServing c.id fun v => { v with dirty := [] }).endDec c.id .ok (q.id, k)).ctxs =
    [{ c with serving := some { v with reqs := [{ q1 with cond := .decoding }], dirty := ps } }] := h1
  unfold State.endStep
  simp only [hdec, hch, hdd, hpd, hstop, Serving.bySlot, List.mergeSort_singleton, List.foldl_cons, List.foldl_nil,
    Bool.false_eq_true, if_false, Option.map_some, Option.map_none, Option.getD_some]
  generalize (s.modServing c.id fun v => { v with dirty := [] }).endDec c.id .ok (q.id, k) = s1 at h1 ⊢
  have hfresh : ((s1.ctx? c.id).bind (·.serving)).map (·.dirty) = some ps := by
    rw [ctx?_one h1 rfl]; rfl
  have h4 : (s1.modServing c.id fun w => { w with
      cur := none, dirty := v.dirty.foldl insSorted ps, sinceInterval := w.sinceInterval + 1
      hist := ((some d, none) :: w.hist).take 65535 }).ctxs =
    [{ c with serving := some (v.stepDone q1 d (v.dirty.foldl insSorted ps)) }] := modServing_one h1 rfl rfl _
  simp only [hfresh, Option.getD_some]
  rw [mirrorStep_unmirrored (id := c.id) (ctx?_one h4 rfl) hmir]
  generalize s1.modServing c.id _ = s4 at h4 ⊢
  have h6 : (s4.modServing c.id fun w => { w with step := w.step + 1, waitFrom := some s.elapsed }).ctxs =
    [{ c with serving := some { v.stepDone q1 d (v.dirty.foldl insSorted ps) with step := v.step + 1, waitFrom := some s.elapsed } }] :=
    modServing_one h4 rfl rfl _
  rw [stopIfDrained_running (id := c.id) (ctx?_one h6 rfl) rfl hcmd]
  obtain ⟨b, run, h⟩ := rebalance_resident h6 hres rfl c.job
  exact ⟨b, run, _, h⟩

theorem exec_stepEnd (ctx : Nat) (s : State) : exec (.stepEnd ctx) s = execStepEnd ctx s := rfl

theorem execStepEnd_done {r : StepRec} (hrun : s.running = true) (hc : s.ctx? c.id = some c) (hv : c.serving = some v)
    (hcur : v.cur = some r) (hd : r.decDone.isSome = true) (hp : r.preInv = none) :
    execStepEnd c.id s = .next (s.endStep c v r) := by
  simp [execStepEnd, hc, hv, hcur, State.when, hrun, hd, hp]

end

/-! ### Routing points -/

theorem bump_length (l : List Nat) (i : Nat) : (bump l i).length = l.length := List.length_modify ..

theorem choices_counts_length (cap : Nat) (a : Ask) (t : Nat) (cs : List (Option Nat)) (p : Placed) (row : List (Option (Nat × Nat))) :
    (Placed.choices cap a t cs p row).1.counts.length = p.counts.length := by
  induction cs generalizing p row with
  | nil => rfl
  | cons c cs ih =>
    unfold Placed.choices
    dsimp only
    split
    · rw [ih, bump_length]
    · rw [ih]

theorem assign_counts_length (r : Routing) (asks : List (Option Ask)) : (r.assign asks).counts.length = r.nexp := by
  have htoken : ∀ (p : Placed) (x : Nat × Option Ask), (p.token r (r.capacity asks.length) x.1 x.2).counts.length = p.counts.length := by
    intro p x
    unfold Placed.token
    split
    · rfl
    · exact choices_counts_length _ _ _ _ _ _
  rw [Routing.assign, foldl_keeps (fun p : Placed => p.counts.length) htoken]
  exact List.length_replicate

theorem writeWords_fab (s : State) (c : Ctx) (a : Nat) (ws : List Nat) : (s.writeWords c a ws).fab = s.fab := by
  unfold State.writeWords
  split <;> rfl

theorem writePoint_fab (s : State) (c : Ctx) (i : Inv) (r : Routing) (t : Nat) (p : Placed) : (s.writePoint c i r t p).fab = s.fab := by
  have hrows (f : Nat → List Nat) :
      ((List.range r.nexp).foldl (fun s e => s.writeWords c (r.dispatch + 4 * (e * r.capMax)) (f e)) s).fab = s.fab :=
    foldl_keeps State.fab (fun s e => writeWords_fab s c _ (f e)) _ _
  unfold State.writePoint
  dsimp only
  cases c.translate (r.yrowAt (r.nexp * r.capMax)) r.yrow false true <;>
  cases c.translate (r.yrowAt (r.nexp * r.capMax + 1)) r.yrow false true <;>
  cases r.exch <;>
  simp [writeWords_fab, hrows]

@[simp] theorem tracePoint_fab (s : State) (i : Inv) (p : RPoint) (b : Bool) : (s.tracePoint i p b).fab = s.fab := by
  unfold State.tracePoint
  split
  · exact trace_fab _ _ _ _
  · rfl

@[simp] theorem tracePoint_grid (s : State) (i : Inv) (p : RPoint) (b : Bool) : (s.tracePoint i p b).grid = s.grid := by
  unfold State.tracePoint
  split
  · exact trace_grid _ _ _ _
  · rfl

section
variable {s : State} {c : Ctx} {i : Inv} {im : Image} {p : RPoint} {r : Routing}

/-- A point that is found is one of a running invocation's. -/
theorem pointAt_mem {inv prog : Nat} (h : s.pointAt inv prog = some (c, i, im, p, r)) :
    i ∈ s.fab.invs ∧ i.id = inv ∧ p ∈ i.points ∧ p.program = prog := by
  simp only [State.pointAt, Option.bind_eq_some_iff] at h
  obtain ⟨i', hi, h⟩ := h
  split at h
  · cases h
  · simp only [Option.bind_eq_some_iff, Option.map_eq_some_iff] at h
    obtain ⟨c', -, im', -, p', hp, r', -, heq⟩ := h
    cases heq
    exact ⟨List.mem_of_find?_eq_some hi, by simpa using List.find?_some hi, List.mem_of_find?_eq_some hp, by simpa using List.find?_some hp⟩

/-- The cores that a settled point releases get their signal. -/
theorem release_syncs (s : State) (i : Inv) (p : RPoint) (r : Routing) (l : List Nat) :
    (s.release i p r l).fab.invs = s.fab.invs ∧ (s.release i p r l).fab.cores.map (·.syncs) = s.fab.cores.map fun x =>
      if x.inv = some i.id ∧ x.station ∈ l then x.syncs.modify 6 (fun n => min (2 ^ 16 - 1) (n + 1)) else x.syncs := by
  unfold State.release
  dsimp only
  rw [tracePoint_fab]
  refine ⟨rfl, ?_⟩
  simp only [State.modFab, List.map_map]
  refine List.map_congr_left fun x _ => ?_
  simp only [Function.comp, Bool.and_eq_true, beq_iff_eq, List.contains_iff_mem]
  split <;> rfl

theorem settlePoint_settled (hi : i ∈ s.fab.invs) (hp : p ∈ i.points) (asks : List (Option Ask)) :
    s.pointSettled (s.settlePoint c i p r asks) i p r asks.length := by
  set p' : RPoint := { p with
    started := true, tokens := asks.length, query := none, released := true, own := (r.assign asks).counts
    counts := if r.exch then p.counts else (r.assign asks).counts }
  set s1 := (s.writePoint c i r asks.length (r.assign asks)).modPoint i.id p.program fun _ => p'
  have hinvs : ∃ u ∈ s1.fab.invs, ∃ y ∈ u.points, u.id = i.id ∧ y.program = p.program ∧ y.started = true ∧ y.released = true ∧
      y.query = none ∧ y.tokens = asks.length ∧ y.own.length = r.nexp := by
    refine ⟨_, List.mem_map.2 ⟨i, (writePoint_fab s c i r _ _).symm ▸ hi, rfl⟩, p', ?_, ?_, rfl, rfl, rfl, rfl, rfl, assign_counts_length r asks⟩
    · simp only [beq_self_eq_true, if_true]
      exact List.mem_map.2 ⟨p, hp, by simp⟩
    · simp
  have hcores : s1.fab.cores = s.fab.cores := by
    show (s.writePoint c i r asks.length (r.assign asks)).fab.cores = _
    rw [writePoint_fab]
  have hset : s.settlePoint c i p r asks = if r.exch then s1 else s1.release i p' r (r.expertStations ++ r.restStations) := rfl
  rw [hset]
  obtain ⟨hri, hrc⟩ := release_syncs s1 i p' r (r.expertStations ++ r.restStations)
  split
  next hex => exact ⟨hinvs, fun hno => absurd hno (by simp [hex])⟩
  next => exact ⟨hri ▸ hinvs, fun _ => by rw [hrc, hcores]⟩

/-- A point of a context without host routing settles with the module's own choice. -/
theorem startPoint_settled {n : Nat} (h : s.pointAt i.id p.program = some (c, i, im, p, r)) (hcount : p.count r = some n)
    (hhost : c.hostRouted = false)
    (hunit : s.unitFailed 4 (mandolineOf ((c.translate r.scores 4 true true).getD 0) ((c.translate r.scores 4 true true).getD 0)) = false) :
    s.pointSettled (s.startPoint c i im p r) i p r n := by
  set s1 := s.tracePoint i { p with tokens := n } false
  have hfab : s1.fab = s.fab := tracePoint_fab _ _ _ _
  have hunit1 : s1.unitFailed 4 (mandolineOf ((c.translate r.scores 4 true true).getD 0) ((c.translate r.scores 4 true true).getD 0)) = false := by
    rwa [State.unitFailed, tracePoint_grid]
  set k := (c.translate r.scores 4 true true).getD 0
  set asks := (List.range n).map fun x => r.ownAsk (s1.scoreRow k r x) (s1.tokenBad p k r x)
  have hstart : s.startPoint c i im p r = s1.settlePoint c i p r asks := by
    simp only [State.startPoint, hcount, hunit1, hhost, Bool.false_and, Bool.false_eq_true, if_false, s1, asks, k]
  obtain ⟨hi, -, hp, -⟩ := pointAt_mem h
  have hset := settlePoint_settled (s := s1) (c := c) (r := r) (hfab ▸ hi) hp asks
  rw [hstart]
  have hlen : asks.length = n := by simp [asks]
  rw [hlen, State.pointSettled, hfab] at hset
  exact hset

theorem exec_routingPointStart (inv prog : Nat) (s : State) :
    exec (.routingPointStart inv prog) s = execRoutingPointStart inv prog s := rfl

theorem exec_routeWaitExpiry (inv prog : Nat) (s : State) : exec (.routeWaitExpiry inv prog) s = execRouteWaitExpiry inv prog s := rfl

/-- The number of a point's tokens is read before the words of its scores are met. -/
theorem execRoutingPointStart_started {n : Nat} {v : State} (hrun : s.running = true) (h : s.pointAt i.id p.program = some (c, i, im, p, r))
    (hst : p.started = false) (hdone : im.routerDone p = true) (hcount : p.count r = some n) (hv : v = s.touchAll (c.scoreReads r n))
    (hat : v.pointAt i.id p.program = some (c, i, im, p, r)) :
    execRoutingPointStart i.id p.program s = .next (v.startPoint c i im p r) := by
  rw [hv] at hat
  simp [execRoutingPointStart, h, hcount, hat, State.when, hrun, hst, hdone, hv]

theorem execRouteWaitExpiry_settled {q : Nat} (hrun : s.running = true) (h : s.pointAt i.id p.program = some (c, i, im, p, r))
    (hq : p.query = some q) (hdue : q + r.routeWait ≤ s.tmr.elapsed) :
    ∃ t, execRouteWaitExpiry i.id p.program s = .next t ∧ s.pointSettled t i p r p.tokens := by
  obtain ⟨hi, -, hp, -⟩ := pointAt_mem h
  have hset := settlePoint_settled (s := s) (c := c) (r := r) hi hp (List.replicate p.tokens none)
  rw [List.length_replicate] at hset
  have hdue' : q + r.routeWait ≤ s.elapsed := hdue
  simp only [execRouteWaitExpiry, h, hq, State.when, hrun, Bool.true_and, decide_eq_true_eq, hdue', if_true]
  refine ⟨_, rfl, ?_⟩
  rw [State.pointSettled, event_fab]
  exact hset

end

/-! ### Register writes -/

theorem exec_registerWrite (bar : Byte) (off : U32) (size : Byte) (v : U64) (s : State) :
    exec (.registerWrite bar off size v) s = execRegisterWrite bar off size v s := rfl

theorem alive_of_working {s : State} (h : s.working = true) : s.alive = true := by
  rw [State.working, Bool.and_eq_true] at h
  exact h.1

theorem hasReg_of_mem {s : State} {r : Nat × Nat} (h : r ∈ s.blockRegs) : s.hasReg r.1 = true :=
  List.any_eq_true.2 ⟨r, h, by simp⟩

/-- An aligned write of 8 bytes to BAR0 goes to the register block of its offset. -/
theorem execRegisterWrite_bar0 {s : State} (hw : s.working = true) {off : U32} (hal : off.toNat % 8 = 0) (hsz : off.toNat + 8 ≤ 2 ^ 24) (v : U64) :
    execRegisterWrite 0 off 8 v s = .next (s.writeBar0 off.toNat v) := by
  have hr : cxlFunction.reaches 0 off.toNat 8 = true := by
    simp only [CxlFunction.reaches, cxlFunction]
    simpa using hsz
  simp [execRegisterWrite, alive_of_working hw, hw, hal, hr]

theorem inComponent_of_lt {off : Nat} (h : off < 0x100000) : inComponent off = false := by
  have hlo : ¬ cxlFunction.component ≤ off := Nat.not_le.2 h
  simp [inComponent, hlo]

theorem writeBar0_evc {s : State} {off : Nat} (hreg : s.hasReg off = true) (hlo : 0x20000 ≤ off) (hhi : off < 0x30000) (v : U64) :
    s.writeBar0 off v = s.writeEvc off v := by
  have hc : inComponent off = false := inComponent_of_lt (by omega)
  have h1 : ¬(queuesBase ≤ off ∧ off < evcBase) := by unfold queuesBase evcBase; omega
  have h2 : ¬ off < queuesBase := by unfold queuesBase; omega
  have h3 : off < timerBase := hhi
  simp [State.writeBar0, hreg, hc, h1, h2, h3]

/-- A write to a block that the firmware answers, at stage 9, is journaled and done. -/
theorem hostWrite_live {s : State} (h9 : s.boot.stage = 9) (off n : Nat) (f : State → State) :
    s.hostWrite off n f = f (s.journal 0 0xFFFE 0 (leBytes 3 off ++ leBytes 3 n)) := by
  simp [State.hostWrite, State.journalWrite, h9]

theorem writeBar0_power {s : State} {off : Nat} (hreg : s.hasReg off = true) (hlo : 0x40000 ≤ off) (hhi : off < 0x50000) (v : U64) :
    s.writeBar0 off v = s.hostWrite off v.toNat fun s => s.writePower off v.toNat := by
  have hc : inComponent off = false := inComponent_of_lt (by omega)
  have h1 : ¬(queuesBase ≤ off ∧ off < evcBase) := by unfold queuesBase evcBase; omega
  have h2 : ¬ off < queuesBase := by unfold queuesBase; omega
  have h3 : ¬ off < timerBase := by unfold timerBase; omega
  have h4 : ¬ off < powerBase := by unfold powerBase; omega
  have h5 : off < thermalBase := hhi
  simp [State.writeBar0, hreg, hc, h1, h2, h3, h4, h5]

theorem writeBar0_health {s : State} {off : Nat} (hreg : s.hasReg off = true) (hlo : 0x60000 ≤ off) (hhi : off < 0x70000) (v : U64) :
    s.writeBar0 off v = s.hostWrite off v.toNat fun s => s.writeHealth off v.toNat := by
  have hc : inComponent off = false := inComponent_of_lt (by omega)
  have h1 : ¬(queuesBase ≤ off ∧ off < evcBase) := by unfold queuesBase evcBase; omega
  have h2 : ¬ off < queuesBase := by unfold queuesBase; omega
  have h3 : ¬ off < timerBase := by unfold timerBase; omega
  have h4 : ¬ off < powerBase := by unfold powerBase; omega
  have h5 : ¬ off < thermalBase := by unfold thermalBase; omega
  have h6 : ¬ off < healthBase := by unfold healthBase; omega
  have h7 : off < linksBlock := hhi
  simp [State.writeBar0, hreg, hc, h1, h2, h3, h4, h5, h6, h7]

theorem hasReg_ringBase (s : State) : s.hasReg 0x20200 = true :=
  hasReg_of_mem (r := (evcBase + 0x200, s.evc.ringBase.toNat)) (by
    unfold State.blockRegs
    simp only [List.mem_append]
    exact .inl (.inl (.inl (.inl (.inl (.inr (List.mem_append_right _ (.head _))))))))

theorem hasReg_window (s : State) : s.hasReg 0x40008 = true :=
  hasReg_of_mem (r := (powerBase + 0x008, s.pwr.window)) (by
    unfold State.blockRegs
    simp only [List.mem_append]
    exact .inl (.inl (.inl (.inr (List.mem_append_left _ (.tail _ (.head _)))))))

theorem hasReg_kat (s : State) : s.hasReg 0x60008 = true :=
  hasReg_of_mem (r := (healthBase + 0x008, s.health.katReg)) (by
    unfold State.blockRegs
    simp only [List.mem_append]
    exact .inl (.inr (.tail _ (.head _))))

theorem execRegisterWrite_next (bar : Byte) (off : U32) (size : Byte) (v : U64) (s : State) :
    ∃ t, execRegisterWrite bar off size v s = .next t := by
  unfold execRegisterWrite
  dsimp only
  split
  · exact ⟨_, rfl⟩
  · split
    · exact ⟨_, rfl⟩
    · split
      · exact ⟨_, rfl⟩
      · split <;> exact ⟨_, rfl⟩

/-- Settles O60: one lemma for each row, from what the row's operations leave of contexts and fabric. -/
theorem stepPointAndRegisterCompletion : Obligations.StepPointAndRegisterCompletion := by
  refine ⟨?_, ?_, ?_, ?_⟩
  · intro s c v q g hrun hc hok hv hq hcond hrep hd hn hg
    have hg' : (c.cfgs.find? fun g => g.handle == v.desc.dec) = some g := by simpa [State.cfg?, hc] using hg
    have hh : g.handle = v.desc.dec := by simpa using List.find?_some hg'
    obtain ⟨c', n, m, since, gated, hc', hv', hinvs⟩ := compose_one hc hv hq hcond hrep hd hn hg'
    have hserv := Option.bind_eq_some_iff.2 ⟨c', hc', hv'⟩
    refine ⟨s.compose c.id, s.fab.nextInv, _, _, ?_, hserv, hq, rfl, rfl, rfl, hinvs, rfl, rfl, hh, rfl⟩
    rw [exec_stepCompose, execStepCompose_composable hrun hc hok]
  · intro s c v r q q1 k d n ts hrun hu hc hres hmir hv hcur hdec hch _ hdd hpi hpd hq hd hcan hrep hhost hstop hcmd he
    obtain ⟨b, run, ps, h⟩ := endStep_one hu hc hres hmir hv hdec hch hdd hpd hq hd hcan hrep hhost hstop hcmd he
    have hserv := congrArg (fun o : Option Ctx => o.bind (·.serving)) (ctx?_one (id := c.id) h rfl)
    refine ⟨s.endStep c v r, _, ?_, hserv, rfl, rfl, rfl, rfl, rfl⟩
    rw [exec_stepEnd, execStepEnd_done hrun (ctx?_one hc rfl) hv hcur (by rw [hdd]; rfl) hpi]
  · intro s c i im p r hrun h
    refine ⟨fun n v hst hdone hcount hhost hv hat hunit => ⟨v.startPoint c i im p r, ?_, startPoint_settled hat hcount hhost hunit⟩,
      fun q hq hdue => execRouteWaitExpiry_settled hrun h hq hdue⟩
    rw [exec_routingPointStart, execRoutingPointStart_started hrun h hst hdone hcount hv hat]
  · intro s hw
    refine ⟨fun v => ?_, fun v h9 => ⟨?_, ?_⟩, fun bar size off v => execRegisterWrite_next bar off size v s⟩
    · rw [exec_registerWrite, execRegisterWrite_bar0 hw (by decide) (by decide)]
      exact congrArg _ (writeBar0_evc (hasReg_ringBase s) (by decide) (by decide) v)
    · rw [exec_registerWrite, execRegisterWrite_bar0 hw (by decide) (by decide)]
      exact congrArg _ ((writeBar0_power (hasReg_window s) (by decide) (by decide) v).trans (hostWrite_live h9 _ _ _))
    · rw [exec_registerWrite, execRegisterWrite_bar0 hw (by decide) (by decide)]
      exact congrArg _ ((writeBar0_health (hasReg_kat s) (by decide) (by decide) v).trans (hostWrite_live h9 _ _ _))

end Sys2Proof.Machine
end

section
/-! PROOFS. Steps of a core and instructions of a stream engine (O22, O24, O25, O27, O28). -/

set_option Elab.async false

namespace Sys2Proof.Machine

/-! ### Steps of a core -/

section
variable {s : State} {core op : Nat} {t : Site} {w : SW} {act : Site → SW → List Tile → State → State}

theorem fireStep_go {ts : List Tile} (h : s.stepOf core op = some (t, w)) (hf : t.fire w = .go ts) :
    s.fireStep core op act = .next ((act t w ts (s.popIqs core w.pops)).again t w) := by
  simp [State.fireStep, h, hf]

theorem fireStep_mismatch (h : s.stepOf core op = some (t, w)) (hf : t.fire w = .mismatch) :
    s.fireStep core op act = .next ((s.countCore t.x { StCnt.zero with lenMismatch := 1 }).faultCore t.x .fault) := by
  simp [State.fireStep, h, hf, State.lenMismatch]

theorem fireStep_wait (h : s.stepOf core op = some (t, w)) (hf : t.fire w = .wait) : s.fireStep core op act = .next s := by
  simp [State.fireStep, h, hf]

end

theorem exec_mma (core : Nat) (sv : List Nat) (s : State) : exec (.mma core sv) s = execMma core sv s := rfl
theorem exec_mmaBt (core : Nat) (sv : List Nat) (s : State) : exec (.mmaBt core sv) s = execMmaBt core sv s := rfl
theorem execMma_mismatch {s : State} {core : Nat} {t : Site} {w : SW} (h : s.stepOf core 0x01 = some (t, w)) (hf : t.fire w = .mismatch)
    (sieve : List Nat) : execMma core sieve s = .next ((s.countCore t.x { StCnt.zero with lenMismatch := 1 }).faultCore t.x .fault) := by
  rw [execMma, State.mmaStep, fireStep_mismatch h hf]

theorem execMma_wait {s : State} {core : Nat} {t : Site} {w : SW} (h : s.stepOf core 0x01 = some (t, w)) (hf : t.fire w = .wait)
    (sieve : List Nat) : execMma core sieve s = .next s := by
  rw [execMma, State.mmaStep, fireStep_wait h hf]

theorem exec_vec1 (core : Nat) (s : State) : exec (.vec1 core) s = execVec1 core s := rfl
theorem exec_vec2 (core : Nat) (s : State) : exec (.vec2 core) s = execVec2 core s := rfl
theorem exec_vecacc (core : Nat) (s : State) : exec (.vecacc core) s = execVecacc core s := rfl
theorem exec_red (core : Nat) (s : State) : exec (.red core) s = execRed core s := rfl
theorem exec_cvt (core : Nat) (s : State) : exec (.cvt core) s = execCvt core s := rfl
theorem exec_emit (core : Nat) (s : State) : exec (.emit core) s = execEmit core s := rfl
theorem exec_move (core : Nat) (s : State) : exec (.move core) s = execMove core s := rfl
theorem exec_drop (core : Nat) (s : State) : exec (.drop core) s = execDrop core s := rfl

/-- Without a difference nothing is reported. -/
theorem sieveMismatches_zero (s : State) (core acc : Nat) : s.sieveMismatches core acc 0 = s := by
  simp [State.sieveMismatches, Nat.repeat]

/-- Settles O22: a firing step with two tiles; the Sieve compares nothing when it is given nothing. -/
theorem matrixSteps : Obligations.MatrixSteps := by
  intro s core t w a b hf u op bt hop hu
  have hstep : ∀ sieve, s.mmaStep core op bt sieve = .next ((u.sieveMismatches core w.acc
      (sieveHits bt w.clr w.passes a b (t.x.accs.getD w.acc Acc.empty) sieve)).again t w) := by
    intro sieve
    rw [State.mmaStep, fireStep_go hop hf, hu]
  have hnone : s.mmaStep core op bt [] = .next (u.again t w) := by
    rw [hstep []]
    exact congrArg (fun v : State => Host.Outcome.next (v.again t w)) (sieveMismatches_zero u core w.acc)
  refine ⟨fun h1 h2 => ?_, fun h1 h2 => ?_, fun sieve n hn => ⟨fun h1 h2 => ?_, fun h1 h2 => ?_⟩⟩
  · rw [exec_mma, execMma, ← h1, ← h2, hnone]
  · rw [exec_mmaBt, execMmaBt, ← h1, ← h2, hnone]
  · rw [exec_mma, execMma, ← h1, ← h2, hstep, hn]
  · rw [exec_mmaBt, execMmaBt, ← h1, ← h2, hstep, hn]

/-- Element (i, j) of a vector step. -/
theorem vecOver_data (vr vc tr tc : Nat) (p : Bool) (f : Nat → Nat → Nat × Nat × Nat) {i j : Nat} (hi : i < 32) (hj : j < 32) :
    (vecOver vr vc tr tc p f).data.getD (32 * i + j) 0 = if i < vr ∧ j < vc then (f i j).1 else 0 := by
  have hix : 32 * i + j < 1024 := by omega
  have hrow : (32 * i + j) / 32 = i := by omega
  have hcol : (32 * i + j) % 32 = j := by omega
  simp only [vecOver, List.map_map, List.getD_eq_getElem?_getD, List.getElem?_map, List.getElem?_range hix, Option.map_some,
    Option.getD_some, Function.comp, hrow, hcol, Bool.and_eq_true, decide_eq_true_eq]
  exact apply_ite Prod.fst _ _ _

/-- Settles O24: each is a firing step. -/
theorem vectorSteps : Obligations.VectorSteps := by
  intro s core t w a b
  refine ⟨fun hop hf => ?_, fun hop hf => ?_, fun hop hf => ?_, fun hop hf => ?_⟩
  · rw [exec_vec1, execVec1, fireStep_go hop hf]
  · rw [exec_vec2, execVec2, fireStep_go hop hf]
  · refine ⟨_, rfl, rfl, rfl, rfl, rfl, rfl, fun i j hi hj => vecOver_data _ _ _ _ _ _ hi hj, ?_⟩
    rw [exec_vecacc, execVecacc, fireStep_go hop hf]
  · rw [exec_red, execRed, fireStep_go hop hf]

/-- Settles O25: firing steps, and the two ways of not firing. -/
theorem outputSteps : Obligations.OutputSteps := by
  refine ⟨fun s core t w ts a hf => ⟨fun hop hts y cnt hy => ?_, fun hop y cnt acc hacc hy => ?_, fun hop hts => ?_, fun hop => ?_⟩,
    fun s core t w => ⟨fun sieve hop => ⟨fun hf => ?_, fun hf => ?_⟩, fun hop => ⟨fun hf => ?_, fun hf => ?_⟩⟩⟩
  · rw [exec_cvt, execCvt, fireStep_go hop hf, hts]
    simp only [hy]
  · have hone : fp32One = 0x3F800000 := rfl
    rw [exec_emit, execEmit, fireStep_go hop hf, hacc]
    simp only [hone, hy]
  · rw [exec_move, execMove, fireStep_go hop hf, hts]
  · rw [exec_drop, execDrop, fireStep_go hop hf]
  · exact execMma_mismatch hop hf sieve
  · exact execMma_wait hop hf sieve
  · exact (exec_move core s).trans (fireStep_mismatch hop hf)
  · exact (exec_move core s).trans (fireStep_wait hop hf)

/-! ### Instructions of a stream engine -/

theorem exec_ldb (core n : Nat) (s : State) : exec (.ldb core n) s = execLdb core n s := rfl
theorem exec_streamLoop (core n : Nat) (s : State) : exec (.streamLoop core n) s = execStreamLoop core n s := rfl
theorem exec_stride (core n : Nat) (s : State) : exec (.stride core n) s = execStride core n s := rfl
theorem exec_shape (core n : Nat) (s : State) : exec (.shape core n) s = execShape core n s := rfl
theorem exec_fmt (core n : Nat) (s : State) : exec (.fmt core n) s = execFmt core n s := rfl
theorem exec_gather (core n : Nat) (s : State) : exec (.gather core n) s = execGather core n s := rfl
theorem exec_wait (core n : Nat) (s : State) : exec (.wait core n) s = execWait core n s := rfl
theorem exec_signal (core n : Nat) (s : State) : exec (.signal core n) s = execSignal core n s := rfl
theorem exec_streamJump (core n : Nat) (s : State) : exec (.streamJump core n) s = execStreamJump core n s := rfl
theorem exec_endp (core n : Nat) (s : State) : exec (.endp core n) s = execEndp core n s := rfl
theorem exec_run (core n : Nat) (s : State) : exec (.run core n) s = execRun core n s := rfl
theorem exec_runIteration (core n : Nat) (s : State) : exec (.runIteration core n) s = execRunIteration core n s := rfl

section
variable {s : State} {core n : Nat} {t : Site} {e : Engine} {w : Nat}

theorem setting_of_instr {op : Nat} (h : s.instrOf core n op = some (t, e, w)) (f : Engine → Nat → Engine) :
    s.setting core n op f = .next (s.modEngine core n fun _ => { f e w with ip := e.ip + 1 }) := by
  simp [State.setting, h]

end

/-- Settles O27: by the instruction that stands at the engine's IP. -/
theorem engineInstructions : Obligations.EngineInstructions := by
  intro s core n t e w
  refine ⟨fun h h0 => ?_, fun h h2 => ?_, fun h => ?_, fun h => ?_, fun h => ?_, fun h => ?_, fun h => ?_, fun h => ?_, fun h => ?_,
    fun h => ?_, fun h => ?_⟩
  · rw [exec_ldb, execLdb, setting_of_instr h, h0]
    rfl
  · rw [exec_ldb, execLdb, setting_of_instr h, h2]
    rfl
  · rw [exec_streamLoop, execStreamLoop, setting_of_instr h]
  · rw [exec_stride, execStride, setting_of_instr h]
  · rw [exec_shape, execShape, setting_of_instr h]
  · rw [exec_fmt, execFmt, setting_of_instr h]
  · rw [exec_gather, execGather, setting_of_instr h]
  · rw [exec_wait, execWait, h]
  · rw [exec_signal, execSignal, h]
    rfl
  · rw [exec_streamJump, execStreamJump, h]
  · rw [exec_endp, execEndp, h]

/-! ### RUN and its iterations -/

section
variable {s s0 : State} {core n : Nat} {t t0 : Site} {e e0 : Engine} {r : RunSt}

theorem outOfBound_of_no_gathers (h : e.gathers = []) (r : RunSt) : e.outOfBound r = false := by simp [Engine.outOfBound, h]

/-- One iteration, by its mode. -/
def State.iteration (s : State) (t : Site) (eng : Nat) (e : Engine) (r : RunSt) : State :=
  match r.mode with
  | 0 => s.iterRead t eng e r
  | 1 => s.iterWrite t eng e r
  | _ => s.iterCopy t eng e r

theorem iteration_read (h : r.mode = 0) : s.iteration t n e r = s.iterRead t n e r := by simp only [State.iteration, h]
theorem iteration_write (h : r.mode = 1) : s.iteration t n e r = s.iterWrite t n e r := by simp only [State.iteration, h]
theorem iteration_copy (h : r.mode = 2) : s.iteration t n e r = s.iterCopy t n e r := by simp only [State.iteration, h]

/-- An iteration that neither waits nor gathers checks what it reads and does what its mode says. -/
theorem execRunIteration_plain (h0 : s0.engineOf core n = some (t0, e)) (hrun : e.run = some r) (hwait : r.waitEn = false)
    (hg : e.gathers = []) (hidx : r.idx ≠ [])
    (heos : (r.mode = 1 && ((t0.x.oqs.getD r.queue []).head?.map fun h => h.hdr.kind) == some 1) = false)
    (hs : s = s0.iterTouch core n { r with waited := true }) (h : s.engineOf core n = some (t, e0)) :
    execRunIteration core n s0 = .next (s.iteration t n e { r with waited := true }) := by
  have hne : r.idx.isEmpty = false := by simpa using hidx
  have hgo : (r.waitEn && !r.waited) = false := by simp [hwait]
  subst hs
  simp only [execRunIteration, h0, hrun, hne, heos, hgo, hg, List.mergeSort_nil, State.takeAll, Bool.false_and, Bool.false_eq_true,
    if_false, h]
  rfl

/-- An iteration of mode 0 feeds the tile it reads. -/
theorem iterRead_tile {tile : Tile} (hoob : e.outOfBound r = false) (hroom : t.feedRoom r.queue = true)
    (hvr : validAt e.rows (e.tileAt r).1 ≠ 0) (hvc : validAt e.cols (e.tileAt r).2 ≠ 0)
    (htile : s.readTile t n e r r.queue (validAt e.rows (e.tileAt r).1) (validAt e.cols (e.tileAt r).2) (t.x.fed.getD r.queue 0) = some tile) :
    s.iterRead t n e r = ((s.modCore t.x.idx fun x => { x with fed := bump x.fed r.queue }).feedIq t r.queue tile).advance t.x.idx n e r := by
  simp only [State.iterRead, hoob, hroom, hvr, hvc, htile, decide_false, Bool.or_self, Bool.and_false, Bool.false_eq_true, if_false,
    Bool.not_true]

/-- An iteration of mode 1 writes the tile at the head of its queue. -/
theorem iterWrite_tile {tile : Tile} {rest : List Tile} {u : State} (hoob : e.outOfBound r = false)
    (hq : t.x.oqs.getD r.queue [] = tile :: rest) (hvr : validAt e.rows (e.tileAt r).1 ≠ 0) (hvc : validAt e.cols (e.tileAt r).2 ≠ 0)
    (htr : tile.hdr.transposed = e.transposed ∨ e.scheme = 0)
    (hu : (s.takeOq t.x.idx r.queue).writeTile t n e r tile (validAt e.rows (e.tileAt r).1) (validAt e.cols (e.tileAt r).2) = some u) :
    s.iterWrite t n e r = u.advance t.x.idx n e r := by
  have hfmt : (tile.hdr.transposed != e.transposed && e.scheme != 0) = false := by rcases htr with h | h <;> simp [h]
  simp only [State.iterWrite, hoob, hq, hvr, hvc, hu, hfmt, List.head?_cons, decide_false, Bool.or_self, Bool.and_false, Bool.false_eq_true,
    if_false]

/-- An iteration of mode 2 copies a block. -/
theorem iterCopy_block {a b : Nat} (hoob : e.outOfBound r = false) (ha : s.access t n e (e.origin r) e.runB false = some a)
    (hb : s.access t n e (e.blockDst r.n) e.runB true = some b) :
    s.iterCopy t n e r = (s.copyRange a b e.runB).advance t.x.idx n e r := by
  simp only [State.iterCopy, hoob, ha, hb, Bool.false_eq_true, if_false]

end

/-- Settles O28: the start of a nest, an iteration of each mode, and the end-of-stream at the nest's end. -/
theorem engineRuns : Obligations.EngineRuns := by
  intro s core n t e w
  refine ⟨fun h hblocks => ?_, fun r s0 t0 e0 h0 hrun hwait hg hidx hs h hcore => ?_, fun r h hrun hidx hroom => ?_⟩
  · have hok : ¬(siMode w = 2 && !e.blocksOk) = true := by
      rcases hblocks with hm | hb
      · simp [hm]
      · simp [hb]
    rw [exec_run, execRun, h]
    dsimp only
    rw [if_neg hok]
    exact ⟨_, rfl, rfl, rfl, rfl, rfl, rfl⟩
  · have hoob := outOfBound_of_no_gathers hg { r with waited := true }
    rw [exec_runIteration]
    refine ⟨fun tile hm hroom hvr hvc htile => ?_, fun tile rest u hm hss htile hkind hvr hvc htr hu => ?_, fun a b hm ha hb => ?_⟩
    · rw [execRunIteration_plain h0 hrun hwait hg hidx (by simp [hm]) hs h, iteration_read (r := { r with waited := true }) hm,
        iterRead_tile (r := { r with waited := true }) hoob hroom hvr hvc htile, hcore]
    · rw [hss] at h0 ⊢
      rw [hss] at hs
      obtain ⟨rfl, rfl⟩ : t0 = t ∧ e = e0 := by simpa using h0.symm.trans h
      have heos : (r.mode = 1 && ((t0.x.oqs.getD r.queue []).head?.map fun h => h.hdr.kind) == some 1) = false := by
        rw [htile]
        simp [hkind]
      rw [← hcore] at hu
      rw [execRunIteration_plain h0 hrun hwait hg hidx heos hs h, iteration_write (r := { r with waited := true }) hm,
        iterWrite_tile (r := { r with waited := true }) hoob htile hvr hvc htr hu, hcore]
    · rw [execRunIteration_plain h0 hrun hwait hg hidx (by simp [hm]) hs h, iteration_copy (r := { r with waited := true }) hm,
        iterCopy_block (r := { r with waited := true }) hoob ha hb, hcore]
  · rw [exec_runIteration, execRunIteration, h]
    simp only [hrun, hidx, List.isEmpty_nil, if_true, State.closeRun, hroom]

end Sys2Proof.Machine
end

section
/-! PROOFS. Control steps, tickets, tiles, credits and spill (O26, O29). -/

set_option Elab.async false

namespace Sys2Proof.Machine

/-! ### Control steps -/

theorem exec_oneos (core : Nat) (s : State) : exec (.oneos core) s = execOneos core s := rfl
theorem exec_jump (core : Nat) (s : State) : exec (.jump core) s = execJump core s := rfl
theorem exec_ldc (core : Nat) (s : State) : exec (.ldc core) s = execLdc core s := rfl
theorem exec_loop (core : Nat) (s : State) : exec (.loop core) s = execLoop core s := rfl
theorem exec_phase (core : Nat) (s : State) : exec (.phase core) s = execPhase core s := rfl
theorem exec_eosout (core : Nat) (s : State) : exec (.eosout core) s = execEosout core s := rfl
theorem exec_endStep (core : Nat) (s : State) : exec (.endStep core) s = execEndStep core s := rfl
theorem exec_ticket (core : Nat) (s : State) : exec (.ticket core) s = execTicket core s := rfl
theorem exec_ticketRequest (core rail no : Nat) (s : State) :
    exec (.ticketRequest core rail no) s = execTicketRequest core rail no s := rfl
theorem exec_ticketReply (core : Nat) (s : State) : exec (.ticketReply core) s = execTicketReply core s := rfl

section
variable {s : State} {core : Nat} {t : Site} {w : SW}

/-- Every named queue has an end-of-stream at its head. -/
theorem execOneos_all (h : s.stepOf core 0x10 = some (t, w)) (heos : ∀ q ∈ w.ins, ∃ x, t.head q = some x ∧ x.hdr.kind = 1) :
    execOneos core s = .next ((s.popIqs core w.ins).goto t w.tgt) := by
  have hsome : (w.ins.map t.head).all (·.isSome) = true := by
    rw [List.all_map, List.all_eq_true]
    intro q hq
    obtain ⟨x, hx, -⟩ := heos q hq
    simp [hx]
  have hall : ((w.ins.map t.head).map fun h => (h.map fun x => x.hdr.kind) == some 1).all id = true := by
    rw [List.map_map, List.all_map, List.all_eq_true]
    intro q hq
    obtain ⟨x, hx, hk⟩ := heos q hq
    simp [hx, hk]
  simp only [execOneos, h, hsome, hall, Bool.not_true, Bool.false_eq_true, if_false, if_true]

/-- No named queue has an end-of-stream at its head. -/
theorem execOneos_none (h : s.stepOf core 0x10 = some (t, w)) (hne : w.ins ≠ [])
    (heos : ∀ q ∈ w.ins, ∃ x, t.head q = some x ∧ x.hdr.kind ≠ 1) : execOneos core s = .next (s.goto t (t.x.pc + 1)) := by
  have hsome : (w.ins.map t.head).all (·.isSome) = true := by
    rw [List.all_map, List.all_eq_true]
    intro q hq
    obtain ⟨x, hx, -⟩ := heos q hq
    simp [hx]
  have hany : ((w.ins.map t.head).map fun h => (h.map fun x => x.hdr.kind) == some 1).any id = false := by
    rw [List.map_map, List.any_map, List.any_eq_false]
    intro q hq
    obtain ⟨x, hx, hk⟩ := heos q hq
    simp [hx, hk]
  have hall : ((w.ins.map t.head).map fun h => (h.map fun x => x.hdr.kind) == some 1).all id = false := by
    obtain ⟨q, hq⟩ := List.exists_mem_of_ne_nil _ hne
    obtain ⟨x, hx, hk⟩ := heos q hq
    rw [List.map_map, List.all_map, List.all_eq_false]
    exact ⟨q, hq, by simp [hx, hk]⟩
  simp only [execOneos, h, hsome, hany, hall, Bool.not_true, Bool.false_eq_true, if_false]

theorem execLoop_succ (h : s.stepOf core 0x13 = some (t, w)) {c : Nat} (hc : t.x.loops.getD (w.imm % 4) 0 = c + 1) :
    execLoop core s = .next ((s.modCore core fun x => { x with loops := x.loops.set (w.imm % 4) c }).goto t
      (if c = 0 then t.x.pc + 1 else w.tgt)) := by
  have hne : c + 1 ≠ 0 := Nat.succ_ne_zero c
  simp only [execLoop, h, hc, hne, if_false, Nat.add_sub_cancel]

theorem withPhase_eq (v : Inv) (pref : Nat → Nat) (ph tick : Nat) : v.withPhase pref ph tick =
    if v.phaseAt = some tick ∧ pref v.phaseTok < pref ph then v else { v with phaseTok := ph, phaseAt := some tick } := by
  simp [Inv.withPhase]

end

/-! ### Tickets -/

section
variable {s : State} {core rail no : Nat} {t : Site} {q : TicketReq} {r : Rail} {k : RailEnt}

theorem underWay_none {s : State} {l : SvcLoad} (h : ∀ p ∈ s.fab.svc, p.load ≠ l) : s.underWay l = 0 := by
  simpa [State.underWay] using h

/-- A request that has arrived and was not seen before draws the counter. -/
theorem execTicketRequest_fresh (hs : s.site core = some t) (ht : t.x.ticket = some q) (hrail : q.rail = rail) (hno : q.reqNo = no)
    (harr : ∀ p ∈ s.fab.svc, p.load ≠ .ticketRequest core rail no) (hr : s.fab.rails = [r]) (hinv : r.inv = t.i.id)
    (hrr : r.rail = rail) (hk : t.im.rails[rail]? = some k)
    (htag : r.tags.find? (fun g => g.1 == core && g.2.1 == no) = none) :
    execTicketRequest core rail no s = .next (((s.modFab fun f => { f with
      rails := [{ r with counter := (r.counter + k.inc) % 2 ^ 32,
                         tags := (r.tags.filter fun g => g.1 != core) ++ [(core, no, r.counter)] }] }).modCore core fun x =>
      { x with ticket := some ⟨rail, no, some r.counter⟩ }).sendService 0 k.core core (.ticketReply core rail no)) := by
  simp [execTicketRequest, hs, ht, hr, hinv, hrr, hrail, hno, underWay_none harr, htag, hk, State.modFab]

/-- A repeated request gets its old value again. -/
theorem execTicketRequest_repeated (hs : s.site core = some t) (ht : t.x.ticket = some q) (hrail : q.rail = rail) (hno : q.reqNo = no)
    (harr : ∀ p ∈ s.fab.svc, p.load ≠ .ticketRequest core rail no) (hr : s.fab.rails = [r]) (hinv : r.inv = t.i.id)
    (hrr : r.rail = rail) (hk : t.im.rails[rail]? = some k) {v : Nat}
    (htag : r.tags.find? (fun g => g.1 == core && g.2.1 == no) = some (core, no, v)) :
    execTicketRequest core rail no s =
      .next ((s.modCore core fun x => { x with ticket := some ⟨rail, no, some v⟩ }).sendService 0 k.core core
        (.ticketReply core rail no)) := by
  simp [execTicketRequest, hs, ht, hr, hinv, hrr, hrail, hno, underWay_none harr, htag, hk]

theorem execTicketReply_arrived {v : Nat} {ws : List U64} {word : U64} (hs : s.site core = some t)
    (ht : t.x.ticket = some ⟨rail, no, some v⟩) (harr : ∀ p ∈ s.fab.svc, p.load ≠ .ticketReply t.x.idx rail no)
    (hws : t.im.stepProg? t.st.stepProg = some ws) (hword : ws[t.x.pc]? = some word) :
    execTicketReply core s =
      if v < ((((t.x.engines[bits (SW.of word.toNat).sub 3 2]?).map (·.pool)).getD []).getD ((SW.of word.toNat).imm / 16) 0).toNat % 2 ^ 32 then
        .next (((s.modCore core fun x => { x with ticket := none }).modCore core fun x => { x with
          tickets := x.tickets.set ((SW.of word.toNat).sub % 4) v
          drawn := x.drawn.modify ((SW.of word.toNat).sub % 4) fun d => (d.1 + 1, d.2) }).goto t (t.x.pc + 1))
      else .next ((s.modCore core fun x => { x with ticket := none }).goto t (SW.of word.toNat).tgt) := by
  have hat : s.replyAt t.x = some v := by simp [State.replyAt, ht, underWay_none harr]
  have hat' : ((t.im.stepProg? t.st.stepProg).bind fun ws => ws[t.x.pc]?) = some word := by rw [hws, Option.bind_some, hword]
  simp only [execTicketReply, hs, hat, hat']

end

/-- Settles O26: by the step that stands at the core's program counter, and the request the core waits with. -/
theorem controlSteps : Obligations.ControlSteps := by
  refine ⟨fun s core t w => ⟨fun h => ⟨fun ha => ?_, fun hne hn => ?_⟩, fun h => ?_, fun h => ?_, fun h c hc => ?_, fun h => ?_,
    fun h hroom => ?_, fun h => ?_⟩, fun s core t w => ⟨fun h => ?_, fun rail no q r k hs ht hrail hno harr hr hinv hrr hk =>
      ⟨fun htag => ?_, fun v htag => ?_⟩, fun v limit rail no ws word hs ht harr hws hword hw hlim => ?_⟩⟩
  · rw [exec_oneos, execOneos_all h ha]
  · rw [exec_oneos, execOneos_none h hne hn]
  · rw [exec_jump, execJump, h]
  · rw [exec_ldc, execLdc, h]
  · rw [exec_loop, execLoop_succ h hc]
  · rw [exec_phase, execPhase, h]
    simp only [withPhase_eq]
    rfl
  · rw [exec_eosout, execEosout, h]
    simp only [hroom, if_true]
  · rw [exec_endStep, execEndStep, h]
  · rw [exec_ticket, execTicket, h]
  · rw [exec_ticketRequest, execTicketRequest_fresh hs ht hrail hno harr hr hinv hrr hk htag]
  · rw [exec_ticketRequest, execTicketRequest_repeated hs ht hrail hno harr hr hinv hrr hk htag]
  · rw [exec_ticketReply, execTicketReply_arrived hs ht harr hws hword, hlim, hw]

/-! ### Tiles, credits and spill -/

theorem exec_tileSend (core oq : Nat) (s : State) : exec (.tileSend core oq) s = execTileSend core oq s := rfl
theorem exec_creditReturn (ch : ChanId) (s : State) : exec (.creditReturn ch) s = execCreditReturn ch s := rfl
theorem exec_tileArrival (ch : ChanId) (rx : Option Tile) (hop : Element) (s : State) :
    exec (.tileArrival ch rx hop) s = execTileArrival ch rx hop s := rfl
theorem exec_spillEntry (ch : ChanId) (s : State) : exec (.spillEntry ch) s = execSpillEntry ch s := rfl
theorem exec_spillOut (ch : ChanId) (s : State) : exec (.spillOut ch) s = execSpillOut ch s := rfl
theorem exec_spillReturn (ch : ChanId) (s : State) : exec (.spillReturn ch) s = execSpillReturn ch s := rfl

section
variable {s : State} {ch : ChanId} {h : Chan} {x : Core} {im : Image} {c : Ctx} {g : Cfg} {c' : Chan} {st : Station} {sent tile : Tile}

theorem chan?_modChan {f : Chan → Chan} (hch : s.chan? ch = some h) (hf : ∀ k, (f k).id = k.id) :
    (s.modChan ch f).chan? ch = some (f h) := by
  have hid : h.id = ch := by simpa using List.find?_some hch
  have hpred : ((fun k : Chan => k.id == ch) ∘ fun k => if k.id == ch then f k else k) = fun k => k.id == ch := by
    funext k
    simp only [Function.comp]
    split <;> simp_all
  rw [State.chan?, State.modChan, State.modFab, List.find?_map, hpred]
  rw [State.chan?] at hch
  simp [hch, hid]

/-- A channel that is no link of a chain hands no tile on. -/
theorem forward_unlinked (hch : s.chan? h.id = some c') (hl : c'.link = false) : s.forward h = s := by
  simp only [State.forward, hch, hl]
  split <;> rfl

/-- A tile at a core of its context arrives as it was sent. -/
theorem execTileArrival_sent (hrun : s.running = true) (hch : s.chan? ch = some h) (hf : h.flight.head? = some sent)
    (hc : s.ctx? ch.ctx = some c) (hg : s.cfg? ch.ctx ch.handle = some g) (hx : s.core? h.dst = some x) (ho : x.occupant = some c.uid)
    (hst : (g.image.stationOf h.dst).bind g.image.station? = some st) (hop : Element) :
    execTileArrival ch none hop s = .next (s.arrive h g x st sent none hop) := by
  simp [execTileArrival, hch, hf, hc, hg, hx, ho, hst, State.when, hrun]

/-- One that passes the checks of its tag and CRC enters. -/
theorem arrive_good (hcrc : sent.crcOk = true) (hstr : sent.hdr.stream = h.id.stream) (hctx : sent.hdr.ctx = h.id.ctx) (hop : Element) :
    s.arrive h g x st sent none hop =
      (s.modChan h.id fun k => { k with flight := k.flight.drop 1 }).enterTile h x st sent hop := by
  simp [State.arrive, hcrc, hstr, hctx]

/-- A data tile that passes every check enters the queue. -/
theorem enterTile_data (hgate : s.gatedAt h = none) (hk : sent.hdr.kind = 0) (hep : sent.hdr.epoch = x.epoch) (hseq : sent.hdr.seq = h.expSeq)
    (hend : x.ended = false) (hfmt : sent.hdr.fmt + 16 * sent.hdr.scheme = st.iq h.dstQ % 64) (hop : Element) :
    s.enterTile h x st sent hop = (s.modChan h.id fun k => { k with expSeq := k.expSeq + 1 }).deliver h x sent true := by
  simp [State.enterTile, hgate, hk, hep, hseq, hend, hfmt]

theorem enterTile_gated {i k : Nat} (hgate : s.gatedAt h = some (i, k)) (hop : Element) :
    s.enterTile h x st sent hop = (s.count (some i) k { StCnt.zero with lateDiscards := 1 }).deliver h x sent false := by
  simp [State.enterTile, hgate]

/-- A tile goes into the Drip tray while nothing of its stream lies in HBM. -/
theorem spillTile_drip (hh : h.hbm = []) (hroom : s.dripRoom x im tile = true) :
    s.spillTile h x im tile = ((((s.popOq x.idx h.srcQ).modChan h.id fun k =>
        { k with spillCount := min (2 ^ 32 - 1) (k.spillCount + 1) }).modChan h.id fun k =>
          { k with drip := k.drip ++ [({ tile with hdr := { tile.hdr with spilled := true } } : Tile).sealed] }).countCore x
        { StCnt.zero with spillTiles := 1, spillPeak := min (2 ^ 16 - 1) (h.drip.length + 1) }).putDrip x im
          ({ tile with hdr := { tile.hdr with spilled := true } } : Tile).sealed := by
  simp only [State.spillTile, hh, hroom, List.isEmpty_nil, Bool.and_self, if_true, List.length_nil, Nat.add_zero]
  rfl

end

/-- Settles O29: each row under its own guard. -/
theorem tileAndSpillRows : Obligations.TileAndSpillRows := by
  refine ⟨fun s hrun => ⟨fun core oq x tile h hx ht hsp hns hcr => ?_, fun ch h hch ho hl => ?_,
    fun ch hop h sent c g x st hch hf hc hg hx hocc hst hcrc hstr hctx hk hep hseq hend hfmt => ?_⟩,
    fun s ch h x im hrun hch => ⟨fun t w ht hsp hns hb hcr hcons => ?_, fun tile hx him ht hs hsp hcr hh hroom => ?_,
      fun tile rest u y hx him hs hsp hcr hd hh hy hu => ?_, fun hx him hs hsp hcr hd => ?_⟩⟩
  · rw [exec_tileSend]
    simp only [execTileSend, hx, ht, hsp, State.when, hrun, hcr, hns, Bool.not_false, Bool.and_self, if_true]
  · rw [exec_creditReturn]
    have hid : h.id = ch := by simpa using List.find?_some hch
    have hback := chan?_modChan (f := fun k => { k with owed := k.owed - 1, credits := k.credits + 1 }) hch fun _ => rfl
    rw [← hid] at hback
    simp only [execCreditReturn, hch, State.when, hrun, ho, decide_true, Bool.and_self, if_true]
    rw [← hid, forward_unlinked hback hl]
  · rw [exec_tileArrival, execTileArrival_sent hrun hch hf hc hg hx hocc hst, arrive_good hcrc hstr hctx]
    refine ⟨fun hgate => ?_, fun i k hgate => ?_⟩
    · rw [enterTile_data (s := s.modChan h.id _) hgate hk hep hseq hend hfmt]
    · rw [enterTile_gated (s := s.modChan h.id _) hgate]
  · rw [exec_spillEntry]
    simp only [execSpillEntry, hch, ht, State.when, hsp, hns, hb, hcr, hcons, beq_self_eq_true, Bool.not_false, Bool.and_self, if_true]
  · rw [exec_spillOut]
    simp only [execSpillOut, hch, hx, ht, him, State.when, hrun, hs, hsp, hcr, beq_self_eq_true, Bool.not_false, Bool.and_self, if_true,
      spillTile_drip hh hroom]
  · have hsome : (u.chan? ch).isNone = false := by simpa using hu
    rw [exec_spillReturn]
    simp only [execSpillReturn, hch, hx, him, hrun, hs, hsp, hcr, beq_self_eq_true, Bool.and_self, Bool.not_true, Bool.false_eq_true,
      if_false, hd, ← hy, hsome]
  · rw [exec_spillReturn]
    simp only [execSpillReturn, hch, hx, him, hrun, hs, hsp, hcr, beq_self_eq_true, Bool.and_self, Bool.not_true, Bool.false_eq_true,
      if_false, hd, Bool.and_eq_true, decide_eq_true_eq]

end Sys2Proof.Machine
end

section
/-! PROOFS. Service packets, trees and wavefronts (O30). -/

set_option Elab.async false

namespace Sys2Proof.Machine

/-! ### Service packets -/

theorem exec_servicePacketReceive (id : Nat) (ok : Bool) (s : State) :
    exec (.servicePacketReceive id ok) s = execServicePacketReceive id ok s := rfl
theorem exec_servicePacketRepeat (id : Nat) (s : State) : exec (.servicePacketRepeat id) s = execServicePacketRepeat id s := rfl
theorem exec_treeRebuildAsChain (ctx handle stream : Nat) (s : State) :
    exec (.treeRebuildAsChain ctx handle stream) s = execTreeRebuildAsChain ctx handle stream s := rfl
theorem exec_wavefrontSourceSwitch (core : Nat) (s : State) :
    exec (.wavefrontSourceSwitch core) s = execWavefrontSourceSwitch core s := rfl
theorem exec_coreSwitch (core : Nat) (s : State) : exec (.coreSwitch core) s = execCoreSwitch core s := rfl

section
variable {s : State} {id : Nat} {p : SvcPkt}

/-- A packet whose turn it is passes its hop, and the others that wait there are passed over. -/
theorem execServicePacketReceive_turn (hrun : s.running = true) (hp : s.fab.svc.find? (fun p => p.id == id) = some p) (ok : Bool)
    {ps : List SvcPkt}
    (hps : ps = s.fab.svc.map fun x => if x.id != id && x.waiting && x.hop == p.hop then { x with passed := x.passed + 1 } else x)
    (hturn : s.nextService p.hop = some id) :
    execServicePacketReceive id ok s = .next
      (if ok = false then { s with fab := { s.fab with
         svcDrops := min (2 ^ 32 - 1) (s.fab.svcDrops + 1)
         svc := ps.map fun x => if x.id == id then { x with waiting := false, passed := 0 } else x } }
       else if p.pos + 1 < p.route.length then { s with fab := { s.fab with
         svc := ps.map fun x => if x.id == id then { x with pos := x.pos + 1, passed := 0 } else x } }
       else ({ s with fab := { s.fab with svc := ps.filter fun p => p.id != id } } : State).serviceArrives p) := by
  subst hps
  cases ok with
  | false => simp [execServicePacketReceive, hp, hrun, hturn, State.passOver, State.modFab, satAdd]
  | true =>
    by_cases hpos : p.pos + 1 < p.route.length <;>
    simp [execServicePacketReceive, hp, hrun, hturn, State.passOver, State.modFab, hpos]

/-- A packet whose turn it is not stays. -/
theorem execServicePacketReceive_stays (hp : s.fab.svc.find? (fun p => p.id == id) = some p) (ok : Bool)
    (hturn : s.nextService p.hop ≠ some id) : execServicePacketReceive id ok s = .next s := by
  simp [execServicePacketReceive, hp, hturn]

end

/-! ### Switch rows -/

section
variable {s : State} {core : Nat} {w : Wave} {c : Ctx} {g d : Cfg} {st : Station} {x : Core}

/-- A core outside every active configuration switches as a source. -/
theorem switchRow_outside (hw : s.waveOf core = some w) (hc : s.ctx? w.ctx = some c) (hg : s.cfg? w.ctx w.handle = some g)
    (hold : s.oldCfg w core = none) (hinv : (s.core? core).bind (·.inv) = none) : s.switchRow true core = s.switchCore w c g core := by
  simp [State.switchRow, hw, hc, hg, hold, hinv, sourceIn]

/-- A core of a displaced configuration whose fences have left and that has drained switches: a source at once, any other when
fences stand at the heads of its queues. -/
theorem switchRow_drained (hw : s.waveOf core = some w) (hc : s.ctx? w.ctx = some c) (hg : s.cfg? w.ctx w.handle = some g)
    (hold : s.oldCfg w core = some d) (hheld : s.hold c d core = some s)
    (hst : (d.image.stationOf core).bind d.image.station? = some st) (hx : s.core? core = some x) (hinv : x.inv = none)
    (hfence : x.fenceSent = true) (hdrain : (s.setCore x).coreDrained x st d.image = true)
    (hheads : ∀ q ∈ st.streamIqs, ∃ f, (x.iqs.getD q []).head? = some f ∧ f.hdr.kind = 2) :
    s.switchRow st.streamIqs.isEmpty core = ((s.setCore x).popIqs core st.streamIqs).switchCore w c g core := by
  have hsrc : sourceIn (some d) core = st.streamIqs.isEmpty := by simp only [sourceIn, hst]
  have hall : (st.streamIqs.all fun q => ((x.iqs.getD q []).head?.map fun t => t.hdr.kind) == some 2) = true := by
    rw [List.all_eq_true]
    intro q hq
    obtain ⟨f, hf, hk⟩ := hheads q hq
    rw [hf, Option.map_some, hk]
    rfl
  simp only [State.switchRow, hw, hc, hg, hold, hsrc, hheld, hst, hx, hinv, hall, hfence, hdrain, Option.isNone_none, Bool.or_true, Bool.true_or,
    Bool.and_self, Bool.not_true, Bool.false_eq_true, if_false, if_true, bne_self_eq_false]

end

/-- Settles O30: each row by the packet, tree or core it names. -/
theorem serviceAndSwitch : Obligations.ServiceAndSwitch := by
  intro s hrun
  refine ⟨fun id ok p ps hp hps => ?_, fun id p hp => ?_, fun ctx handle stream c g g' hc hg hinvs hdeg hreb => ?_,
    fun core w c g hw hc hg => ⟨fun hold hinv => ?_, fun d st x y hold hheld hst hx hinv hfence hy hdrain => ⟨fun hsrc => ?_, fun hsrc hheads => ?_⟩⟩⟩
  · rw [exec_servicePacketReceive]
    split
    next hturn => exact execServicePacketReceive_turn hrun hp ok hps hturn
    next hturn => exact execServicePacketReceive_stays hp ok hturn
  · rw [exec_servicePacketRepeat]
    simp only [execServicePacketRepeat, hp, hrun, Bool.not_true, Bool.false_eq_true, if_false]
    rfl
  · rw [exec_treeRebuildAsChain]
    simp only [execTreeRebuildAsChain, hc, hg, hrun, hinvs, hdeg, hreb, List.any_nil, Bool.not_true, Bool.or_self, Bool.false_eq_true, if_false]
  · rw [exec_wavefrontSourceSwitch, execWavefrontSourceSwitch, State.when, hrun, if_pos rfl, switchRow_outside hw hc hg hold hinv]
  · subst hy
    have hrow := switchRow_drained hw hc hg hold hheld hst hx hinv hfence hdrain (by simp [hsrc])
    rw [hsrc] at hrow
    rw [exec_wavefrontSourceSwitch, execWavefrontSourceSwitch, State.when, hrun, if_pos rfl]
    exact congrArg _ hrow
  · subst hy
    have hrow := switchRow_drained hw hc hg hold hheld hst hx hinv hfence hdrain hheads
    have hne : st.streamIqs.isEmpty = false := by simpa using hsrc
    rw [hne] at hrow
    rw [exec_coreSwitch, execCoreSwitch, State.when, hrun, if_pos rfl, hrow]

end Sys2Proof.Machine
end

section
/-! PROOFS. Keep-warm, the Timer and the event controller's registers (O12, O18, O20, O21, O44). -/

set_option Elab.async false

namespace Sys2Proof.Machine

/-! ### Keep-warm -/

theorem exec_keepwarmSet (e : Env) (floor ramp : U32) (s : State) : exec (.keepwarmSet e floor ramp) s = execKeepwarmSet e floor ramp s := rfl

theorem exec_tickLaunch (q : U16) (s : State) : exec (.tickLaunch q) s = execTickLaunch q s := rfl

/-- R302: both bounds are allowed, and zero. -/
theorem checkKeepwarmSet_eq (floor ramp : U32) (s : State) :
    checkKeepwarmSet floor ramp s = if floor.toNat ≤ 4000 ∧ ramp.toNat ≤ 100000 then none else some .badParam := by
  by_cases hf : floor.toNat ≤ 4000 <;> by_cases hr : ramp.toNat ≤ 100000 <;> simp [checkKeepwarmSet, firstFail, hf, hr]

section
variable {s : State} {r : CmdRec}

theorem startable_alone (hq : s.q.recs = [r]) : s.startable r = true := by
  simp [State.startable, State.orderOk, State.predecessor, State.recsOf, State.fenceOk, hq]

theorem rec?_alone (hq : s.q.recs = [r]) : s.rec? r.id = some r := by simp [State.rec?, hq]

/-- The only command of the queues, when its tick has come, is the one that is due. -/
theorem dueRecs_alone (hq : s.q.recs = [r]) (hw : r.phase = .waiting) (hl : r.env.launch.toNat ≤ s.tmr.count) : s.dueRecs = [r] := by
  simp [State.dueRecs, State.now, hq, hw, hl]

/-- 02 R28: the only command of the queues launches at its tick. -/
theorem execTickLaunch_alone (hwk : s.working = true) (hst : s.boot.stage = 9) (hq : s.q.recs = [r]) (hw : r.phase = .waiting)
    (hl : r.env.launch.toNat ≤ s.tmr.count) (hb : s.boundOk r = true) (ha : s.addrsHeld r.cmd = true)
    {chk : State → Option Status} {zero : State → Bool} {start : Nat → State → State}
    (hop : opParts r.cmd = some (chk, zero, start)) (hz : zero s = false) :
    execTickLaunch r.env.q s = .next (start r.id (s.started r)) := by
  have hrec : s.launchRec r.id = start r.id (s.started r) := by
    simp only [State.launchRec, rec?_alone hq, hw, beq_self_eq_true, if_true, hop, State.launch, startable_alone hq, State.startCmd,
      hst, bne_self_eq_false, Bool.false_and, Bool.false_eq_true, if_false, hz, hb, ha, Bool.not_true]
    rfl
  simp only [execTickLaunch, dueRecs_alone hq hw hl, List.find?_cons, beq_self_eq_true, State.when, hwk, if_true, hrec]

end

/-- Settles O44: at once, at its tick, refused, and the bounds. -/
theorem keepwarmSet : Obligations.KeepwarmSet := by
  intro s e floor ramp
  refine ⟨fun r h => ?_, fun r hwk hst hq hcmd henv hw hl _ hb => ?_, fun p h henv hout => ?_, ?_⟩
  · rw [exec_keepwarmSet]
    exact command_ready h _ _ _ rfl
  · subst henv
    rw [exec_tickLaunch]
    exact execTickLaunch_alone hwk hst hq hw hl hb (by rw [hcmd]; simp [State.addrsHeld, addrsOf, envOf]) (by rw [hcmd]; rfl) rfl
  · rw [exec_keepwarmSet]
    refine command_check_fails h henv ?_ _ _
    rw [checkKeepwarmSet_eq, if_neg (by omega)]
  · rw [checkKeepwarmSet_eq]
    split
    next h => exact iff_of_true rfl h
    next h => exact iff_of_false (by simp) h

/-! ### Timer commands -/

theorem exec_tmrMasterSet (e : Env) (role : Byte) (m : BitVec 12) (init : U64) (s : State) :
    exec (.tmrMasterSet e role m init) s = execTmrMasterSet e role m init s := rfl
theorem exec_tmrAlarm (e : Env) (slot op : Byte) (first period : U64) (s : State) :
    exec (.tmrAlarm e slot op first period) s = execTmrAlarm e slot op first period s := rfl
theorem exec_alarmFire (slot : BitVec 4) (s : State) : exec (.alarmFire slot) s = execAlarmFire slot s := rfl

/-- What a module that becomes master holds in its timer (R23, R24). -/
theorem takeMaster_tmr (s : State) (role : Role) (master init : Nat) : (s.takeMaster role master init).tmr =
    { s.tmr with count := init, loadCount := init, role := role, named := true, master := master, lock := .locked, upstream := none
                 ports := [], hops := 0, overRun := 0, refLost := false, offset := 0, lastGood := none, alarms := [] } := by
  simp [State.takeMaster]

/-- The record of a started command runs. -/
theorem rec?_started {s : State} {r : CmdRec} (h : s.rec? r.id = some r) :
    (s.started r).rec? r.id = some { r with phase := .running, launched := r.env.atTick && !launchesLater r.cmd } := by
  have hid : ∀ x : CmdRec, ((if x.id == r.id then { x with phase := .running, launched := x.env.atTick && !launchesLater x.cmd } else x).id == r.id) =
      (x.id == r.id) := fun x => by split <;> rfl
  rw [State.rec?] at h ⊢
  rw [started_q]
  simp only [State.modRec, List.find?_map, Function.comp_def, hid, h, Option.map_some, beq_self_eq_true, if_true]

/-- Settles O21: by the role, the operation on the slot, and the alarm that is due. -/
theorem timerCommandsComplete : Obligations.TimerCommandsComplete := by
  intro s e r
  refine ⟨fun m h => ?_, fun m init h => ?_, fun m init h => ?_, fun slot first period h hfree => ?_, fun slot h => ?_,
    fun slot a hwk hal hslot hdue => ?_⟩
  · rw [exec_tmrMasterSet]
    exact command_ready h _ _ _ rfl
  · have htmr := takeMaster_tmr (s.started r) .masterFree m.toNat init.toNat
    refine ⟨(s.started r).takeMaster .masterFree m.toNat init.toNat, ?_, rfl, ?_⟩
    · rw [exec_tmrMasterSet]
      exact command_ready h _ _ _ rfl
    · rw [htmr]
      exact ⟨rfl, rfl, rfl, rfl, rfl, rfl⟩
  · refine ⟨(s.started r).modTmr fun t => { t with waits := t.waits ++ [⟨r.id, m.toNat, init.toNat, t.elapsed⟩] }, ?_, rfl, fun hr => ?_⟩
    · rw [exec_tmrMasterSet]
      exact command_ready h _ _ _ rfl
    · exact ⟨_, rec?_started hr, rfl, (fetched_cmd h.record).1⟩
  · have harm : (s.started r).tmr.alarms.any (fun a => a.slot == slot.toNat) = false := by
      simpa using hfree
    rw [exec_tmrAlarm, execTmrAlarm, command_ready h _ _ _ rfl]
    simp only [startTmrAlarm, harm, Bool.false_eq_true, if_false, if_true]
  · rw [exec_tmrAlarm, execTmrAlarm, command_ready h _ _ _ rfl]
    rfl
  · rw [exec_alarmFire]
    simp [execAlarmFire, hal, hslot, State.when, hwk, State.modTmr, zeros, List.replicate, srcTimer, hdue]

/-! ### The tick, and a limit that passes -/

theorem exec_timerTick (s : State) : exec .timerTick s = execTimerTick s := rfl
theorem exec_holdoverLimitExpiry (s : State) : exec .holdoverLimitExpiry s = execHoldoverLimitExpiry s := rfl

/-- Commands of distinct numbers do not stay when the limit passes (R32). -/
theorem execHoldoverLimitExpiry_drops {s : State} (hrun : s.running = true) (h : s.distinctRecs) (hexp : s.tmr.expired = true) :
    ∃ t, execHoldoverLimitExpiry s = .next t ∧ t.tmr.lock = .unlocked ∧ t.pendingLaunches = [] := by
  refine ⟨s.enterUnlocked, by simp [execHoldoverLimitExpiry, State.when, hrun, hexp], enterUnlocked_lock s, ?_⟩
  exact pendingLaunches_dropLaunches (by rw [State.distinctRecs, timerTo_q]; exact h)

theorem sharedNumber_limit_keeps_waiting : sharedNumber.enterUnlocked.pendingLaunches = [2] := by decide +kernel

/-- `sharedNumber` with the firmware running. -/
def sharedNumberRunning : State := { sharedNumber with boot := { sharedNumber.boot with stage := 9 } }

/-- `finishAll` takes number 2 for a command that has completed, and so leaves the waiting one of that number. -/
theorem sharedNumberRunning_keeps_waiting : sharedNumberRunning.enterUnlocked.pendingLaunches = [2] := by decide +kernel

/-- Refutes O20 in the one clause that the passed limit leaves no command waiting: the statement speaks of every state, also of one
in which two commands share a number. Where the numbers are distinct that clause holds, as `execHoldoverLimitExpiry_drops` shows. -/
theorem not_timerRows : ¬ Obligations.TimerRows := by
  intro h
  obtain ⟨-, -, -, -, -, hexpired⟩ := h.1 sharedNumberRunning (by decide)
  obtain ⟨t, ht, -, -, hnone⟩ := hexpired (by decide)
  have heq : exec .holdoverLimitExpiry sharedNumberRunning = .next sharedNumberRunning.enterUnlocked := by
    rw [exec_holdoverLimitExpiry, execHoldoverLimitExpiry, State.when, if_pos (by decide)]
  rw [heq] at ht
  injection ht with ht
  rw [← ht, sharedNumberRunning_keeps_waiting] at hnone
  exact List.cons_ne_nil _ _ hnone

/-- Stage 1 with port 0 in training and its next identity frame due at the next tick. -/
def trainingEarly : State := { State.reset with
  tmr := { State.reset.tmr with elapsed := 99999 }
  link := { State.reset.link with ports := State.reset.link.ports.set 0 { Port.reset with st := .training } } }

/-- The state a step leads to has port 0 with this tick of the last identity frame. -/
def identitySentAt (r : Res) (n : Nat) : Bool :=
  match r with
  | .next t => (t.port 0).idAt == n
  | _ => false

/-- Refutes O18 in the clause of a module before stage 9 with nothing in its queues: a port in training sends its identity frame
at the tick (11 Table 11.2), and so the tick changes more than the timer. -/
theorem not_tickAdvances : ¬ Obligations.TickAdvances := by
  intro h
  obtain ⟨-, hquiet, -⟩ := h trainingEarly (by decide)
  have hsame := hquiet rfl rfl rfl rfl (by decide) (by decide) rfl
  have hsent : identitySentAt (exec .timerTick trainingEarly) 100000 = true := by decide +kernel
  rw [hsame] at hsent
  exact absurd hsent (by decide)

/-! ### Registers of the event controller -/

theorem exec_evcPendWrite (w : BitVec 1) (v : U64) (s : State) : exec (.evcPendWrite w v) s = execEvcPendWrite w v s := rfl
theorem exec_evcMaskWrite (w : BitVec 1) (v : U64) (s : State) : exec (.evcMaskWrite w v) s = execEvcMaskWrite w v s := rfl
theorem exec_evcRouteWrite (k : BitVec 4) (v : U64) (s : State) : exec (.evcRouteWrite k v) s = execEvcRouteWrite k v s := rfl
theorem exec_evcRingSizeWrite (v : U64) (s : State) : exec (.evcRingSizeWrite v) s = execEvcRingSizeWrite v s := rfl

/-- The sources of word `w` whose bit in PEND AND NOT MASK rises with the new words `p` and `m`, the lowest first. -/
def Evc.rising (e : Evc) (w : Nat) (p m : U64) : List Nat :=
  (List.range 64).filter fun b => (p &&& ~~~m &&& ~~~(e.pend w &&& ~~~(e.mask w))).getLsbD b

/-- The vectors of the sources that rise are those of the routes before. -/
theorem foldl_rise_msix (rise : U64) (w : Nat) (e : Evc) (l : List Nat) {s : State} (h : s.evc.route = e.route) :
    l.foldl (fun s b => if rise.getLsbD b then s.msix (s.evc.vector (64 * w + b)) else s) s =
      (l.filter fun b => rise.getLsbD b).foldl (fun u b => u.msix (e.vector (64 * w + b))) s := by
  induction l generalizing s with
  | nil => rfl
  | cons b l ih =>
    rw [List.foldl_cons]
    cases hb : rise.getLsbD b with
    | false => simpa [hb] using ih h
    | true =>
      have hv : s.evc.vector (64 * w + b) = e.vector (64 * w + b) := by simp only [Evc.vector, h]
      rw [if_pos rfl, hv, ih (by rw [msix_evc, h]), List.filter_cons_of_pos hb, List.foldl_cons]

/-- `evcSet` writes both words within their valid bits and sends the vectors of the sources that rise. -/
theorem evcSet_eq (s : State) (w : Nat) (p m : U64) : s.evcSet w p m =
    (s.evc.rising w (p &&& evcValid w) (m &&& evcValid w)).foldl (fun u b => u.msix (s.evc.vector (64 * w + b)))
      { s with evc := if w = 0 then { s.evc with pend0 := p &&& evcValid w, mask0 := m &&& evcValid w }
                      else { s.evc with pend1 := p &&& evcValid w, mask1 := m &&& evcValid w } } := by
  refine foldl_rise_msix _ w s.evc _ ?_
  split <;> rfl

/-- A source that rises alone, with its vector able to go out, sends the message of its entry. -/
theorem evcSet_out_of_alone {s : State} {w b : Nat} {p m : U64}
    (halone : p &&& evcValid w &&& ~~~(m &&& evcValid w) &&& ~~~(s.evc.pend w &&& ~~~(s.evc.mask w)) = 1#64 <<< b) (hb : b < 64)
    (hsend : s.msixSendable (s.evc.vector (64 * w + b)) = true) :
    (s.evcSet w p m).out = s.out ++ [.msix (s.evc.vector (64 * w + b))
      (s.cxl.entries.getD (s.evc.vector (64 * w + b)) ⟨0, 0, 1⟩).addr (s.cxl.entries.getD (s.evc.vector (64 * w + b)) ⟨0, 0, 1⟩).data] := by
  have hrise : s.evc.rising w (p &&& evcValid w) (m &&& evcValid w) = [b] := by
    rw [Evc.rising, halone]
    clear halone hsend
    revert b
    decide
  rw [evcSet_eq, hrise, List.foldl_cons, List.foldl_nil, State.msix, State.msixSendable, if_pos (by exact hsend)]
  rfl

theorem and_eq_self_of_and_not {x y : U64} (h : x &&& ~~~y = 0) : x &&& y = x := by
  have hsplit : x &&& y ||| x &&& ~~~y = x := by
    rw [← BitVec.and_or_distrib_left, BitVec.or_not_self, BitVec.and_allOnes]
  rw [h] at hsplit
  simpa using hsplit

/-- Within their valid bits the words of the event controller are as they stand. -/
theorem Evc.and_valid {e : Evc} (h : e.wf = true) {n : Nat} (hn : n < 2) :
    e.pend n &&& evcValid n = e.pend n ∧ e.mask n &&& evcValid n = e.mask n := by
  simp only [Evc.wf, Bool.and_eq_true, beq_iff_eq] at h
  obtain ⟨⟨hp, hm⟩, -⟩ := h
  obtain rfl | rfl : n = 0 ∨ n = 1 := by omega
  · exact ⟨BitVec.and_allOnes, BitVec.and_allOnes⟩
  · exact ⟨and_eq_self_of_and_not hp, and_eq_self_of_and_not hm⟩

theorem getLsbD_one_shift {b : Nat} (hb : b < 64) (i : Nat) : (1#64 <<< b).getLsbD i = decide (i = b) := by
  rw [← BitVec.twoPow_eq, BitVec.getLsbD_twoPow, decide_eq_true hb, Bool.true_and]
  exact decide_eq_decide.mpr eq_comm

/-- A 1 put into PEND where neither word has it rises alone. -/
theorem rise_of_pend {p m : U64} {b : Nat} (hb : b < 64) (hp : p.getLsbD b = false) (hm : m.getLsbD b = false) :
    (p ||| 1#64 <<< b) &&& ~~~m &&& ~~~(p &&& ~~~m) = 1#64 <<< b := by
  refine BitVec.eq_of_getLsbD_eq fun i hi => ?_
  simp only [BitVec.getLsbD_and, BitVec.getLsbD_or, BitVec.getLsbD_not, getLsbD_one_shift hb, hi, decide_true, Bool.true_and]
  by_cases hib : i = b
  · simp [hib, hp, hm]
  · cases p.getLsbD i <;> cases m.getLsbD i <;> simp [hib]

/-- A 0 put into MASK where PEND has a 1 lets that source rise alone. -/
theorem rise_of_mask {p m : U64} {b : Nat} (hb : b < 64) (hp : p.getLsbD b = true) (hm : m.getLsbD b = true) :
    p &&& ~~~(m &&& ~~~(1#64 <<< b)) &&& ~~~(p &&& ~~~m) = 1#64 <<< b := by
  refine BitVec.eq_of_getLsbD_eq fun i hi => ?_
  simp only [BitVec.getLsbD_and, BitVec.getLsbD_not, getLsbD_one_shift hb, hi, decide_true, Bool.true_and]
  by_cases hib : i = b
  · simp [hib, hp, hm]
  · cases p.getLsbD i <;> cases m.getLsbD i <;> simp [hib]

/-- Every bit of word 0 is valid. -/
theorem and_valid_zero (x : U64) : x &&& evcValid 0 = x := BitVec.and_allOnes

theorem two_words (w : BitVec 1) : w.toNat < 2 ∧ (w = 0 ↔ w.toNat = 0) := by
  revert w
  decide

theorem setWords_pend {s : State} (h : s.evc.wf = true) (w : BitVec 1) (p : U64) :
    (if w.toNat = 0 then { s.evc with pend0 := p, mask0 := s.evc.mask w.toNat &&& evcValid w.toNat }
      else { s.evc with pend1 := p, mask1 := s.evc.mask w.toNat &&& evcValid w.toNat }) =
    if w = 0 then { s.evc with pend0 := p } else { s.evc with pend1 := p } := by
  obtain ⟨hw, hiff⟩ := two_words w
  rw [(Evc.and_valid h hw).2]
  by_cases h0 : w = 0
  · rw [if_pos h0, if_pos (hiff.mp h0), hiff.mp h0]
    rfl
  · rw [if_neg h0, if_neg (mt hiff.mpr h0), Evc.mask, if_neg (mt hiff.mpr h0)]

theorem setWords_mask {s : State} (h : s.evc.wf = true) (w : BitVec 1) (m : U64) :
    (if w.toNat = 0 then { s.evc with pend0 := s.evc.pend w.toNat &&& evcValid w.toNat, mask0 := m }
      else { s.evc with pend1 := s.evc.pend w.toNat &&& evcValid w.toNat, mask1 := m }) =
    if w = 0 then { s.evc with mask0 := m } else { s.evc with mask1 := m } := by
  obtain ⟨hw, hiff⟩ := two_words w
  rw [(Evc.and_valid h hw).1]
  by_cases h0 : w = 0
  · rw [if_pos h0, if_pos (hiff.mp h0), hiff.mp h0]
    rfl
  · rw [if_neg h0, if_neg (mt hiff.mpr h0), Evc.pend, if_neg (mt hiff.mpr h0)]

section
variable {s : State} (hwk : s.working = true)
include hwk

theorem execEvcPendWrite_eq (w : BitVec 1) (v : U64) :
    execEvcPendWrite w v s = .next (s.evcSet w.toNat v (s.evc.mask w.toNat)) := by
  rw [execEvcPendWrite, State.when, if_pos hwk]

theorem execEvcMaskWrite_eq (w : BitVec 1) (v : U64) :
    execEvcMaskWrite w v s = .next (s.evcSet w.toNat (s.evc.pend w.toNat) v) := by
  rw [execEvcMaskWrite, State.when, if_pos hwk]

end

/-- Settles O12: what each register takes, and the vectors of the sources that rise. -/
theorem eventRegisters : Obligations.EventRegisters := by
  intro s v hwk
  refine ⟨⟨s.evcSet 0 v s.evc.mask0, execEvcPendWrite_eq hwk 0 v, ?_, fun hnone => ?_, fun b hb hv hp hm hsend => ⟨_, rfl, ?_⟩⟩,
    ⟨s.evcSet 1 v s.evc.mask1, execEvcPendWrite_eq hwk 1 v, ?_⟩, ⟨s.evcSet 0 s.evc.pend0 v, execEvcMaskWrite_eq hwk 0 v, ?_⟩,
    ⟨s.evcSet 1 s.evc.pend1 v, execEvcMaskWrite_eq hwk 1 v, ?_, evcSet_mem _ _ _ _⟩,
    fun hwf w n old val hn hold hval => ?_, fun k => ?_, ?_⟩
  · rw [evcSet_evc, and_valid_zero, and_valid_zero]
    rfl
  · have hrise : s.evc.rising 0 v s.evc.mask0 = [] := by
      rw [Evc.rising, show v &&& ~~~s.evc.mask0 &&& ~~~(s.evc.pend 0 &&& ~~~(s.evc.mask 0)) = 0 from hnone]
      rfl
    rw [evcSet_evc, evcSet_eq, and_valid_zero, and_valid_zero]
    exact congrArg (List.foldl _ _) hrise
  · have hrise : v &&& evcValid 0 &&& ~~~(s.evc.mask0 &&& evcValid 0) &&& ~~~(s.evc.pend 0 &&& ~~~(s.evc.mask 0)) = 1#64 <<< b := by
      rw [and_valid_zero, and_valid_zero, hv]
      exact rise_of_pend hb hp hm
    have hout := evcSet_out_of_alone hrise hb
    simp only [Nat.mul_zero, Nat.zero_add] at hout
    exact hout hsend
  · rw [evcSet_evc]
    exact ⟨rfl, rfl⟩
  · rw [evcSet_evc, and_valid_zero, and_valid_zero]
    exact ⟨rfl, rfl⟩
  · rw [evcSet_evc]
    rfl
  · subst hn hold hval
    have hw := (two_words w).1
    refine ⟨?_, ?_, fun b hb hp hm hv hsend => ⟨_, _, execEvcMaskWrite_eq hwk w v, rfl, ?_⟩⟩
    · rw [exec_evcPendWrite, execEvcPendWrite_eq hwk, evcSet_eq, setWords_pend hwf, Evc.rising, (Evc.and_valid hwf hw).2]
    · rw [exec_evcMaskWrite, execEvcMaskWrite_eq hwk, evcSet_eq, setWords_mask hwf, Evc.rising, (Evc.and_valid hwf hw).1]
    · refine evcSet_out_of_alone ?_ hb hsend
      obtain ⟨hpend, hmask⟩ := Evc.and_valid hwf hw
      rw [hpend, hv, BitVec.and_assoc (s.evc.mask _), BitVec.and_comm (~~~_) (evcValid _), ← BitVec.and_assoc (s.evc.mask _), hmask]
      exact rise_of_mask hb hp hm
  · rw [exec_evcRouteWrite, execEvcRouteWrite, State.when, if_pos hwk]
    rfl
  · rw [exec_evcRingSizeWrite, execEvcRingSizeWrite, State.when, if_pos hwk]
    rfl

end Sys2Proof.Machine
end

section
/-! PROOFS. Power and cooling (O45, O46, O47). -/

set_option Elab.async false

namespace Sys2Proof.Machine

/-! ### A guard that holds or fails -/

theorem when_of_true {s : State} {c : Bool} (h : c = true) (t : State) : s.when c t = .next t := by rw [State.when, if_pos h]

theorem when_of_false {s : State} {c : Bool} (h : c = false) (t : State) : s.when c t = .next s := by
  rw [State.when, h, if_neg Bool.false_ne_true]

theorem alive_of_running {s : State} (h : s.running = true) : s.working = true ∧ s.boot.stage = 9 := by
  simpa [State.running] using h

/-! ### Power commands -/

theorem exec_pwrLimits (e : Env) (su pk w lo tm : U32) (s : State) : exec (.pwrLimits e su pk w lo tm) s = execPwrLimits e su pk w lo tm s := rfl
theorem exec_phaseTableSet (e : Env) (table : U64) (n : Byte) (s : State) :
    exec (.phaseTableSet e table n) s = execPhaseTableSet e table n s := rfl
theorem exec_mgrHeartbeat (e : Env) (seq : U32) (s : State) : exec (.mgrHeartbeat e seq) s = execMgrHeartbeat e seq s := rfl
theorem exec_pwrQuery (e : Env) (s : State) : exec (.pwrQuery e) s = execPwrQuery e s := rfl
theorem exec_mgrTimeoutLapse (s : State) : exec .mgrTimeoutLapse s = execMgrTimeoutLapse s := rfl

section
variable {p q : Power}

/-- The limits that have changed, each with its cause number. -/
def Power.moved (p q : Power) : List ((Nat × Nat) × (Nat × Nat)) := (p.limitsBy.zip q.limitsBy).filter fun x => x.1.2 != x.2.2

/-- The only limit that has changed is the cause when it was the cap in force or is it now. -/
theorem capCause_of_moved {k x y : Nat} (h : p.moved q = [((k, x), (k, y))]) (hc : y = q.cap ∨ x = p.cap ∨ k = 1) : p.capCause q = k := by
  unfold Power.moved at h
  simp only [Power.capCause, h]
  by_cases hy : y = q.cap
  · simp [hy]
  · by_cases hx : x = p.cap
    · simp [hy, hx]
    · simp [hy, hx, (hc.resolve_left hy).resolve_left hx]

/-- Where only the sustained cap has changed, and the cap in force with it, it is the cause. -/
theorem capCause_sustain (hpk : q.peakCap = p.peakCap) (hlo : q.lostCap = p.lostCap) (hml : q.mgrLost = p.mgrLost)
    (hcl : q.clamp = p.clamp) (hne : q.cap ≠ p.cap) : p.capCause q = 1 := by
  have hsu : p.sustainCap ≠ q.sustainCap := fun h => hne (by simp only [Power.cap, hpk, hlo, hml, hcl, h])
  refine capCause_of_moved (x := p.sustainCap) (y := q.sustainCap) ?_ (.inr (.inr rfl))
  cases h : p.mgrLost <;> simp [Power.moved, Power.limitsBy, hpk, hlo, hml, h, hsu]

/-- Where only the peak cap has changed, and the cap in force with it, it is the cause: it was the cap or is the cap. -/
theorem capCause_peak (hsu : q.sustainCap = p.sustainCap) (hlo : q.lostCap = p.lostCap) (hml : q.mgrLost = p.mgrLost)
    (hcl : q.clamp = p.clamp) (hne : q.cap ≠ p.cap) : p.capCause q = 2 := by
  have hpk : p.peakCap ≠ q.peakCap := fun h => hne (by simp only [Power.cap, hsu, hlo, hml, hcl, h])
  have hcap : q.peakCap = q.cap ∨ p.peakCap = p.cap := by
    simp only [Power.cap, hsu, hlo, hml, hcl] at hne ⊢
    omega
  refine capCause_of_moved (x := p.peakCap) (y := q.peakCap) ?_ (hcap.imp_right .inl)
  cases h : p.mgrLost <;> simp [Power.moved, Power.limitsBy, hsu, hlo, hml, h, hpk]

/-- Where only the lost-manager cap has changed, and the cap in force with it, it is the cause. -/
theorem capCause_lost (hsu : q.sustainCap = p.sustainCap) (hpk : q.peakCap = p.peakCap) (hml : q.mgrLost = p.mgrLost)
    (hcl : q.clamp = p.clamp) (hne : q.cap ≠ p.cap) : p.capCause q = 3 := by
  have hlo : p.lostCap ≠ q.lostCap := fun h => hne (by simp only [Power.cap, hsu, hpk, hml, hcl, h])
  have hlost : p.mgrLost = true := by
    by_contra h
    exact hne (by simp [Power.cap, hsu, hpk, hml, hcl, h])
  have hcap : q.lostCap = q.cap ∨ p.lostCap = p.cap := by
    simp only [Power.cap, hsu, hpk, hml, hcl, hlost, if_true] at hne ⊢
    omega
  refine capCause_of_moved (x := p.lostCap) (y := q.lostCap) ?_ (hcap.imp_right .inl)
  simp [Power.moved, Power.limitsBy, hsu, hpk, hml, hlost, hlo]

end

/-- The entries of a phase table are in range (12 Table 12.5). -/
theorem phaseEntryOk_iff (v : Nat) : phaseEntryOk v = true ↔ v < 512 ∧ v % 16 ≤ v / 16 % 16 := by
  simp [phaseEntryOk, bits]

/-- Settles O45: each command from the state in which it starts, and the watch that lapses. -/
theorem powerCommands : Obligations.PowerCommands := by
  intro s e r
  refine ⟨fun su pk w lo tm h => ?_, fun su pk w lo tm hne => ⟨fun hpk hlo => ?_, fun hsu hlo => ?_, fun hsu hpk => ?_⟩,
    fun table n k u vs h hn hk hu hvs hok hrun => ?_, fun q h hml => ?_, fun h => ?_, fun hrun htm hml hdue => ?_⟩
  · rw [exec_pwrLimits, execPwrLimits, command_ready h _ _ _ rfl, startPwrLimits, started_pwr]
    rfl
  · exact capCause_sustain (by simp [Power.withLimits, hpk]) (by simp [Power.withLimits, hlo]) rfl rfl hne
  · exact capCause_peak (by simp [Power.withLimits, hsu]) (by simp [Power.withLimits, hlo]) rfl rfl hne
  · exact capCause_lost (by simp [Power.withLimits, hsu]) (by simp [Power.withLimits, hpk]) rfl rfl hne
  · have hz : (n == 0) = false := by simpa using hn
    have hall : vs.findIdx? (fun v => !phaseEntryOk v) = none := by
      rw [List.findIdx?_eq_none_iff]
      intro v hv
      rw [(phaseEntryOk_iff v).mpr (hok v hv), Bool.not_true]
    subst hk hu hvs
    rw [exec_phaseTableSet, execPhaseTableSet, command_ready h _ _ _ hz, startPhaseTableSet]
    simp only [hall]
    rw [if_pos (by exact hrun)]
  · rw [exec_mgrHeartbeat, execMgrHeartbeat, command_ready h _ _ _ rfl, startMgrHeartbeat]
    simp only [State.managerBack, started_pwr, hml, Bool.not_false, if_true, State.elapsed, started_tmr]
  · rw [exec_pwrQuery, execPwrQuery, command_ready h _ _ _ rfl, startPwrQuery, started_pwr]
  · rw [exec_mgrTimeoutLapse]
    exact when_of_true (by simp [hrun, htm, hml, State.sinceBeat, State.elapsed, hdue]) _

/-! ### Supply samples and loops -/

theorem exec_vinSample (mv : Int) (w : Nat) (s : State) : exec (.vinSample mv w) s = execVinSample mv w s := rfl
theorem exec_droopTrip (d : BitVec 2) (s : State) : exec (.droopTrip d) s = execDroopTrip d s := rfl
theorem exec_peakLimiterAdjust (s : State) : exec .peakLimiterAdjust s = execPeakLimiterAdjust s := rfl
theorem exec_sustainedLoopRun (f : Nat) (s : State) : exec (.sustainedLoopRun f) s = execSustainedLoopRun f s := rfl
theorem exec_capFallDutyStep (f : Nat) (s : State) : exec (.capFallDutyStep f) s = execCapFallDutyStep f s := rfl
theorem exec_opRailSettled (s : State) : exec .opRailSettled s = execOpRailSettled s := rfl
theorem exec_keepwarmBeat (u i : Nat) (s : State) : exec (.keepwarmBeat u i) s = execKeepwarmBeat u i s := rfl

@[simp] theorem tracePoint5_pwr (s old : State) : (s.tracePoint5 old).pwr = s.pwr := by
  unfold State.tracePoint5
  split
  · rfl
  · exact trace_pwr _ _ _ _

@[simp] theorem tracePoint5_pins (s old : State) : (s.tracePoint5 old).pins = s.pins := by
  unfold State.tracePoint5
  split
  · rfl
  · exact trace_pins _ _ _ _

section
variable {s : State}

/-- A sample within the ratings, by what the state of the supply lets it do. -/
theorem execVinSample_rated {mv : Int} (hlo : -500 ≤ mv) (hhi : mv ≤ 48000) (w : Nat) (hr : s.pins.rails = true) :
    execVinSample mv w s =
      .next (if mv < 28000 then ({ s with pins := { s.pins with vinMv := mv, vinPresent := true } } : State).railsOff
        else if s.alive = false then { s with pins := { s.pins with vinMv := mv, vinPresent := true } }
        else if s.boot.trivet = true then
          { s with pins := { s.pins with vinMv := mv, vinPresent := true }, pwr := (s.pwr.sample mv w).hardCap }
        else ({ s with pins := { s.pins with vinMv := mv, vinPresent := true }
                       pwr := (s.pwr.sample mv w).hardCap } : State).vinResponse mv) := by
  have h : (decide (48000 < mv) || decide (mv < -500)) = false := by
    rw [decide_eq_false (by omega), decide_eq_false (by omega), Bool.or_false]
  rw [execVinSample, h, if_neg Bool.false_ne_true, hr, Bool.not_true, if_neg Bool.false_ne_true]
  by_cases hv : mv < 28000
  · rw [if_pos hv, if_pos hv]
    rfl
  · rw [if_neg hv, if_neg hv]
    cases s.alive with
    | false => rfl
    | true => cases s.boot.trivet <;> rfl

/-- A sample that keeps the rails up outside Trivet. -/
theorem execVinSample_working {mv : Int} (hlo : 28000 ≤ mv) (hhi : mv ≤ 48000) (w : Nat) (hr : s.pins.rails = true)
    (hw : s.working = true) : execVinSample mv w s =
      .next (({ s with pins := { s.pins with vinMv := mv, vinPresent := true }
                       pwr := (s.pwr.sample mv w).hardCap } : State).vinResponse mv) := by
  rw [State.working, Bool.and_eq_true, Bool.not_eq_true'] at hw
  obtain ⟨hal, htr⟩ := hw
  rw [execVinSample_rated (by omega) hhi w hr, if_neg (by omega), if_neg (by simp [hal]), if_neg (by simp [htr])]

/-- A sample from 30 V to 40 V after none above 40 V counts nothing. -/
theorem sample_counts {mv : Int} (hlo : 30000 ≤ mv) (hhi : mv ≤ 40000) (p : Power) (w : Nat) :
    (p.sample mv w).hardCap.low30 = 0 ∧ (p.sample mv w).hardCap.high40 = 0 ∧ (p.sample mv w).hardCap.high42 = 0 := by
  have h30 : ¬ mv < 30000 := by omega
  have h40 : ¬ 40000 < mv := by omega
  have h42 : ¬ 42000 < mv := by omega
  simp only [Power.hardCap, Power.sample, h30, h40, h42, if_false, and_self]

/-- Below 32 V and not below 30 V the clamp is applied and nothing else. -/
theorem vinResponse_clamp {mv : Int} (hv : mv < 32000) (hc : s.pwr.clamp = false) (h40 : s.pwr.high40 ≠ 10) (hlow : s.pwr.low30 = 0)
    (h42 : s.pwr.high42 = 0) : s.vinResponse mv = s.applyClamp mv := by
  have h : (!s.pwr.clamp && decide (mv < 32000)) = true := by rw [hc, decide_eq_true hv]; rfl
  simp only [State.vinResponse, h, if_true, h40, if_false, hlow, h42, show ¬ 100 ≤ 0 by decide]

/-- From 32 V to 40 V nothing responds. -/
theorem vinResponse_quiet {mv : Int} (hv : 32000 ≤ mv) (hc : s.pwr.clamp = false) (h40 : s.pwr.high40 ≠ 10) (hlow : s.pwr.low30 = 0)
    (h42 : s.pwr.high42 = 0) : s.vinResponse mv = s := by
  have h : decide (mv < 32000) = false := decide_eq_false (by omega)
  simp only [State.vinResponse, h, Bool.and_false, Bool.false_eq_true, if_false, hc, Bool.false_and, h40, hlow, h42,
    show ¬ 100 ≤ 0 by decide]

theorem setDuty_pwr (s : State) (d : Nat) : ∃ a, (s.setDuty d).pwr =
    { s.pwr with duty := min (if s.pwr.clamp then 8 else 16) (max 1 d), dutyAt := a } := by
  unfold State.setDuty
  dsimp only
  generalize min (if s.pwr.clamp then 8 else 16) (max 1 d) = n
  split
  next h => exact ⟨s.pwr.dutyAt, by rw [h]⟩
  next => exact ⟨s.elapsed, by rw [tracePoint5_pwr]; rfl⟩

/-- A change of the cap in force only begins R299 in the power block. -/
theorem capChanged_pwr (s : State) (old cause : Nat) : ∃ f, (s.capChanged old cause).pwr = { s.pwr with capFall := f } := by
  unfold State.capChanged
  dsimp only
  split
  · exact ⟨_, rfl⟩
  · split
    · exact ⟨1, by rw [modPwr_pwr, event_pwr]⟩
    · exact ⟨s.pwr.capFall, by rw [event_pwr]⟩

/-- The clamp: duty 8/16 at most, the cap at most 2,600 W (R287). -/
theorem applyClamp_pwr (s : State) (mv : Int) (hd : 1 ≤ s.pwr.duty) :
    (s.applyClamp mv).pwr.clamp = true ∧ (s.applyClamp mv).pwr.duty = min 8 s.pwr.duty ∧ (s.applyClamp mv).pwr.cap ≤ 2600 := by
  obtain ⟨a, ha⟩ := setDuty_pwr (s.modPwr fun p => { p with clamp := true, good33 := 0 }) (min 8 s.pwr.duty)
  obtain ⟨f, hf⟩ := capChanged_pwr (((((s.modPwr fun p => { p with clamp := true, good33 := 0 }).setDuty (min 8 s.pwr.duty)).event
    srcPower 0x0041 (zeros 4 ++ vinPayload mv)).journalAction 0x45 (leBytes 1 5))) s.pwr.cap 5
  rw [journalAction_pwr, event_pwr, ha] at hf
  rw [show (s.applyClamp mv).pwr = _ from hf]
  refine ⟨rfl, ?_, ?_⟩
  · simp only [modPwr_pwr, if_true]
    omega
  · simp only [Power.cap, modPwr_pwr, if_true]
    omega

end

/-- Away from a cap fall the loop takes the fastest point that fits (R298). -/
theorem runLoop_fits {s : State} {f q : Nat} (hfall : s.pwr.capFall = 0) (hfast : s.pwr.fastest f s.pwr.duty = some q) :
    s.runLoop f = (s.modPwr fun p => { p with loopOp := q }).adjustOp := by
  simp only [State.runLoop, hfall, hfast, Option.getD_some, Option.isNone_some, Bool.false_and, Bool.false_eq_true, if_false,
    show ¬ 2 ≤ 0 by decide, show ¬ 0 = 2 by decide]

/-- Settles O46: each row by the sample or by the phase of the loop. -/
theorem powerRows : Obligations.PowerRows := by
  refine ⟨fun s mv w => ⟨fun hout => ?_, fun hlo hhi hr _ hal htr => ?_, fun hlo hhi hr hw hvp hc h40 h42 => ?_,
    fun hlo hhi hr hw hvp hc hd => ?_, fun hlo hhi hr => ?_, fun d hw => ?_⟩,
    fun s => ⟨fun n hn hn0 hw hmean hsince => ?_, fun f q hrun hlen hfall hfast => ?_, fun f hw hfall => ?_, fun f hw hfall hd => ?_,
      fun f hw hfall hd => ⟨fun hearly => ?_, fun hda hsa hset hfit => ?_⟩, fun q hw hset => ?_, fun u i hrun hbeat hoff hfill => ?_⟩⟩
  · rw [exec_vinSample, execVinSample, if_pos (by simpa using hout)]
  · rw [exec_vinSample, execVinSample_rated (by omega) hhi w hr, if_neg (by omega), if_neg (by simp [hal]), if_pos htr]
    exact ⟨_, rfl, rfl, rfl, rfl⟩
  · obtain ⟨hc30, hc40, hc42⟩ := sample_counts (by omega) hhi s.pwr w
    rw [exec_vinSample, execVinSample_working (by omega) (by omega) w hr hw, ← hvp]
    exact congrArg _ (vinResponse_quiet hlo hc (ne_of_eq_of_ne hc40 (by decide)) hc30 hc42)
  · obtain ⟨hc30, hc40, hc42⟩ := sample_counts hlo (by omega) s.pwr w
    rw [exec_vinSample, execVinSample_working (by omega) (by omega) w hr hw]
    exact ⟨_, congrArg _ (vinResponse_clamp hhi hc (ne_of_eq_of_ne hc40 (by decide)) hc30 hc42), applyClamp_pwr _ mv hd⟩
  · rw [exec_vinSample, execVinSample_rated hlo (by omega) w hr, if_pos hhi]
  · exact when_of_true hw _
  · subst hn
    have hidle : (!s.working || decide (min s.pwr.window s.pwr.samples.length = 0)) = false := by
      rw [hw, decide_eq_false hn0]
      rfl
    have hover : (decide (97 * s.pwr.peakCap * min s.pwr.window s.pwr.samples.length ≤
        100 * s.pwr.sumOf (min s.pwr.window s.pwr.samples.length)) && decide (500 ≤ s.elapsed - s.pwr.dutyAt)) = true := by
      rw [decide_eq_true (by exact hmean), decide_eq_true (by unfold State.elapsed; omega)]
      rfl
    rw [exec_peakLimiterAdjust, execPeakLimiterAdjust]
    simp only [hidle, hover, Bool.false_eq_true, if_false, if_true]
  · rw [exec_sustainedLoopRun, execSustainedLoopRun, when_of_true (by rw [hrun, decide_eq_true hlen]; rfl), runLoop_fits hfall hfast]
    rfl
  · rw [exec_capFallDutyStep, execCapFallDutyStep]
    simp only [hw, hfall, Bool.not_true, Bool.false_eq_true, if_false]
    rfl
  · rw [exec_capFallDutyStep, execCapFallDutyStep]
    simp only [hw, hfall, hd, Bool.not_true, Bool.false_eq_true, if_false, if_true]
    rfl
  · rw [exec_capFallDutyStep, execCapFallDutyStep]
    have hmax : s.elapsed < max s.pwr.dutyAt s.pwr.settledAt + 500 := by unfold State.elapsed; omega
    simp only [hw, hfall, Nat.not_le.mpr hd, hmax, Bool.not_true, Bool.false_eq_true, if_false, decide_true, Bool.true_or, if_true]
  · rw [exec_capFallDutyStep, execCapFallDutyStep]
    have hmax : ¬ s.elapsed < max s.pwr.dutyAt s.pwr.settledAt + 500 := by unfold State.elapsed; omega
    simp only [hw, hfall, Nat.not_le.mpr hd, hmax, hset, hfit, Bool.not_true, Bool.false_eq_true, if_false, decide_false, Bool.or_self,
      Option.isSome_none]
  · rw [exec_opRailSettled, execOpRailSettled, hset]
    refine ⟨_, when_of_true hw _, ?_⟩
    rw [tracePoint5_pwr, modPwr_pwr]
    dsimp only
    split
    · exact ⟨rfl, rfl, rfl⟩
    · split <;> exact ⟨rfl, rfl, rfl⟩
  · refine ⟨s.draw.1, fun most held hmost hheld => ?_⟩
    subst hmost
    have hle : ¬ held < 100000 * u := by omega
    have hguard : (s.running && s.now % 1024 == 0) = true := by
      rw [hrun, State.now, hbeat]
      rfl
    subst hheld
    rw [exec_keepwarmBeat, execKeepwarmBeat]
    simp only [hoff, hfill, if_true, hguard, hle, if_false, when_of_true]
    rfl

/-! ### Temperature and coolant -/

theorem exec_thermalSample (t ci co : Int) (w : Byte) (s : State) : exec (.thermalSample t w ci co) s = execThermalSample t w ci co s := rfl
theorem exec_thermalThrottleStep (s : State) : exec .thermalThrottleStep s = execThermalThrottleStep s := rfl
theorem exec_flowPulse (s : State) : exec .flowPulse s = execFlowPulse s := rfl
theorem exec_flowCheck (ci co : Int) (s : State) : exec (.flowCheck ci co) s = execFlowCheck ci co s := rfl
theorem exec_simmerExit (s : State) : exec .simmerExit s = execSimmerExit s := rfl

@[simp] theorem adjustOp_therm (s : State) : s.adjustOp.therm = s.therm := by
  unfold State.adjustOp
  dsimp only
  split
  · rfl
  · unfold State.tracePoint5
    split
    · rfl
    · exact trace_therm _ _ _ _

/-- Moving towards a point changes the clock and the rail of the power block. -/
theorem adjustOp_pwr (s : State) : ∃ op settling, s.adjustOp.pwr = { s.pwr with op := op, settling := settling } := by
  unfold State.adjustOp
  dsimp only
  split
  · exact ⟨s.pwr.op, s.pwr.settling, rfl⟩
  · rw [tracePoint5_pwr, modPwr_pwr]
    unfold Power.moveTo
    split
    · exact ⟨_, _, rfl⟩
    · split <;> exact ⟨_, _, rfl⟩

/-- Simmer, where it is not in force: OP15 and no fill; the coolant block is not touched (R305). -/
theorem enterSimmer_units {s : State} (h : s.pwr.simmer = false) (cause : Nat) :
    (s.enterSimmer cause).pwr.simmer = true ∧ (s.enterSimmer cause).pwr.simmerCause = cause ∧ (s.enterSimmer cause).pwr.fill = false ∧
      (s.enterSimmer cause).therm = s.therm := by
  rw [State.enterSimmer, h, if_neg Bool.false_ne_true]
  dsimp only
  obtain ⟨op, settling, hp⟩ := adjustOp_pwr (((s.modPwr fun p =>
    { p with simmer := true, simmerCause := cause, fill := false, goodSince := none }).simmerEvent 0).journalAction 0x42 (leBytes 1 cause))
  rw [hp, adjustOp_therm, journalAction_pwr, journalAction_therm, State.simmerEvent, event_pwr, event_therm]
  exact ⟨rfl, rfl, rfl, rfl⟩

section
variable {s : State}

/-- A sample below 95 °C with the inlet in range leaves nothing but its readings. -/
theorem sample_cool (hlow : s.therm.tempMax < 1520) (hlo : 240 ≤ s.therm.coolIn) (hhi : s.therm.coolIn ≤ s.therm.inletMax * 16)
    (hin : s.therm.inletOut = false) : s.inletTest.throttleStart = s := by
  have htest : s.inletTest = s := by
    have hout : (decide (s.therm.coolIn < 15 * 16) || decide ((s.therm.inletMax : Int) * 16 < s.therm.coolIn)) = s.therm.inletOut := by
      rw [decide_eq_false (by omega), decide_eq_false (by omega), hin]
      rfl
    simp only [State.inletTest, hout, if_true]
  rw [htest, State.throttleStart, if_pos (by simp [hlow])]

/-- A pulse of the flow meter that does not follow too soon counts. -/
theorem execFlowPulse_counts (hal : s.alive = true) (h : ∀ x, s.therm.pulses.head? = some x → x + 50000 ≤ s.tmr.elapsed) :
    execFlowPulse s = .next (s.modTherm fun t => { t with
      pulses := s.elapsed :: t.pulses.filter fun x => s.elapsed < x + 1000000 }) := by
  refine when_of_true ?_ _
  rw [hal, Bool.true_and, Option.all_eq_true]
  exact fun x hx => decide_eq_true (h x hx)

/-- A pulse that follows the last counted one at a rate above 2,000 Hz is missed. -/
theorem execFlowPulse_missed {x : Nat} (hx : s.therm.pulses.head? = some x) (h : s.tmr.elapsed < x + 50000) :
    execFlowPulse s = .next s := by
  refine when_of_false ?_ _
  rw [hx, Option.all_some, decide_eq_false (by unfold State.elapsed pulseTicks; omega), Bool.and_false]

/-- A low flow that goes on, after the reading of the coolant sensors. -/
def State.flowLow (s : State) (ci co : Int) (since : Nat) : State :=
  ((s.takeCoolant ci co).modTherm fun t => { t with lowSince := some since }).modPwr fun p => { p with
    goodSince := if p.simmer && ((!(s.takeCoolant ci co).flowReady ||
        decide (100 * (s.takeCoolant ci co).therm.flowWarn ≤ (s.takeCoolant ci co).flow)) && (s.takeCoolant ci co).therm.excessSmall)
      then some (p.goodSince.getD (s.takeCoolant ci co).elapsed) else none }

/-- Flow below 2.0 L/min for 50 ms brings Simmer (R305). -/
theorem execFlowCheck_low {ci co : Int} {a : Nat} (hw : s.working = true) (hrun : (s.takeCoolant ci co).running = false)
    (hready : s.flowReady = true) (hflow : s.flow < 2000) (hlow : s.therm.lowSince = some a) (hsince : a + 5000000 ≤ s.tmr.elapsed) :
    execFlowCheck ci co s = .next ((s.flowLow ci co a).enterSimmer 1) := by
  have hbelow : ((s.takeCoolant ci co).flowReady && decide ((s.takeCoolant ci co).flow < 2000)) = true := by
    rw [show (s.takeCoolant ci co).flowReady = s.flowReady from rfl, show (s.takeCoolant ci co).flow = s.flow from rfl, hready,
      decide_eq_true hflow]
    rfl
  have hlow' : (s.takeCoolant ci co).therm.lowSince = some a := hlow
  have hdue : (true && decide (a + 5000000 ≤ (s.takeCoolant ci co).elapsed)) = true := by
    rw [show (s.takeCoolant ci co).elapsed = s.tmr.elapsed from rfl, decide_eq_true hsince]
    rfl
  rw [execFlowCheck, hw, Bool.not_true, if_neg Bool.false_ne_true]
  simp only [hbelow, hrun, Bool.false_eq_true, if_false, if_true, hlow', Option.getD_some, hdue]
  rfl

end

/-- Settles O47: a sample by its temperature, the throttle, pulses, and the way into and out of Simmer. -/
theorem thermalRows : Obligations.ThermalRows := by
  intro s hal
  refine ⟨fun t ci co w ht => ?_, fun t ci co w ht ht2 htr => ?_, fun t ci co w ht hrun hlo hhi hin => ?_,
    fun hrun hthr htemp hsince => ?_, fun h => ?_, fun x hx h => ?_, fun a hw hst hready hflow hlow hsince hsim ci co => ?_,
    fun a hw hsim hgood hsince => ?_⟩
  · rw [exec_thermalSample, execThermalSample, if_neg (by simp [hal]), if_pos (by omega)]
    rfl
  · rw [exec_thermalSample, execThermalSample, if_neg (by simp [hal]), if_neg (by omega)]
    dsimp only
    rw [htr, if_neg Bool.false_ne_true, if_pos (by omega)]
    rfl
  · have hwk := (alive_of_running hrun).1
    rw [State.working, Bool.and_eq_true, Bool.not_eq_true'] at hwk
    rw [exec_thermalSample, execThermalSample, if_neg (by simp [hal]), if_neg (by omega)]
    dsimp only
    rw [hwk.2, if_neg Bool.false_ne_true, if_neg (by omega), if_pos (by exact hrun)]
    exact congrArg _ (sample_cool (s := s.takeReadings t w ci co) ht hlo hhi hin)
  · rw [exec_thermalThrottleStep, execThermalThrottleStep]
    have h : (decide (95 * 16 ≤ s.therm.tempMax) && decide (100000 ≤ s.elapsed - s.therm.throttleAt)) = true := by
      rw [decide_eq_true (by omega), decide_eq_true (by unfold State.elapsed; omega)]
      rfl
    have hon : (!(s.running && s.therm.throttle)) = false := by
      rw [hrun, hthr]
      rfl
    simp only [hon, Bool.false_eq_true, if_false, h, if_true]
    rfl
  · rw [exec_flowPulse, execFlowPulse_counts hal h]
    rfl
  · rw [exec_flowPulse, execFlowPulse_missed hx h]
  · have hnotrun : (s.takeCoolant ci co).running = false := by
      show (s.working && s.boot.stage == 9) = false
      rw [hw, Bool.true_and]
      exact beq_false_of_ne hst
    rw [exec_flowCheck, execFlowCheck_low hw hnotrun hready hflow hlow hsince]
    obtain ⟨hs, hcause, hfill, htherm⟩ := enterSimmer_units (s := s.flowLow ci co a) hsim 1
    refine ⟨_, rfl, hs, hcause, hfill, ?_⟩
    rw [htherm]
    exact ⟨rfl, rfl, rfl⟩
  · rw [exec_simmerExit, execSimmerExit, hgood]
    dsimp only
    rw [when_of_true (by rw [hw, hsim, decide_eq_true (by exact hsince)]; rfl)]
    rfl

end Sys2Proof.Machine
end

section
/-! PROOFS. Boot stages (O58). -/

set_option Elab.async false

namespace Sys2Proof.Machine

/-! ### The map of a die without failures -/

theorem nextGood_nil {fuel p : Nat} (h : p < 82) : nextGood [] (fuel + 1) p = p := by
  simp [nextGood, Nat.not_le.mpr h]

/-- A row of ascending hosts beside such rows, or at an edge of the die, needs no raising. -/
theorem raiseRow_range' {n lo : Nat} (h : lo + n ≤ 82) {up down : List Nat} (hup : up = [] ∨ up = List.range' lo n)
    (hdown : down = [] ∨ down = List.range' lo n) : raiseRow [] up down lo (List.range' lo n) = List.range' lo n := by
  induction n generalizing lo up down with
  | zero => rfl
  | succ n ih =>
    have hhead : ∀ l : List Nat, (l = [] ∨ l = List.range' lo (n + 1)) →
        l.headD 0 - 2 ≤ lo ∧ (l.drop 1 = [] ∨ l.drop 1 = List.range' (lo + 1) n) := by
      rintro l (rfl | rfl)
      · exact ⟨Nat.zero_le _, .inl rfl⟩
      · rw [List.range'_succ]
        exact ⟨Nat.sub_le _ _, .inr rfl⟩
    obtain ⟨hu, hup⟩ := hhead up hup
    obtain ⟨hd, hdown⟩ := hhead down hdown
    have hp : max (max lo lo) (max (up.headD 0 - 2) (down.headD 0 - 2)) = lo := by omega
    rw [List.range'_succ, raiseRow]
    simp only [hp, nextGood_nil (show lo < 82 by omega), ih (show lo + 1 + n ≤ 82 by omega) hup hdown]

theorem sweep_clean {w : Nat} (h : w ≤ 82) (k r : Nat) {up : List Nat} (hup : up = [] ∨ up = List.range w) :
    sweep (fun _ => []) r up (List.replicate k (List.range w)) = List.replicate k (List.range w) := by
  induction k generalizing r up with
  | zero => rfl
  | succ k ih =>
    have hdown : (List.replicate k (List.range w)).headD [] = [] ∨ (List.replicate k (List.range w)).headD [] = List.range w := by
      cases k with
      | zero => exact .inl rfl
      | succ k => exact .inr rfl
    have hrow : raiseRow [] up ((List.replicate k (List.range w)).headD []) 0 (List.range w) = List.range w := by
      rw [List.range_eq_range'] at hup hdown ⊢
      exact raiseRow_range' (by omega) hup hdown
    rw [List.replicate_succ, sweep, hrow, ih (r + 1) (.inr rfl)]

/-- A die without failures hosts every position at itself (R323). -/
theorem shiftMap_clean {w : Nat} (h : w ≤ 82) : shiftMap (fun _ => []) w = some (List.replicate 80 (List.range w)) := by
  have hfix : sweeps (fun _ => []) 20000 (List.replicate 80 (List.range w)) = List.replicate 80 (List.range w) := by
    rw [sweeps]
    simp only [sweep_clean h 80 0 (.inl rfl), beq_self_eq_true, if_true]
  have hall : (List.replicate 80 (List.range w)).all (fun row => row.all (· < 82)) = true := by
    rw [List.all_eq_true]
    intro row hrow
    rw [List.eq_of_mem_replicate hrow, List.all_eq_true]
    intro x hx
    exact decide_eq_true (by have := List.mem_range.mp hx; omega)
  rw [shiftMap]
  simp only [hfix, hall, if_true]

theorem fitWidth_clean {w : Nat} (h : w + 1 ≤ 82) : fitWidth (fun _ => []) (w + 1) = w + 1 := by
  rw [fitWidth, shiftMap_clean h, Option.isSome_some, if_pos rfl]

theorem badIn_nil (die : Nat) : badIn [] die = fun _ => [] := rfl

/-! ### Boot stages -/

theorem exec_bootStageComplete (r : BootResult) (s : State) : exec (.bootStageComplete r) s = execBootStageComplete r s := rfl
theorem exec_ddrZeroFill (s : State) : exec .ddrZeroFill s = execDdrZeroFill s := rfl

section
variable {s : State} {r : BootResult} (hw : s.working = true)
include hw

theorem bootStage_one (h : s.boot.stage = 1) : execBootStageComplete r s = .next (s.nextStage r.ms) := by
  simp only [execBootStageComplete, hw, h, Bool.not_true, Bool.false_eq_true, if_false]

theorem bootStage_two (h : s.boot.stage = 2) : execBootStageComplete r s =
    .next (if r.romOk then (s.modBoot fun b => { b with warnCxl := r.cxlDegraded }).nextStage r.ms
      else s.modBoot fun b => { b with resetHold := true }) := by
  cases hr : r.romOk <;> simp [execBootStageComplete, hw, h, hr]

theorem bootStage_three (h : s.boot.stage = 3) : execBootStageComplete r s = .next (s.bootFlash r) := by
  simp only [execBootStageComplete, hw, h, Bool.not_true, Bool.false_eq_true, if_false]

theorem bootStage_four (h : s.boot.stage = 4) : execBootStageComplete r s = .next (s.bootPower r) := by
  simp only [execBootStageComplete, hw, h, Bool.not_true, Bool.false_eq_true, if_false]

theorem bootStage_five (h : s.boot.stage = 5) : execBootStageComplete r s = .next (s.bootSelfTest r) := by
  simp only [execBootStageComplete, hw, h, Bool.not_true, Bool.false_eq_true, if_false]

theorem bootStage_six (h : s.boot.stage = 6) : execBootStageComplete r s = .next (s.bootRepair r.ms) := by
  simp only [execBootStageComplete, hw, h, Bool.not_true, Bool.false_eq_true, if_false]

theorem bootStage_seven (h : s.boot.stage = 7) : execBootStageComplete r s = .next (s.bootTrain r) := by
  simp only [execBootStageComplete, hw, h, Bool.not_true, Bool.false_eq_true, if_false]

end

/-- The next stage, from a known one. -/
theorem nextStage_eq {s : State} {n : Nat} (h : s.boot.stage = n) (ms : Nat) :
    s.nextStage ms = { s with boot := { s.boot with stage := n + 1, entryMs := ms } } := by
  subst h
  rfl

/-- BOOT_ERROR and Trivet, from a known stage. -/
theorem bootFail_eq {s : State} {n : Nat} (h : s.boot.stage = n) (code detail : Nat) : s.bootFail code detail =
    ({ s with boot := { s.boot with code := code, detail := detail, errStage := n } } : State).enterTrivet 1 := by
  subst h
  rfl

@[simp] theorem flashWrite_grid (s : State) (type : Nat) (body : List Byte) : (s.flashWrite type body).grid = s.grid := by
  unfold State.flashWrite
  dsimp only
  split
  · exact writeBytes_grid _ _ _
  · rfl

@[simp] theorem flashWrite_boot (s : State) (type : Nat) (body : List Byte) : (s.flashWrite type body).boot = s.boot := by
  unfold State.flashWrite
  dsimp only
  split
  · exact writeBytes_boot _ _ _
  · rfl

/-- Stage 6 with nothing failed and no record: 80 columns on every die, and a rebuilt record (R323, R326). -/
theorem bootRepair_clean {s : State} (hfail : s.grid.failed = []) (hrec : s.flashRecord 2 = none) (ms : Nat) :
    (s.bootRepair ms).boot = { s.boot with warnRepair := true, stage := s.boot.stage + 1, entryMs := ms } ∧
      (s.bootRepair ms).grid.valid = true ∧ (s.bootRepair ms).grid.retired = [0, 0, 0, 0] := by
  have hbody : s.repairBody = [] := by rw [State.repairBody, hrec]; rfl
  have hes : repairEntries s.repairBody = [] := by rw [hbody]; rfl
  have hfailed : (entriesFailed [] ++ s.grid.failed).eraseDups = [] := by rw [hfail]; rfl
  have hwidths : ((List.range 4).map fun d => fitWidth (badIn [] d) (80 - (entriesRetired ([] : List (List Byte))).getD d 0)) = [80, 80, 80, 80] := by
    have hw : fitWidth (fun _ => []) 80 = 80 := fitWidth_clean (by decide)
    simp only [List.range_succ, List.range_zero, List.nil_append, List.map_append, List.map_cons, List.map_nil, badIn_nil]
    simpa [entriesRetired] using hw
  have hnone : ([80, 80, 80, 80] : List Nat).findIdx? (· == 0) = none := by decide
  rw [State.bootRepair]
  simp only [hes, hfailed, hwidths, hrec, hnone, Option.isSome_none, Bool.false_and, Bool.false_eq_true, if_false, Option.isNone_none]
  simp only [State.nextStage, modBoot_boot, modBoot_grid, State.writeRepair, flashWrite_grid, flashWrite_boot, State.writeSpares,
    modGrid_boot, modGrid_grid]
  exact ⟨trivial, trivial, rfl⟩

/-! ### Memory training -/

/-- A disabled channel has no GiB in use. -/
theorem trainedGib_disabled {r : BootResult} {x : Nat × Nat × Nat} (hx : x ∈ bootDdrDisabled r) :
    (r.dimms.map (trainedGib (commonRate r.dimms))).getD x.1 0 = 0 := by
  simp only [bootDdrDisabled, List.mem_filterMap, id_eq, exists_eq_right, List.mem_mapIdx] at hx
  obtain ⟨i, hi, hd⟩ := hx
  cases hdimm : r.dimms[i] with
  | none => simp [hdimm] at hd
  | some d =>
    rw [hdimm, Option.bind_some, Option.map_eq_some_iff] at hd
    obtain ⟨c, hc, rfl⟩ := hd
    simp [List.getD_eq_getElem?_getD, hi, hdimm, trainedGib, hc]

/-- Stage 7 without a bad stack: rows repaired, the DIMMs at the common rate, an event for each disabled channel. -/
theorem bootTrain_good {s : State} {r : BootResult} (h : r.badStack = none) :
    (s.bootTrain r).boot = { s.boot with warnDdr := !(bootDdrDisabled r).isEmpty, stage := s.boot.stage + 1, entryMs := r.ms } ∧
      (s.bootTrain r).grid = { s.grid with
        hbmRows := (s.grid.hbmRows ++ r.hbmRows).eraseDups, ddrGib := r.dimms.map (trainedGib (commonRate r.dimms))
        ddrRate := commonRate r.dimms } := by
  rw [State.bootTrain]
  simp only [h]
  rw [State.nextStage, modBoot_boot, modBoot_grid, foldl_keeps State.boot (fun s d => event_boot s _ _ _),
    foldl_keeps State.grid (fun s d => event_grid s _ _ _)]
  exact ⟨rfl, rfl⟩

/-- Settles O58: by the stage and by what its self-check, flash, power, test or training found. -/
theorem bootStages : Obligations.BootStages := by
  refine ⟨fun s r hw => ⟨fun h => ?_, fun h hr => ?_, fun h hr => ?_, fun h hr => ?_, fun h hr => ?_, fun d h hr => ?_, fun h hr hs => ?_,
    fun d h hr hs => ?_, fun h hr => ?_, fun h hr hd => ?_, fun h hr hd => ?_, fun h hz => ?_⟩,
    fun s r hw h hfail hrec => ?_, shiftMap_clean (by decide)⟩
  · rw [exec_bootStageComplete, bootStage_one hw h, nextStage_eq h]
  · rw [exec_bootStageComplete, bootStage_two hw h, hr, if_pos rfl]
    exact congrArg _ (nextStage_eq (by exact h) r.ms)
  · rw [exec_bootStageComplete, bootStage_two hw h, hr, if_neg Bool.false_ne_true]
    rfl
  · rw [exec_bootStageComplete, bootStage_three hw h, State.bootFlash, hr, Bool.not_false, if_pos rfl, bootFail_eq h]
  · rw [exec_bootStageComplete, bootStage_three hw h, State.bootFlash, hr, Bool.not_true, if_neg Bool.false_ne_true]
    cases s.identityGood with
    | false => rw [Bool.not_false, if_pos rfl, if_pos rfl, bootFail_eq h]
    | true =>
      rw [Bool.not_true, if_neg Bool.false_ne_true, if_neg (show ¬ true = false by decide)]
      by_cases hk : r.pufKey = s.akpub
      · rw [if_neg (by simp [hk]), if_neg (not_not.mpr hk)]
        exact congrArg _ (nextStage_eq (by exact h) r.ms)
      · rw [if_pos (by simp [hk]), if_pos hk, bootFail_eq h]
  · rw [exec_bootStageComplete, bootStage_four hw h, State.bootPower, hr]
    exact congrArg _ (bootFail_eq h _ _)
  · rw [exec_bootStageComplete, bootStage_four hw h, State.bootPower, hr, hs]
    exact congrArg _ (nextStage_eq (by exact h) r.ms)
  · rw [exec_bootStageComplete, bootStage_four hw h, State.bootPower, hr, hs]
    exact congrArg _ (bootFail_eq h _ _)
  · rw [exec_bootStageComplete, bootStage_five hw h, State.bootSelfTest, hr]
    exact ⟨_, rfl, congrArg (· + 1) h, rfl, rfl⟩
  · have hnone : (bootDdrDisabled r).isEmpty = true := by rw [hd]; rfl
    rw [exec_bootStageComplete, bootStage_seven hw h]
    simp only [State.bootTrain, hr, hd]
    exact congrArg _ (nextStage_eq (by exact h) r.ms)
  · obtain ⟨hboot, hgrid⟩ := bootTrain_good (s := s) hr
    have hsome : (bootDdrDisabled r).isEmpty = false := by simpa using hd
    rw [hsome, h] at hboot
    refine ⟨_, bootStage_seven hw h, hboot, by rw [hgrid], fun x hx => ?_⟩
    rw [hgrid]
    exact trainedGib_disabled hx
  · rw [exec_ddrZeroFill]
    exact when_of_true (by rw [hw, decide_eq_true h, decide_eq_true hz]; rfl) _
  · obtain ⟨hboot, hvalid, hret⟩ := bootRepair_clean hfail hrec r.ms
    refine ⟨_, bootStage_six hw h, ?_, ?_, hvalid, hret, ?_⟩
    · rw [hboot, h]
    · rw [hboot]
    · simp [Grid.width, Grid.dieWidth, hvalid, hret]

end Sys2Proof.Machine
end

section
/-! PROOFS. Pins, and register accesses and SQ_FETCH (O57, O59). -/

set_option Elab.async false

namespace Sys2Proof.Machine

/-! ### Test port -/

theorem exec_bypass (s : State) : exec .bypass s = s.loadTap .bypass := rfl
theorem exec_idcode (s : State) : exec .idcode s = s.loadTap .idcode := rfl
theorem exec_samplePreload (s : State) : exec .samplePreload s = s.loadTap .samplePreload := rfl
theorem exec_extest (s : State) : exec .extest s = s.loadTap .extest := rfl
theorem exec_extestPulse (s : State) : exec .extestPulse s = s.loadTap .extestPulse := rfl
theorem exec_extestTrain (s : State) : exec .extestTrain s = s.loadTap .extestTrain := rfl
theorem exec_clamp (s : State) : exec .clamp s = s.loadTap .clamp := rfl
theorem exec_highz (s : State) : exec .highz s = s.loadTap .highz := rfl

section
variable {s : State} (h : s.pins.pwrGood = true)
include h

/-- An instruction whose register is BYPASS, or that RESET_N high turns into it (R372). -/
theorem loadTap_bypass {i : TapIr} (hi : s.pins.tapLoad i = .bypass ∨ s.pins.tapLoad i = .clamp ∨ s.pins.tapLoad i = .highz) :
    s.loadTap i = .next { s with
      pins := { s.pins with trstN := true, tap := s.pins.tapLoad i }, out := s.out ++ [.tdo 1 0] } := by
  rw [State.loadTap, when_of_true h]
  rcases hi with hi | hi | hi <;> rw [hi] <;> rfl

theorem loadTap_idcode : s.loadTap .idcode = .next { s with
    pins := { s.pins with trstN := true, tap := .idcode }, out := s.out ++ [.tdo 32 0x15C4445B] } := by
  have hi : s.pins.tapLoad .idcode = .idcode := if_neg (by simp [TapIr.drives])
  rw [State.loadTap, when_of_true h, hi]
  rfl

/-- SAMPLE/PRELOAD captures the pins and leaves free values in the cells. -/
theorem loadTap_samplePreload : s.loadTap .samplePreload = .next { s with
    free := s.free + 124, pins := { s.pins with trstN := true, tap := .samplePreload, cells := Boundary.of (s.free + 62) }
    out := s.out ++ [.tdoCells s.captured] } := by
  have hi : s.pins.tapLoad .samplePreload = .samplePreload := if_neg (by simp [TapIr.drives])
  rw [State.loadTap, when_of_true h, hi]
  rfl

/-- An EXTEST instruction with RESET_N low drives the cells and captures the pins. -/
theorem loadTap_extest (hr : s.pins.resetN = false) {i : TapIr} (hi : i = .extest ∨ i = .extestPulse ∨ i = .extestTrain) :
    s.loadTap i = .next { s with
      free := s.free + 62, pins := { s.pins with trstN := true, tap := i }, out := s.out ++ [.tdoCells s.captured] } := by
  have hl : s.pins.tapLoad i = i := if_neg (by rw [hr]; exact Bool.false_ne_true)
  rw [State.loadTap, when_of_true h, hl]
  rcases hi with rfl | rfl | rfl <;> rfl

end

/-- With RESET_N high an instruction that drives pins selects BYPASS, with it low it is loaded (R372). -/
theorem tapLoad_drives (p : Pins) {i : TapIr} (h : i.drives = true) : p.tapLoad i = if p.resetN then .bypass else i := by
  rw [Pins.tapLoad, h, Bool.and_true]

/-! ### Reset and power pins -/

theorem exec_pwrEnRise (s : State) : exec .pwrEnRise s = execPwrEnRise s := rfl
theorem exec_pwrEnFall (s : State) : exec .pwrEnFall s = execPwrEnFall s := rfl
theorem exec_vinRise (mv : Int) (s : State) : exec (.vinRise mv) s = execVinRise mv s := rfl
theorem exec_pwrGoodRise (s : State) : exec .pwrGoodRise s = execPwrGoodRise s := rfl
theorem exec_vinRemoval (s : State) : exec .vinRemoval s = execVinRemoval s := rfl
theorem exec_tripLatchRelease (s : State) : exec .tripLatchRelease s = execTripLatchRelease s := rfl
theorem exec_resetNAssert (s : State) : exec .resetNAssert s = execResetNAssert s := rfl
theorem exec_resetNRelease (s : State) : exec .resetNRelease s = execResetNRelease s := rfl

/-- A key that the filter drops is not listed. -/
theorem getCell_filter_dropped (cs : List Host.Cell) {p : Host.Cell → Bool} {k : Nat} (hp : ∀ b, p (k, b) = false) :
    getCell (cs.filter p) k = none := by
  induction cs with
  | nil => rfl
  | cons c cs ih =>
    obtain ⟨a, b⟩ := c
    by_cases hpc : p (a, b) = true
    · have hak : a ≠ k := by
        rintro rfl
        rw [hp b] at hpc
        exact Bool.false_ne_true hpc
      rw [List.filter_cons_of_pos hpc, getCell, if_neg hak, ih, ite_self]
    · rw [List.filter_cons_of_neg hpc, ih]

theorem restart_cells (s : State) : s.restart.mem.cells = s.mem.cells.filter fun c => spaceOf c.1 == 3 || spaceOf c.1 == 5 := rfl

/-- Package flash keeps its bytes over a restart (R338). -/
theorem readByte_restart_flash {s : State} (h : s.mem.wf = true) {a : Nat} (ha : spaceOf a = 5) :
    s.restart.readByte a = s.readByte a := by
  simp only [State.readByte, Memory.byte, restart_cells]
  rw [getCell_filter h fun _ => by simp [ha]]

/-- The other memory of the module reads zero after a restart (log 60). -/
theorem readByte_restart_lost (s : State) {a : Nat} (ha : spaceOf a < 3) : s.restart.readByte a = 0 := by
  have hdrop : ∀ b : Byte, (spaceOf (a, b).1 == 3 || spaceOf (a, b).1 == 5) = false := fun b => by
    simp only [Bool.or_eq_false_iff, beq_eq_false_iff_ne]
    omega
  simp only [State.readByte, Memory.byte, restart_cells]
  rw [getCell_filter_dropped _ hdrop, Option.getD_none, unlisted, if_neg (by omega)]

/-- A powered TAP out of reset drives an output from its cell, or leaves it to its resistor. -/
theorem level_driven {p : Pins} (hg : p.pwrGood = true) (ht : p.trstN = true) (pull own cell : Bool) :
    (p.tap = .clamp → p.level pull own cell = cell) ∧ (p.tap = .highz → p.level pull own cell = pull) := by
  constructor <;> intro hi <;> simp [Pins.level, hg, ht, hi]

/-- Settles O57: by the TAP instruction, and by the pin that changes. -/
theorem pinRows : Obligations.PinRows := by
  refine ⟨fun s h => ⟨fun x hx => ?_, loadTap_idcode h, ?_, fun x hx => ?_, fun hr t ht => ?_, fun hr t ht => ?_⟩,
    fun s => ⟨fun h => ?_, fun mv hmv h => ?_, fun hr h => ?_, fun h => ?_, fun h => ?_, fun hh hp => ?_, fun h hwf => ?_, fun h => ?_⟩⟩
  · simp only [List.mem_cons, List.not_mem_nil, or_false] at hx
    rcases hx with rfl | rfl | rfl
    · have hi : s.pins.tapLoad .bypass = if s.pins.resetN then .bypass else .bypass := by
        rw [ite_self]
        exact if_neg (by simp [TapIr.drives])
      rw [exec_bypass, ← hi]
      exact loadTap_bypass h (.inl (by rw [hi, ite_self]))
    · have hi := tapLoad_drives s.pins (i := .clamp) rfl
      rw [exec_clamp, ← hi]
      exact loadTap_bypass h (by rw [hi]; cases s.pins.resetN <;> simp)
    · have hi := tapLoad_drives s.pins (i := .highz) rfl
      rw [exec_highz, ← hi]
      exact loadTap_bypass h (by rw [hi]; cases s.pins.resetN <;> simp)
  · exact ⟨s.captured, Boundary.of (s.free + 62), rfl, rfl, rfl, rfl, rfl, rfl, rfl, rfl, loadTap_samplePreload h⟩
  · simp only [List.mem_cons, List.not_mem_nil, or_false] at hx
    obtain ⟨i, hexec, hi, hdrives⟩ : ∃ i, exec x.1 s = s.loadTap i ∧ (i = .extest ∨ i = .extestPulse ∨ i = .extestTrain) ∧ x.2 = i := by
      rcases hx with rfl | rfl | rfl
      · exact ⟨_, rfl, .inl rfl, rfl⟩
      · exact ⟨_, rfl, .inr (.inl rfl), rfl⟩
      · exact ⟨_, rfl, .inr (.inr rfl), rfl⟩
    rw [hexec, hdrives]
    refine ⟨fun hr => ?_, fun hr => ⟨s.captured, rfl, rfl, loadTap_extest h hr hi⟩⟩
    have hl : s.pins.tapLoad i = .bypass := by
      rw [tapLoad_drives _ (by rcases hi with rfl | rfl | rfl <;> rfl), if_pos hr]
    rw [loadTap_bypass h (.inl hl), hl]
  · have hl : s.pins.tapLoad .clamp = .clamp := by rw [tapLoad_drives _ rfl, if_neg (by simp [hr])]
    rw [exec_clamp, loadTap_bypass h (.inr (.inl hl)), hl] at ht
    injection ht with ht
    subst ht
    have hp := level_driven (p := { s.pins with trstN := true, tap := .clamp }) h rfl
    exact ⟨(hp _ _ _).1 rfl, (hp _ _ _).1 rfl, (hp _ _ _).1 rfl⟩
  · have hl : s.pins.tapLoad .highz = .highz := by rw [tapLoad_drives _ rfl, if_neg (by simp [hr])]
    rw [exec_highz, loadTap_bypass h (.inr (.inr hl)), hl] at ht
    injection ht with ht
    subst ht
    have hp := level_driven (p := { s.pins with trstN := true, tap := .highz }) h rfl
    exact ⟨(hp _ _ _).2 rfl, (hp _ _ _).2 rfl, (hp _ _ _).2 rfl⟩
  · exact when_of_true (by rw [h]; rfl) _
  · rw [exec_vinRise, execVinRise, when_of_true (by rw [h, decide_eq_true hmv]; rfl)]
    simp [State.raiseRails, State.modPins, Pins.mayRise, h, hmv]
  · exact when_of_true (by rw [hr, h]; rfl) _
  · exact ⟨_, when_of_true h _, rfl, rfl, rfl, rfl, rfl, rfl, rfl⟩
  · exact ⟨_, when_of_true (by rw [h]; rfl) _, rfl, rfl, rfl⟩
  · exact when_of_true (by rw [hh, hp]; rfl) _
  · exact ⟨_, when_of_true h _, rfl, rfl, rfl, rfl, rfl, rfl, rfl, rfl, rfl, rfl, rfl, rfl, rfl,
      fun a ha => readByte_restart_flash hwf ha, fun a ha => readByte_restart_lost _ ha, rfl⟩
  · refine ⟨_, when_of_true (by rw [h]; rfl) _, rfl, rfl, rfl, fun ht => ?_, fun ht => ?_⟩
    · exact if_pos (by rw [ht]; rfl)
    · exact (if_neg (by simp [ht, TapIr.drives])).trans ht

/-! ### SQ_FETCH from a column that retires -/

/-- The first byte of the SRAM of the only column of die 3 in row 0. -/
def lastColumnKey : Nat := mkKey 2 (240 * 2 ^ 18)

/-- The queue pair whose SQ lies in that SRAM, with one entry. -/
def lastColumnPair : QPair :=
  { QPair.reset 0 with
    enable := true, sqOwn := true, sqBase := BitVec.ofNat 64 lastColumnKey, sqLog2 := 4, cqLog2 := 4, sqTail := 1 }

/-- Die 3 has one column left, hosted at position 81, the last good one of row 0; the first word of its SRAM has changed and cannot
be corrected. -/
def lastColumn : State := { State.reset with
  boot := { State.reset.boot with stage := 9 }
  grid := { State.reset.grid with
    valid := true, retired := [0, 0, 0, 79], failed := (List.range 81).map fun p => (3, 0, p)
    remaps := [⟨3, 0, 0, [0], List.replicate 80 [81], []⟩] }
  mem := { State.reset.mem with upsets := [(lastColumnKey, true)] }
  q := { State.reset.q with pairs := [lastColumnPair] } }

/-- Every queue pair of the state a step leads to is in error. -/
def pairsInError (r : Res) : Bool :=
  match r with
  | .next t => t.q.pairs.all (·.error)
  | _ => false

/-- The state after the read, with the queue pair served and moved on. -/
def lastColumnServed : State :=
  ({ lastColumn.touch lastColumnKey 64 with q := { (lastColumn.touch lastColumnKey 64).q with rr := 0 } } : State).modPair 0
    fun p => { p with sqHead := (p.sqHead + 1) % 2 ^ p.sqLog2 }

/-- The envelope of an entry of zeros. -/
def zeroEnv : Env := (decodePacket 0 (zeros 64)).1

theorem decodePacket_zeros : decodePacket lastColumnPair.id (zeros 64) = (zeroEnv, none) := by decide +kernel

/-- Reading the entry fails the position and retires the column, and with the column goes the poison of the word (R325). The bytes
read are zero, but they lie beyond the memory that is left, and so the pair is in error; a refused command would not bring that. -/
theorem lastColumn_read : (lastColumn.touch lastColumnKey 64).poisonedIn lastColumnKey 64 = false ∧
    (lastColumn.touch lastColumnKey 64).readBytes lastColumnKey 64 = zeros 64 ∧
    pairsInError (exec .sqFetch lastColumn) = true ∧
    pairsInError (.next (lastColumnServed.takeIn .sqFetch zeroEnv (some .badOpcode))) = false := by decide +kernel

/-- Refutes O59 in the clause of an SQ entry that can be read. The range of the entry is judged before its words are checked, and
the check can fail a position, retire the last column of the die and so take away the memory of the entry with its poison mark: the
entry is then not poisoned, and still it cannot be read and the pair goes into error 2. -/
theorem not_registerAndFetchRows : ¬ Obligations.RegisterAndFetchRows := by
  intro h
  obtain ⟨-, hentry⟩ := h.2 lastColumn
  obtain ⟨-, hread⟩ := hentry lastColumnPair lastColumnKey (by decide) rfl (by decide)
  obtain ⟨-, hclean⟩ := hread rfl (by decide) _ _ rfl rfl
  obtain ⟨htouched, hbytes, herr, hnoerr⟩ := lastColumn_read
  obtain ⟨hundefined, -, -⟩ := hclean htouched lastColumnServed rfl zeroEnv
  rw [hundefined (by rw [hbytes, decodePacket_zeros]), hnoerr] at herr
  exact Bool.false_ne_true herr

end Sys2Proof.Machine
end

section
/-! PROOFS. SPDM, sideband and discovery (O56). -/

set_option Elab.async false

namespace Sys2Proof.Machine

/-! ### SPDM -/

theorem exec_getVersion (via : Via) (s : State) :
    exec (.getVersion via) s = s.spdmAnswer via fun s => s.send (.spdm via "VERSION" 1 [0x00, 0x12]) := rfl
theorem exec_getCapabilities (via : Via) (s : State) :
    exec (.getCapabilities via) s = s.spdmAnswer via fun s => s.send (.spdm via "CAPABILITIES" 0 (leBytes 4 spdmCaps)) := rfl
theorem exec_negotiateAlgorithms (via : Via) (s : State) :
    exec (.negotiateAlgorithms via) s = s.spdmAnswer via fun s => s.send (.spdm via "ALGORITHMS" 0 spdmAlgorithms) := rfl
theorem exec_getDigests (via : Via) (s : State) :
    exec (.getDigests via) s = s.spdmAnswer via fun s => s.send (.spdm via "DIGESTS" 1 (digestBytes (sha384 s.certChain))) := rfl
theorem exec_getCertificate (via : Via) (slot : Byte) (off len : U16) (s : State) : exec (.getCertificate via slot off len) s =
    s.spdmAnswer via fun s => s.spdmSlot via slot fun s =>
      if s.certChain.length ≤ off.toNat then s.send (.spdm via "ERROR" spdmInvalid [])
      else s.send (.spdm via "CERTIFICATE" (s.certChain.length - off.toNat - ((s.certChain.drop off.toNat).take len.toNat).length)
        ((s.certChain.drop off.toNat).take len.toNat)) := rfl
theorem exec_challenge (via : Via) (slot : Byte) (nonce : BitVec 256) (s : State) : exec (.challenge via slot nonce) s =
    s.spdmAnswer via fun s => s.spdmSlot via slot fun s => (s.spdmSigned (digestBytes (sha384 s.certChain))).2.send
      (.spdm via "CHALLENGE_AUTH" 0 (s.spdmSigned (digestBytes (sha384 s.certChain))).1) := rfl
theorem exec_getMeasurements (via : Via) (slot index : Byte) (nonce : BitVec 256) (s : State) :
    exec (.getMeasurements via slot index nonce) s = execGetMeasurements via slot index nonce s := rfl
theorem exec_unsupportedRequest_spdm (via : Via) (code : Byte) (s : State) : exec (.unsupportedRequest (.spdm via code)) s =
    s.spdmAnswer via fun s => s.send (.spdm via "ERROR" spdmUnsupported []) := rfl
theorem exec_unsupportedRequest_mctpControl (c : Byte) (s : State) : exec (.unsupportedRequest (.mctpControl c)) s =
    s.when (s.sideOpen && !([0x01, 0x02, 0x04, 0x05].contains c.toNat)) (s.mctpControl c.toNat 0x05 []) := rfl

section
variable {s : State}

/-- Configuration space is not ready before stage 3: a request through the mailbox is answered with Retry Status. -/
theorem spdmAnswer_retry (hal : s.alive = true) (hst : s.boot.stage < 3) (f : State → State) :
    s.spdmAnswer .doe f = .next { s with out := s.out ++ [.configRetry] } := by
  have hbusy : s.configBusy = true := decide_eq_true hst
  simp only [State.spdmAnswer, hal, hbusy, decide_true, Bool.and_self, if_true]
  rfl

variable {via : Via}

theorem not_busy_of_spdmOpen (h : s.spdmOpen via = true) : (decide (via = .doe) && s.alive && s.configBusy) = false := by
  cases via with
  | doe =>
    simp only [State.spdmOpen, Bool.and_eq_true, Bool.not_eq_true'] at h
    rw [h.2, Bool.and_false]
  | mctp => rfl

/-- Before stage 4 an open way answers Busy. -/
theorem spdmAnswer_busy (h : s.spdmOpen via = true) (hst : s.boot.stage < 4) (f : State → State) :
    s.spdmAnswer via f = .next { s with out := s.out ++ [.spdm via "ERROR" 3 []] } := by
  simp only [State.spdmAnswer, not_busy_of_spdmOpen h, h, hst, Bool.not_true, Bool.false_eq_true, if_false, if_true]
  rfl

/-- From stage 4 on an open way gives the request's own answer. -/
theorem spdmAnswer_open (h : s.spdmOpen via = true) (hst : 4 ≤ s.boot.stage) (f : State → State) : s.spdmAnswer via f = .next (f s) := by
  simp only [State.spdmAnswer, not_busy_of_spdmOpen h, h, Nat.not_lt.mpr hst, Bool.not_true, Bool.false_eq_true, if_false]

end

/-! ### Sideband and discovery -/

theorem exec_dynamicAddressAssignment (a : BitVec 7) (s : State) :
    exec (.dynamicAddressAssignment a) s = execDynamicAddressAssignment a s := rfl
theorem exec_doeDiscovery (i : Byte) (s : State) : exec (.doeDiscovery i) s = execDoeDiscovery i s := rfl
theorem exec_setEndpointId (eid : Byte) (s : State) : exec (.setEndpointId eid) s = execSetEndpointId eid s := rfl
theorem exec_getEndpointId (s : State) : exec .getEndpointId s = execGetEndpointId s := rfl
theorem exec_getMctpVersionSupport (s : State) : exec .getMctpVersionSupport s = execGetMctpVersionSupport s := rfl
theorem exec_getMessageTypeSupport (s : State) : exec .getMessageTypeSupport s = execGetMessageTypeSupport s := rfl
theorem exec_sidebandReadRegister (off : U32) (s : State) : exec (.sidebandReadRegister off) s = execSidebandReadRegister off s := rfl
theorem exec_sidebandReadBootStatus (s : State) : exec .sidebandReadBootStatus s = execSidebandReadBootStatus s := rfl

/-- A signed answer: its body, a nonce of 32 bytes and a signature of 96, over 48 free values. -/
theorem spdmSigned_eq (s : State) (body : List Byte) : ∃ bs : List Byte, bs.length = 128 ∧
    s.spdmSigned body = (body ++ bs, { s with free := s.free + 48 }) := by
  refine ⟨leBytes 32 (Config.spdmNonce s.free).toNat ++ beBytes 96 (Config.attestSign (digestAt (s.drawBytes 48).1 0)).toNat, ?_, ?_⟩
  · rw [List.length_append, length_leBytes, length_beBytes]
  · rw [← List.append_assoc]
    rfl

/-- The byte of a number below 256. -/
theorem leBytes_one (n : Nat) : leBytes 1 n = [BitVec.ofNat 8 n] := rfl

/-- An MCTP control answer is the message of its bytes. -/
theorem mctpControl_eq (s : State) (c r : Nat) (data : List Byte) : s.mctpControl c r data =
    { s with out := s.out ++ [.mctp ([0, BitVec.ofNat 8 c, BitVec.ofNat 8 r] ++ data)] } := rfl

/-- Settles O56: by the way of the request, the boot stage, and the request. -/
theorem managementRows : Obligations.ManagementRows := by
  refine ⟨fun s via h => ⟨fun hst => ?_, fun hst => ⟨?_, ?_, ?_, ?_, fun off len hoff part hpart => ?_, fun nonce => ?_, fun nonce => ?_,
      fun slot off len hslot => ?_, fun code => ?_⟩⟩,
    fun s hal hst => ⟨?_, ?_, ?_, ?_, fun _ _ _ => ?_, fun _ _ => ?_, fun _ _ _ => ?_⟩,
    fun s => ⟨fun hal hst a => ?_, fun hal hst i => ?_, fun hal hst => ⟨?_, ?_⟩, fun h => ⟨fun eid => ?_, ?_, ?_, ?_, fun off hoff => ?_, ?_,
      fun c hc => ?_⟩, fun t => rfl⟩⟩
  · exact (exec_getVersion via s).trans (spdmAnswer_busy h hst _)
  · exact (exec_getVersion via s).trans (spdmAnswer_open h hst _)
  · exact (exec_getCapabilities via s).trans (spdmAnswer_open h hst _)
  · exact (exec_negotiateAlgorithms via s).trans (spdmAnswer_open h hst _)
  · exact (exec_getDigests via s).trans (spdmAnswer_open h hst _)
  · subst hpart
    rw [exec_getCertificate, spdmAnswer_open h hst, State.spdmSlot, if_pos rfl, if_neg (Nat.not_le.mpr hoff)]
    rfl
  · obtain ⟨bs, hlen, hsigned⟩ := spdmSigned_eq s (digestBytes (sha384 s.certChain))
    refine ⟨bs, hlen, ?_⟩
    rw [exec_challenge, spdmAnswer_open h hst, State.spdmSlot, if_pos rfl, hsigned]
    rfl
  · obtain ⟨bs, hlen, hsigned⟩ := spdmSigned_eq s ([6, 1, 0] ++ leBytes 1 (gradeOf s.grid.retiredAll))
    refine ⟨bs, hlen, ?_⟩
    rw [exec_getMeasurements, execGetMeasurements, spdmAnswer_open h hst, State.spdmSlot, if_pos rfl]
    have hone : s.measurements (6 : Byte).toNat = some [(6, leBytes 1 (gradeOf s.grid.retiredAll))] := rfl
    simp only [hone]
    rw [show [(6, leBytes 1 (gradeOf s.grid.retiredAll))].flatMap (fun b => leBytes 1 b.1 ++ leBytes 2 b.2.length ++ b.2) =
      [6, 1, 0] ++ leBytes 1 (gradeOf s.grid.retiredAll) by
        rw [List.flatMap_cons, List.flatMap_nil, List.append_nil, length_leBytes]
        rfl, hsigned]
    rfl
  · rw [exec_getCertificate, spdmAnswer_open h hst, State.spdmSlot, if_neg hslot]
    rfl
  · exact (exec_unsupportedRequest_spdm via code s).trans (spdmAnswer_open h hst _)
  · exact (exec_getVersion _ s).trans (spdmAnswer_retry hal hst _)
  · exact (exec_getCapabilities _ s).trans (spdmAnswer_retry hal hst _)
  · exact (exec_negotiateAlgorithms _ s).trans (spdmAnswer_retry hal hst _)
  · exact (exec_getDigests _ s).trans (spdmAnswer_retry hal hst _)
  · exact (exec_getCertificate _ _ _ _ s).trans (spdmAnswer_retry hal hst _)
  · exact (exec_challenge _ _ _ s).trans (spdmAnswer_retry hal hst _)
  · rw [exec_getMeasurements, execGetMeasurements]
    exact spdmAnswer_retry hal hst _
  · exact when_of_true (by rw [hal, decide_eq_true hst]; rfl) _
  · rw [exec_doeDiscovery, execDoeDiscovery, when_of_true hal, if_pos (show s.configBusy = true from decide_eq_true hst)]
    rfl
  · rw [exec_doeDiscovery, execDoeDiscovery, when_of_true hal, if_neg (by simp [State.configBusy, hst])]
    rfl
  · rw [exec_doeDiscovery, execDoeDiscovery, when_of_true hal, if_neg (by simp [State.configBusy, hst])]
    rfl
  · exact when_of_true h _
  · exact when_of_true h _
  · exact when_of_true h _
  · exact when_of_true h _
  · rw [exec_sidebandReadRegister, execSidebandReadRegister, when_of_true h, if_pos hoff]
    rfl
  · rw [exec_sidebandReadBootStatus, execSidebandReadBootStatus, when_of_true h]
    rfl
  · have hother : [0x01, 0x02, 0x04, 0x05].contains c.toNat = false := by
      revert hc
      revert c
      decide
    rw [exec_unsupportedRequest_mctpControl, when_of_true (by rw [h, hother]; rfl), mctpControl_eq]
    simp

end Sys2Proof.Machine
end

section
/-! PROOFS. Firmware load, identity and flash records (O54). -/

set_option Elab.async false

namespace Sys2Proof.Machine

/-! ### Firmware load and identity -/

theorem exec_fwLoad (e : Env) (image : U64) (len : U32) (s : State) : exec (.fwLoad e image len) s = execFwLoad e image len s := rfl
theorem exec_firmwareStart (ms : Nat) (s : State) : exec (.firmwareStart ms) s = execFirmwareStart ms s := rfl
theorem exec_idQuery (e : Env) (s : State) : exec (.idQuery e) s = execIdQuery e s := rfl
theorem exec_flashRecordRead (e : Env) (ty : Byte) (dst : U64) (n : U32) (s : State) :
    exec (.flashRecordRead e ty dst n) s = execFlashRecordRead e ty dst n s := rfl

section
variable {s u : State} {e : Env} {image : U64} {len : U32} {k : Nat} {bs : List Byte} (hst : s.boot.stage = 8)
  (hk : k = s.keyAt e image.toNat len.toNat true false) (hu : u = s.touch k len.toNat) (hbs : bs = u.readBytes k len.toNat)
include hst hk hu hbs

/-- An image that fails leaves its code and detail, and FW_REJECTED. -/
theorem startFwLoad_rejected {code detail : Nat} (hfail : u.imageFail bs = some (code, detail)) (id : Nat) :
    startFwLoad e image len id s = (u.modBoot fun b => { b with code := code, detail := detail, errStage := b.stage }).finish id .fwRejected := by
  subst hk hu hbs
  rw [startFwLoad, if_neg (by rw [hst]; decide)]
  simp only [hfail]

/-- An image without a record after its body waits for its start. -/
theorem startFwLoad_accepted (hfail : u.imageFail bs = none) (hlen : bs.length = 512 + fieldAt bs 12 4) (id : Nat) :
    startFwLoad e image len id s = u.modBoot fun b => { b with code := 0, accepted := some ⟨fieldAt bs 8 4, sha384 bs, id⟩ } := by
  have hrec : bs.drop (512 + fieldAt bs 12 4) = [] := List.drop_eq_nil_of_le (by omega)
  subst hk hu hbs
  rw [startFwLoad, if_neg (by rw [hst]; decide)]
  simp only [hfail, hrec]
  rfl

end

/-- Settles O54: FW_LOAD at stages 8 and 9, the start of the firmware, the identity and a record of package flash. -/
theorem firmwareAndIdentity : Obligations.FirmwareAndIdentity := by
  refine ⟨fun s e r image len k u bs => ⟨fun hw hst hr ho hb hh hlen hk hu hbs => ?_, fun h hlen => ?_, fun f ms hw hst hacc => ?_⟩,
    fun s e r => ⟨fun h => ?_, fun ty dst n k bs h hn hrec hlen hk => ?_⟩⟩
  · have hz : (len == 0) = false := by simpa using hlen
    have hstart : exec (.fwLoad e image len) s = .next (startFwLoad e image len r.id (s.started r)) := by
      rw [exec_fwLoad, execFwLoad, command_rom hw hr ho hb hh (fetched_cmd hr).1 rfl, hz, if_neg Bool.false_ne_true]
    have hst' : (s.started r).boot.stage = 8 := by rw [started_boot, hst]
    refine ⟨fun code detail hfail => ?_, fun _ hblen => ?_⟩
    · rw [hstart, startFwLoad_rejected hst' hk hu hbs hfail]
      rfl
    · rw [hstart]
      cases hfail : u.imageFail bs with
      | some c => exact congrArg _ (startFwLoad_rejected hst' hk hu hbs hfail r.id)
      | none => exact congrArg _ (startFwLoad_accepted hst' hk hu hbs hfail hblen r.id)
  · have hz : (len == 0) = false := by simpa using hlen
    rw [exec_fwLoad, execFwLoad, command_ready h _ _ _ hz, startFwLoad, if_pos (by rw [started_boot]; exact h.stage)]
  · have hguard : (!(s.working && s.boot.stage == 8)) = false := by rw [hw, hst]; rfl
    rw [exec_firmwareStart, execFirmwareStart, hacc]
    simp only [hguard, Bool.false_eq_true, if_false]
    rw [nextStage_eq (n := 8) (by exact hst)]
    rfl
  · rw [exec_idQuery, execIdQuery, command_ready h _ _ _ rfl, startIdQuery, State.grade, started_boot, started_grid]
  · have hz : (n == 0) = false := by simpa using hn
    rw [exec_flashRecordRead, execFlashRecordRead, command_ready h _ _ _ hz, startFlashRecordRead, hrec]
    simp only [Nat.not_lt.mpr hlen, if_false, State.keyAt, hk, Option.getD_some]

end Sys2Proof.Machine
end

section
/-! PROOFS. Queue pairs, barriers, journal and host memory (O10, O11, O14). -/

set_option Elab.async false

namespace Sys2Proof.Machine

/-! ### Queries, queue pairs, barriers and the journal -/

theorem exec_nop (e : Env) (s : State) : exec (.nop e) s = execNop e s := rfl
theorem exec_devQuery (e : Env) (s : State) : exec (.devQuery e) s = execDevQuery e s := rfl
theorem exec_tmrQuery (e : Env) (s : State) : exec (.tmrQuery e) s = execTmrQuery e s := rfl
theorem exec_qpCreate (e : Env) (sqBase cqBase : U64) (sqDepth cqDepth : U32) (vector : BitVec 6) (vecEn : Bool) (job : Byte) (s : State) :
    exec (.qpCreate e sqBase cqBase sqDepth cqDepth vector vecEn job) s = execQpCreate e sqBase cqBase sqDepth cqDepth vector vecEn job s :=
  rfl
theorem exec_qpDestroy (e : Env) (qid : U16) (s : State) : exec (.qpDestroy e qid) s = execQpDestroy e qid s := rfl
theorem exec_barrier (e : Env) (bid members : U16) (s : State) : exec (.barrier e bid members) s = execBarrier e bid members s := rfl
theorem exec_journalRead (e : Env) (dest : U64) (first maxn : U32) (s : State) :
    exec (.journalRead e dest first maxn) s = execJournalRead e dest first maxn s := rfl

section
variable {s : State}

/-- A choice from candidates is one of them, and takes a free value. -/
theorem choose_mem {cands : List Nat} (h : cands ≠ []) : ∃ q ∈ cands, s.choose cands = (some q, { s with free := s.free + 1 }) := by
  have hlt : (Config.freeValue s.free).toNat % cands.length < cands.length := Nat.mod_lt _ (List.length_pos_iff.mpr h)
  refine ⟨cands[(Config.freeValue s.free).toNat % cands.length], List.getElem_mem hlt, ?_⟩
  rw [State.choose, if_neg (by simpa using h), List.getElem?_eq_getElem hlt]

/-- QP_CREATE for no job, or for one that takes a pair, under a free ID. -/
theorem startQpCreate_free {sqBase cqBase : U64} {sqDepth cqDepth : U32} {vector : BitVec 6} {vecEn : Bool} {job : Byte}
    (hjob : job = 0xFF ∨ (job.toNat < 16 ∧ s.jobTakesPair job.toNat = true)) (hfree : s.freeQueueIds ≠ []) (id : Nat) :
    ∃ q ∈ s.freeQueueIds, startQpCreate sqBase cqBase sqDepth cqDepth vector vecEn job id s =
      (({ s with free := s.free + 1 } : State).modQ fun x =>
        { x with pairs := x.pairs ++ [QPair.make q sqBase cqBase sqDepth cqDepth vector vecEn job] }).finish id .ok (leBytes 2 q) := by
  obtain ⟨q, hq, hchoose⟩ := choose_mem (s := s) hfree
  have hnojob : (decide (job.toNat < 16) && (s.job? job.toNat).isNone) = false := by
    rcases hjob with rfl | ⟨hlt, htakes⟩
    · rfl
    · cases hj : s.job? job.toNat with
      | none => simp [State.jobTakesPair, hj] at htakes
      | some j => simp
  have htakes : (decide (job.toNat < 16) && !s.jobTakesPair job.toNat) = false := by
    rcases hjob with rfl | ⟨hlt, htakes⟩
    · rfl
    · rw [htakes, Bool.not_true, Bool.and_false]
  refine ⟨q, hq, ?_⟩
  simp only [startQpCreate, hnojob, htakes, Bool.false_eq_true, if_false, hchoose]

/-- QP_DESTROY without open barriers ends the commands that wait in the pair. -/
theorem startQpDestroy_plain {e : Env} {qid : U16} {p : QPair} (hd : s.destroyable e qid = true) (hp : s.pair? qid.toNat = some p)
    (hc : p.closing = none) (hb : s.q.barriers = []) (id : Nat) : startQpDestroy e qid id s =
      ((s.modPair qid.toNat fun p => { p with closing := some id }).leaveBarriers []).finishAll
        (((s.recsOf qid.toNat).filter fun x => x.phase == .waiting).map fun x => (x.id, .cancelled, [])) := by
  have hgo : (!s.destroyable e qid || ((s.pair? qid.toNat).bind (·.closing)).isSome) = false := by
    rw [hd, hp, Option.bind_some, hc]
    rfl
  simp only [startQpDestroy, hgo, Bool.false_eq_true, if_false, hb, List.flatMap_nil, List.filter_nil, List.append_nil, List.map_map]
  rfl

/-- With no barrier open, a BARRIER is the first member of its own. -/
theorem startBarrier_first {e : Env} {bid members : U16} (hb : s.q.barriers = []) (id : Nat) : startBarrier e bid members id s =
    (s.modQ fun q => { q with barriers := [⟨bid.toNat, members.toNat, e.atTick, e.lateRun, e.launch.toNat, [id]⟩] }).releaseIfFull
      bid.toNat := by
  have hnone : s.barrier? bid.toNat = none := by rw [State.barrier?, hb]; rfl
  simp only [startBarrier, hnone]
  rw [if_neg (by rw [hb]; decide), State.modQ, hb]
  rfl

theorem barrier?_only (b : Barrier) : (s.modQ fun q => { q with barriers := [b] }).barrier? b.id = some b := by
  simp [State.barrier?]

theorem closeBarrier_only (hb : s.q.barriers = []) (b : Barrier) : (s.modQ fun q => { q with barriers := [b] }).closeBarrier b.id = s := by
  have hnil : ([b].filter fun x => x.id != b.id) = s.q.barriers := by rw [hb]; simp
  rw [State.closeBarrier, State.modQ, modQ_q]
  dsimp only
  rw [hnil]
  rfl

/-- A BARRIER of one member, where none is open, is full at once. -/
theorem startBarrier_one {e : Env} {bid : U16} (hb : s.q.barriers = []) (ht : e.atTick = false) (id : Nat) :
    startBarrier e bid 1 id s = s.finishAll [(id, .ok, leBytes 8 s.tmr.count)] := by
  rw [startBarrier_first hb, State.releaseIfFull, barrier?_only ⟨bid.toNat, _, e.atTick, e.lateRun, e.launch.toNat, [id]⟩]
  have hclose := closeBarrier_only hb ⟨bid.toNat, (1 : U16).toNat, e.atTick, e.lateRun, e.launch.toNat, [id]⟩
  simp only [ht] at hclose ⊢
  rw [if_pos (by rfl), hclose]
  rfl

/-- A BARRIER of more members, where none is open, opens it. -/
theorem startBarrier_opens {e : Env} {bid members : U16} (hb : s.q.barriers = []) (h0 : members ≠ 0) (h1 : members ≠ 1) (ht : e.atTick = false)
    (hl : e.lateRun = false) (hlaunch : e.launch = 0) (id : Nat) : startBarrier e bid members id s =
      s.modQ fun q => { q with barriers := [⟨bid.toNat, members.toNat, false, false, 0, [id]⟩] } := by
  have hmany : ¬ members.toNat ≤ 1 := by
    have h0' : members.toNat ≠ 0 := fun h => h0 (BitVec.eq_of_toNat_eq h)
    have h1' : members.toNat ≠ 1 := fun h => h1 (BitVec.eq_of_toNat_eq h)
    omega
  rw [startBarrier_first hb, State.releaseIfFull, barrier?_only ⟨bid.toNat, members.toNat, e.atTick, e.lateRun, e.launch.toNat, [id]⟩]
  dsimp only
  rw [List.length_singleton, decide_eq_false hmany, Bool.false_and, if_neg Bool.false_ne_true, ht, hl, hlaunch]
  rfl

end

/-- Settles O10: each command from the state in which it starts. -/
theorem queueFamilyComplete : Obligations.QueueFamilyComplete := by
  refine ⟨fun s e r => ⟨fun h => ?_, fun h => ?_, fun h => ?_⟩,
    fun s e r => ⟨fun sqBase cqBase sqDepth cqDepth vector vecEn job h hjob hfree => ?_, fun qid p h hlo hhi hne hp hc hb => ?_,
      fun bid members h hm hb ht hl hlaunch => ?_⟩,
    fun s e r dest first maxn j js h hm hj => ?_⟩
  · rw [exec_nop, execNop, command_ready h _ _ _ rfl, startNop]
  · rw [exec_devQuery, execDevQuery, command_ready h _ _ _ rfl, startDevQuery]
    simp only [State.devQueryResult, started_boot, started_grid, started_ctxs, started_jobs, started_q, h.stage, if_true]
    rfl
  · rw [exec_tmrQuery, execTmrQuery, command_ready h _ _ _ rfl, startTmrQuery, started_tmr]
    rfl
  · obtain ⟨q, hq, hstart⟩ := startQpCreate_free (sqBase := sqBase) (cqBase := cqBase) (sqDepth := sqDepth) (cqDepth := cqDepth)
      (vector := vector) (vecEn := vecEn) hjob hfree r.id
    exact ⟨q, hq, by rw [exec_qpCreate, execQpCreate, command_ready h _ _ _ rfl, hstart]⟩
  · have hd : (s.started r).destroyable e qid = true := by
      simp [State.destroyable, hlo, hhi, hne, hp]
    rw [exec_qpDestroy, execQpDestroy, command_ready h _ _ _ rfl, startQpDestroy_plain hd hp hc (by rw [started_q]; exact hb)]
  · have hb' : (s.started r).q.barriers = [] := by rw [started_q]; exact hb
    have hz : (members == 0) = false := by simpa using hm
    rw [exec_barrier, execBarrier, command_ready h _ _ _ hz]
    by_cases h1 : members = 1
    · rw [if_pos h1, h1, startBarrier_one hb' ht, started_tmr]
    · rw [if_neg h1, startBarrier_opens hb' hm h1 ht hl hlaunch]
  · have hz : (maxn == 0) = false := by simpa using hm
    rw [exec_journalRead, execJournalRead, command_ready h _ _ _ hz, startJournalRead]
    simp only [State.journalFrom, hj]

/-! ### Doorbells and queue pair 0 -/

theorem exec_sqTailDoorbell (q : U16) (v : U64) (s : State) : exec (.sqTailDoorbell q v) s = execSqTailDoorbell q v s := rfl
theorem exec_cqHeadDoorbell (q : U16) (v : U64) (s : State) : exec (.cqHeadDoorbell q v) s = execCqHeadDoorbell q v s := rfl
theorem exec_qp0Enable (ctrl : U64) (s : State) : exec (.qp0Enable ctrl) s = execQp0Enable ctrl s := rfl
theorem exec_qp0Disable (ctrl : U64) (s : State) : exec (.qp0Disable ctrl) s = execQp0Disable ctrl s := rfl

section
variable {s : State} (hw : s.working = true) {q : U16} (hq : q.toNat < 2048) (v : U64)
include hw hq

theorem doorbell_reaches : (!s.working || decide (2048 ≤ q.toNat)) = false := by
  rw [hw, decide_eq_false (by omega)]
  rfl

/-- A doorbell of the SQ of an enabled pair without error moves its tail, or is out of range (R41). -/
theorem execSqTailDoorbell_enabled {p : QPair} (hp : s.pair? q.toNat = some p) (he : p.error = false) (hen : p.enable = true) :
    execSqTailDoorbell q v s = .next (if v.toNat % 65536 < p.sqDepth then s.modPair q.toNat fun p => { p with sqTail := v.toNat % 65536 }
      else s.pairError q.toNat 1 (v.toNat % 2 ^ 32)) := by
  have hon : (p.error || !p.enable) = false := by rw [he, hen]; rfl
  simp only [execSqTailDoorbell, doorbell_reaches hw hq, hp, hon, Bool.false_eq_true, if_false]
  by_cases h : p.sqDepth ≤ v.toNat % 65536
  · rw [if_pos h, if_neg (Nat.not_lt.mpr h)]
  · rw [if_neg h, if_pos (Nat.not_le.mp h)]

/-- A doorbell of the CQ of an enabled pair without error moves its head, or is out of range (R41). -/
theorem execCqHeadDoorbell_enabled {p : QPair} (hp : s.pair? q.toNat = some p) (he : p.error = false) (hen : p.enable = true) :
    execCqHeadDoorbell q v s = .next (if p.headOk (v.toNat % 65536) then s.modPair q.toNat fun p => { p with cqHead := v.toNat % 65536 }
      else s.pairError q.toNat 5 (v.toNat % 2 ^ 32)) := by
  have hon : (p.error || !p.enable) = false := by rw [he, hen]; rfl
  simp only [execCqHeadDoorbell, doorbell_reaches hw hq, hp, hon, Bool.false_eq_true, if_false]
  cases p.headOk (v.toNat % 65536) <;> rfl

/-- A pair in error ignores its doorbells. -/
theorem doorbells_in_error {p : QPair} (hp : s.pair? q.toNat = some p) (he : p.error = true) :
    execSqTailDoorbell q v s = .next s ∧ execCqHeadDoorbell q v s = .next s := by
  constructor
  · simp only [execSqTailDoorbell, doorbell_reaches hw hq, hp, he, Bool.true_or, Bool.false_eq_true, if_false, if_true]
  · simp only [execCqHeadDoorbell, doorbell_reaches hw hq, hp, he, Bool.true_or, Bool.false_eq_true, if_false, if_true]

/-- A doorbell of a pair that does not exist is reported. -/
theorem doorbells_stray (hp : s.pair? q.toNat = none) :
    execSqTailDoorbell q v s = .next (s.strayDoorbell (8 * q.toNat) v) ∧
      execCqHeadDoorbell q v s = .next (s.strayDoorbell (0x10000 + 8 * q.toNat) v) := by
  constructor
  · simp only [execSqTailDoorbell, doorbell_reaches hw hq, hp, Bool.false_eq_true, if_false]
  · simp only [execCqHeadDoorbell, doorbell_reaches hw hq, hp, Bool.false_eq_true, if_false]

end

section
variable {s : State}

theorem pair?_id {q : Nat} {p : QPair} (h : s.pair? q = some p) : p.id = q := by
  have hp := List.find?_some h
  exact eq_of_beq hp

/-- Two changes of a pair are one; the first keeps the number of the pair. -/
theorem modPair_modPair (q : Nat) (f g : QPair → QPair) (hf : ∀ p, p.id = q → (f p).id = q) :
    (s.modPair q f).modPair q g = s.modPair q fun p => g (f p) := by
  have hmap : ∀ p : QPair, (if (if p.id == q then f p else p).id == q then g (if p.id == q then f p else p) else if p.id == q then f p else p) =
      if p.id == q then g (f p) else p := by
    intro p
    by_cases h : p.id = q
    · simp [h, hf p h]
    · simp [h]
  simp only [State.modPair, List.map_map, Function.comp_def, hmap]

theorem modPair_congr {q : Nat} {f g : QPair → QPair} (h : ∀ p ∈ s.q.pairs, p.id = q → f p = g p) : s.modPair q f = s.modPair q g := by
  have hmap : (s.q.pairs.map fun p => if p.id == q then f p else p) = s.q.pairs.map fun p => if p.id == q then g p else p := by
    refine List.map_congr_left fun p hp => ?_
    by_cases hq : p.id = q
    · simp [hq, h p hp hq]
    · simp [hq]
  rw [State.modPair, State.modPair, hmap]

end

/-- Settles O11: doorbells by the state of their pair, and queue pair 0 by its fields. -/
theorem hostQueueRows : Obligations.HostQueueRows := by
  refine ⟨fun s q v hw hq => ⟨fun p hp he hen => ⟨?_, ?_⟩, fun p hp he => doorbells_in_error hw hq v hp he, fun hp => ?_⟩,
    fun s ctrl p hw hp honly => ⟨fun hen hvalid => ?_, fun hen hbad hjob => ?_, fun hen => ?_, fun hen => ?_⟩⟩
  · rw [exec_sqTailDoorbell, execSqTailDoorbell_enabled hw hq v hp he hen]
    exact apply_ite _ _ _ _
  · rw [exec_cqHeadDoorbell, execCqHeadDoorbell_enabled hw hq v hp he hen]
    exact apply_ite _ _ _ _
  · exact doorbells_stray hw hq v hp
  · have hgo : (!s.working || p.enable) = false := by rw [hw, hen]; rfl
    have hid : p.id = 0 := pair?_id hp
    rw [exec_qp0Enable, execQp0Enable, hp]
    simp only [hgo, Bool.false_eq_true, if_false, hvalid, if_true]
    exact congrArg _ (modPair_modPair 0 _ _ fun _ _ => hid)
  · have hgo : (!s.working || p.enable) = false := by rw [hw, hen]; rfl
    have hid : p.id = 0 := pair?_id hp
    have hsrc : (decide ((p.withCtrl ctrl).job < 16) && s.jobTakesPair (p.withCtrl ctrl).job) = false := by
      by_cases h : (p.withCtrl ctrl).job < 16
      · rw [hjob h, Bool.and_false]
      · rw [decide_eq_false h, Bool.false_and]
    rw [exec_qp0Enable, execQp0Enable, hp]
    simp only [hgo, Bool.false_eq_true, if_false, hbad, hsrc]
    exact congrArg (fun t : State => Host.Outcome.next (t.event 76 0x0002 [0, 0, 4])) (modPair_modPair 0 _ _ fun _ _ => hid)
  · rw [exec_qp0Disable, execQp0Disable, hw, Bool.not_true, if_neg Bool.false_ne_true]
    refine congrArg (fun t : State => Host.Outcome.next t.settled) (modPair_congr fun x hx h0 => ?_)
    rw [honly x hx h0, hen, if_pos rfl]
  · rw [exec_qp0Disable, execQp0Disable, hw, Bool.not_true, if_neg Bool.false_ne_true]
    refine congrArg (fun t : State => Host.Outcome.next t.settled) (modPair_congr fun x hx h0 => ?_)
    rw [honly x hx h0, hen, if_neg Bool.false_ne_true]

/-! ### MSI-X, HDM decoders and host lines -/

theorem exec_msixVectorUnmask (a : MsixAccess) (s : State) : exec (.msixVectorUnmask a) s = execMsixVectorUnmask a s := rfl
theorem exec_hdmDecoderCommit (d : BitVec 1) (base size : U64) (ways : Byte) (s : State) :
    exec (.hdmDecoderCommit d base size ways) s = execHdmDecoderCommit d base size ways s := rfl
theorem exec_hostMemRead (d : BitVec 1) (off : U64) (s : State) : exec (.hostMemRead d off) s = execHostMemRead d off s := rfl
theorem exec_hostMemWrite (d : BitVec 1) (off : U64) (data : List Byte) (s : State) :
    exec (.hostMemWrite d off data) s = execHostMemWrite d off data s := rfl

theorem toNat_beq_one (w : Byte) : (w.toNat == 1) = (w == 1) := by
  revert w
  decide

theorem commit_program {c : Cxl} (hlen : c.hdmLen.length = 2) (d : BitVec 1) (base size : U64) (ways : Nat) :
    (c.program d.toNat base size).commit d.toNat ways = { c with
      hdmBase := c.hdmBase.set d.toNat (hdmBits base), hdmLen := c.hdmLen.set d.toNat (hdmBits size)
      hdmCommitted := c.hdmCommitted.set d.toNat ((hdmBits size).toNat == hdmSize d.toNat && ways == 1)
      hdmError := c.hdmError.set d.toNat !((hdmBits size).toNat == hdmSize d.toNat && ways == 1) } := by
  have hget : (c.hdmLen.set d.toNat (hdmBits size)).getD d.toNat 0 = hdmBits size := by
    have hlt : d.toNat < c.hdmLen.length := by rw [hlen]; exact d.isLt
    simp [List.getD_eq_getElem?_getD, hlt]
  simp only [Cxl.program, Cxl.commit, hget]

section
variable {s : State} (hal : s.alive = true) (htr : s.boot.trivet = false) {d : BitVec 1} {off : U64} (hst : 8 ≤ s.boot.stage)
  (hc : s.cxl.hdmCommitted.getD d.toNat false = true) (hoff : off.toNat < hdmSize d.toNat)
include hal htr hst hc hoff

theorem execHostMemRead_line (hline : off.toNat % 64 = 0) (hr : s.rangeOk (mkKey d.toNat off.toNat) 64 = true) :
    execHostMemRead d off s = .next ((s.touch (mkKey d.toNat off.toNat) 64).send
      (.line ((s.touch (mkKey d.toNat off.toNat) 64).readBytes (mkKey d.toNat off.toNat) 64)
        ((s.touch (mkKey d.toNat off.toNat) 64).poisonedIn (mkKey d.toNat off.toNat) 64))) := by
  have hgo : (!(s.alive && s.cxl.hdmCommitted.getD d.toNat false && decide (off.toNat < hdmSize d.toNat))) = false := by
    rw [hal, hc, decide_eq_true hoff]
    rfl
  have hmem : (!s.memActive || !s.rangeOk (mkKey d.toNat off.toNat) 64) = false := by
    rw [State.memActive, State.working, hal, htr, decide_eq_true hst, hr]
    rfl
  simp only [execHostMemRead, hline, Nat.sub_zero, hgo, hmem, Bool.false_eq_true, if_false]

theorem execHostMemWrite_line {data : List Byte} (hlen : data.length = 64) (hline : off.toNat % 64 = 0) :
    execHostMemWrite d off data s = .next (if s.rangeOk (mkKey d.toNat off.toNat) 64 then s.writeBytes (mkKey d.toNat off.toNat) data
      else s.modEvc fun e => { e with lost := e.lost + 1 }) := by
  have hgo : (!(s.alive && s.cxl.hdmCommitted.getD d.toNat false && decide (off.toNat % 64 + 64 ≤ 64) &&
      decide (off.toNat < hdmSize d.toNat))) = false := by
    rw [hal, hc, decide_eq_true hoff, decide_eq_true (by omega)]
    rfl
  have hmem : (!s.memActive) = false := by
    rw [State.memActive, State.working, hal, htr, decide_eq_true hst]
    rfl
  simp only [execHostMemWrite, hlen, hgo, hmem, Bool.false_eq_true, if_false]
  cases s.rangeOk (mkKey d.toNat off.toNat) 64 <;> rfl

end

/-- Settles O14: by the MSI-X access, the decoder's size and the place of the line. -/
theorem hostMemory : Obligations.HostMemory := by
  intro s hal htr
  have hw : s.working = true := by rw [State.working, hal, htr]; rfl
  refine ⟨fun v x => ?_, fun en fm => ?_, fun d base size ways ok hlen hok => ?_, fun hst d off hc hoff hline => ⟨fun u hr hu => ?_,
    fun data hlen hr => ?_, fun data hlen hr => ?_⟩⟩
  · rw [exec_msixVectorUnmask, execMsixVectorUnmask]
    exact when_of_true hw _
  · rw [exec_msixVectorUnmask, execMsixVectorUnmask]
    rw [when_of_true hal]
    by_cases h : s.boot.stage < 3
    · rw [if_pos (show s.configBusy = true from decide_eq_true h), if_pos h]
      rfl
    · rw [if_neg (by simpa [State.configBusy] using h), if_neg h]
      rfl
  · subst hok
    rw [exec_hdmDecoderCommit, execHdmDecoderCommit]
    dsimp only
    rw [when_of_true hw, State.modCxl, commit_program hlen, toNat_beq_one]
  · subst hu
    exact execHostMemRead_line hal htr hst hc hoff hline hr
  · rw [exec_hostMemWrite, execHostMemWrite_line hal htr hst hc hoff hlen hline, hr, if_pos rfl]
  · rw [exec_hostMemWrite, execHostMemWrite_line hal htr hst hc hoff hlen hline, hr, if_neg Bool.false_ne_true]
    rfl

end Sys2Proof.Machine
end

section
/-! PROOFS. Memory commands and the end of a transfer (O15, O16). -/

set_option Elab.async false

namespace Sys2Proof.Machine

/-! ### Memory commands -/

theorem exec_memAlloc (e : Env) (size : U64) (space job al : Byte) (s : State) :
    exec (.memAlloc e size space job al) s = execMemAlloc e size space job al s := rfl
theorem exec_memFree (e : Env) (ga : U64) (s : State) : exec (.memFree e ga) s = execMemFree e ga s := rfl
theorem exec_memCopy (e : Env) (src dst len : U64) (s : State) : exec (.memCopy e src dst len) s = execMemCopy e src dst len s := rfl
theorem exec_memFill (e : Env) (dst len pat : U64) (s : State) : exec (.memFill e dst len pat) s = execMemFill e dst len pat s := rfl
theorem exec_memConvert (e : Env) (src dst len desc : U64) (s : State) :
    exec (.memConvert e src dst len desc) s = execMemConvert e src dst len desc s := rfl
theorem exec_commandTransferEnd (id : Nat) (s : State) : exec (.commandTransferEnd id) s = execCommandTransferEnd id s := rfl

/-- Settles O15: each command from the state in which it starts. -/
theorem memoryCommandsStart : Obligations.MemoryCommandsStart := by
  refine ⟨fun s e r => ⟨fun size space job al j k h hj hfit => ?_, fun ga a h ha huse => ?_⟩,
    fun s e r => ⟨fun src dst len a b h hn ha hb hsa hsb => ?_, fun dst len pat b h hn hb hsb => ?_,
      fun src dst len desc a b u h hn ha hb hu hsa hsb hunit => ?_⟩⟩
  · rw [exec_memAlloc, execMemAlloc, command_ready h _ _ _ rfl, startMemAlloc]
    simp only [hj, hfit, State.gaOf, State.ownChip, started_link]
  · rw [exec_memFree, execMemFree, command_ready h _ _ _ rfl, startMemFree]
    simp only [ha, huse, Bool.false_eq_true, if_false]
  · have hz : (len == 0) = false := by simpa using hn
    rw [exec_memCopy, execMemCopy, command_ready h _ _ _ hz, startMemCopy]
    simp only [ha, hb, hsa, hsb, Bool.or_self, Bool.false_eq_true, if_false]
  · have hz : (len == 0) = false := by simpa using hn
    rw [exec_memFill, execMemFill, command_ready h _ _ _ hz, startMemFill]
    simp only [hb, hsb, Bool.false_eq_true, if_false]
  · have hz : (len == 0) = false := by simpa using hn
    have hhdr : (s.started r).touchHeader (Desc.of desc.toNat) a = u := by rw [hu]; rfl
    rw [exec_memConvert, execMemConvert, command_ready h _ _ _ hz, startMemConvert]
    simp only [ha, hb, hhdr, hsa, hsb, hunit, Bool.or_self, Bool.false_eq_true, if_false]

section
variable {s u : State} {id : Nat} {r : CmdRec} {x : Xfer}

theorem rec?_id (h : s.rec? id = some r) : r.id = id := by
  have hr := List.find?_some h
  exact eq_of_beq hr

theorem xferOf_running (hr : s.rec? id = some r) (hp : r.phase = .running) (hx : r.xfer = some x) : s.xferOf id = some (r, x) := by
  rw [State.xferOf, hr, Option.bind_some, hp, hx]
  rfl

/-- A transfer whose command still runs after its words have been checked ends there. -/
theorem execCommandTransferEnd_running (hrun : s.running = true) (hx : s.xferOf id = some (r, x)) (hu : u = s.touchAll (s.xferReads x))
    (hux : u.xferOf id = some (r, x)) : execCommandTransferEnd id s = .next (u.endXfer r x) := by
  subst hu
  rw [execCommandTransferEnd, hx]
  dsimp only
  rw [when_of_true hrun, hux]

end

/-- Settles O16: the end of a copy, a fill and a conversion. -/
theorem transfersEnd : Obligations.TransfersEnd := by
  intro s u id r hrun hr hp
  have hid := rec?_id hr
  refine ⟨fun src dst len hx hu hux => ?_, fun dst len pat hx => ?_, fun src dst len desc hx hu hux => ⟨fun o hunit ho hfits => ?_,
    fun hunit n hn => ?_⟩⟩
  · rw [exec_commandTransferEnd, execCommandTransferEnd_running hrun (xferOf_running hr hp hx) hu hux, ← hid]
    rfl
  · have hxo := xferOf_running hr hp hx
    rw [exec_commandTransferEnd, execCommandTransferEnd_running hrun hxo rfl hxo, ← hid]
    rfl
  · rw [exec_commandTransferEnd, execCommandTransferEnd_running hrun (xferOf_running hr hp hx) hu hux, ← hid, State.endXfer, State.endConvert,
      hunit, if_neg Bool.false_ne_true]
    simp only [ho, hfits, Bool.not_true, Bool.false_eq_true, if_false]
    rfl
  · subst hn
    rw [exec_commandTransferEnd, execCommandTransferEnd_running hrun (xferOf_running hr hp hx) hu hux, ← hid, State.endXfer, State.endConvert,
      hunit, if_pos rfl]

end Sys2Proof.Machine
end

section
/-! PROOFS. Jobs, contexts, residency and configurations (O31, O32, O33). -/

set_option Elab.async false

namespace Sys2Proof.Machine

/-! ### Jobs and contexts -/

theorem exec_jobOpen (e : Env) (desc : U64) (nrect dlen : U16) (s : State) :
    exec (.jobOpen e desc nrect dlen) s = execJobOpen e desc nrect dlen s := rfl
theorem exec_jobClose (e : Env) (job : Byte) (force : Bool) (s : State) : exec (.jobClose e job force) s = execJobClose e job force s := rfl
theorem exec_ctxCreate (e : Env) (job : Byte) (table : U64) (nregion : U16) (hr pin : Bool) (s : State) :
    exec (.ctxCreate e job table nregion hr pin) s = execCtxCreate e job table nregion hr pin s := rfl
theorem exec_ctxPin (e : Env) (op : Byte) (s : State) : exec (.ctxPin e op) s = execCtxPin e op s := rfl
theorem exec_ctxDestroy (e : Env) (force : Bool) (s : State) : exec (.ctxDestroy e force) s = execCtxDestroy e force s := rfl

/-- The first free number is below the limit and not among those used. -/
theorem firstFree_some {used : List Nat} {fuel start n : Nat} (h : firstFree used fuel start = some n) : n < start + fuel ∧ n ∉ used := by
  induction fuel generalizing start with
  | zero => cases h
  | succ fuel ih =>
    rw [firstFree] at h
    split at h
    next =>
      obtain ⟨hlt, hn⟩ := ih h
      exact ⟨by omega, hn⟩
    next hfree =>
      cases h
      exact ⟨by omega, by simpa using hfree⟩

/-- The state without a context, its movements, queues, reservations and transfers. -/
def State.withoutCtx (s : State) (c : Ctx) : State :=
  ({ s with
    ctxs := s.ctxs.filter fun x => x.id != c.id
    moves := s.moves.filter fun m => m.ctx != c.id
    fab := s.fab.dropCtx c.id c.uid
    mem := { s.mem with reserves := s.mem.reserves.filter fun r => r.ctx != c.id } } : State).modLink fun l =>
      { l with transfers := l.transfers.filter fun t => match t.kind with
        | .shard x _ => x != c.id
        | .mirror x => x != c.id
        | _ => true }

section
variable {s : State} {c : Ctx}

theorem ctx?_id {id : Nat} (h : s.ctx? id = some c) : c.id = id := by
  have hc := List.find?_some h
  exact eq_of_beq hc

/-- A context without commands of its own does not move by command. -/
theorem moveCommanded_of_no_commands (h : s.ctxCommands c = []) : s.moveCommanded c.id = false := by
  simp only [State.ctxCommands, List.append_eq_nil_iff, List.map_eq_nil_iff, List.filter_eq_nil_iff] at h
  obtain ⟨-, hnone⟩ := h
  rw [State.moveCommanded, List.any_eq_false]
  intro r hr hmove
  refine hnone r hr ?_
  rw [Bool.and_eq_true] at hmove ⊢
  refine ⟨hmove.1, ?_⟩
  have hx := hmove.2
  cases hxfer : r.xfer with
  | none => rw [hxfer] at hx; exact hx
  | some x =>
    rw [hxfer] at hx
    cases x with
    | evict | restore => exact hx
    | copy | fill | convert | verify => exact absurd hx Bool.false_ne_true

/-- CTX_DESTROY of an idle context: its reservations and wavefronts go with it, and the commands of those are cancelled (log 121). -/
theorem destroyCtx_idle (hc : s.ctx? c.id = some c) (hw : c.wgt = []) (hcmd : s.ctxCommands c = []) (hm : ∀ m ∈ s.moves, m.ctx ≠ c.id) :
    s.destroyCtx c.id =
      (s.withoutCtx c).finishAll ((s.fab.waves.filter fun w => w.ctx == c.id).map fun w => (w.cmd, .cancelled, [])) := by
  have hdropped : (s.moves.filter fun m => m.ctx == c.id) = [] := by
    rw [List.filter_eq_nil_iff]
    exact fun m hmem => by simpa using hm m hmem
  have hshards : s.cancelShards c = s := by rw [State.cancelShards, hw]; rfl
  rw [State.destroyCtx, hc]
  simp only [hshards, hcmd, hdropped, List.nil_append, List.foldl_nil, moveCommanded_of_no_commands hcmd, Bool.false_eq_true, if_false,
    List.map_map]
  rfl

end

/-- Settles O31: each command from the state in which it starts. -/
theorem jobsAndContexts : Obligations.JobsAndContexts := by
  refine ⟨fun s e r => ⟨fun desc nrect dlen k u bs d n gs h hk hu hbs hfail hd hfree hgs hctx hqp => ?_, fun job force h hj hnone => ?_⟩,
    fun s e r => ⟨fun job table nregion hr pin j k u raw h hj hk hu hraw hfail hroom hfree => ?_, fun op c h hc => ?_,
      fun c h hc hbusy hcmd hm => ?_⟩⟩
  · obtain ⟨hlt, hnot⟩ := firstFree_some hfree
    refine ⟨by omega, fun j hj hjn => hnot (List.mem_map.mpr ⟨j, hj, hjn⟩), ?_⟩
    have hroom : (decide (1023 < (u.jobs.map (·.nctx)).foldl (· + ·) 0 + d.nctx) ||
        decide (2047 < (u.jobs.map (·.nqp)).foldl (· + ·) 0 + d.nqp)) = false := by
      rw [decide_eq_false (by omega), decide_eq_false (by omega)]
      rfl
    subst hk hu hbs hd
    rw [exec_jobOpen, execJobOpen, command_ready h _ _ _ rfl]
    delta startJobOpen
    simp only [hfail, hfree, hgs, hroom, Bool.false_eq_true, if_false]
    rfl
  · have hmine : ((s.started r).ctxs.filter fun c => c.job == job.toNat) = [] := by
      rw [started_ctxs, List.filter_eq_nil_iff]
      exact fun c hc => by simpa using hnone c hc
    have hjob : ((s.started r).job? job.toNat).isNone = false := by
      rw [State.job?, started_jobs, ← State.job?, ← Option.not_isSome, hj]
      rfl
    rw [exec_jobClose, execJobClose, command_ready h _ _ _ rfl, startJobClose]
    simp only [hmine, hjob, Bool.false_eq_true, if_false, List.map_nil, List.isEmpty_nil, Bool.not_true, Bool.and_false, List.foldl_nil,
      started_allocs, started_reserves, started_jobs, started_q]
    rfl
  · obtain ⟨n, hn, hnone⟩ := hfree
    have hcands : ((List.range 1023).filter fun i => (u.ctx? i).isNone) ≠ [] := by
      refine List.ne_nil_of_mem (a := n) (List.mem_filter.mpr ⟨List.mem_range.mpr hn, ?_⟩)
      rw [hnone]
      rfl
    obtain ⟨m, hm, hchoose⟩ := choose_mem (s := u) hcands
    obtain ⟨hrange, hfreem⟩ := List.mem_filter.mp hm
    refine ⟨m, _, List.mem_range.mp hrange, Option.isNone_iff_eq_none.mp hfreem, rfl, ?_⟩
    subst hk hu hraw
    rw [exec_ctxCreate, execCtxCreate, command_ready h _ _ _ rfl, startCtxCreate, hj]
    simp only [hfail, Nat.not_le.mpr hroom, if_false, hchoose]
    rfl
  · rw [exec_ctxPin, execCtxPin, command_ready h _ _ _ rfl, startCtxPin, ctx?_congr (started_ctxs s r), hc]
  · have hid := ctx?_id hc
    have hc' : (s.started r).ctx? c.id = some c := by rw [ctx?_congr (started_ctxs s r), hid, hc]
    have hbusy' : (s.started r).ctxBusy c = false := by
      rw [State.ctxBusy, started_fab]
      exact hbusy
    have hwgt : c.wgt = [] := by
      simp only [State.ctxBusy, Bool.or_eq_false_iff, Bool.not_eq_false', List.isEmpty_iff] at hbusy
      exact hbusy.1.2
    have hdestroy := destroyCtx_idle hc' hwgt hcmd (by rw [started_moves]; exact hm)
    rw [started_fab] at hdestroy
    refine ⟨(s.started r).destroyCtx c.id, (s.started r).withoutCtx c, ?_, ?_, ?_, ?_, ?_, rfl, by rw [hdestroy]⟩
    · rw [exec_ctxDestroy, execCtxDestroy, command_ready h _ _ _ rfl, startCtxDestroy, ← hid, hc']
      simp only [hbusy', Bool.not_false, Bool.and_false, Bool.false_eq_true, if_false]
    · rw [hdestroy, finishAll_ctxs, ← started_ctxs s r]
      rfl
    · rw [hdestroy, finishAll_reserves, ← started_reserves s r]
      rfl
    · rw [hdestroy, finishAll_jobs, ← started_jobs s r]
      rfl
    · rw [hdestroy, finishAll_fab, ← started_fab s r]
      rfl

/-! ### Eviction and restore -/

theorem exec_ctxEvict (e : Env) (space : Byte) (s : State) : exec (.ctxEvict e space) s = execCtxEvict e space s := rfl
theorem exec_ctxRestore (e : Env) (s : State) : exec (.ctxRestore e) s = execCtxRestore e s := rfl
theorem exec_evictionOrRestoreEnd (job : Nat) (s : State) : exec (.evictionOrRestoreEnd job) s = execEvictionOrRestoreEnd job s := rfl

@[simp] theorem copyRange_ctxs (s : State) (src dst len : Nat) : (s.copyRange src dst len).ctxs = s.ctxs := rfl

@[simp] theorem writeMarked_ctxs (s : State) (k : Nat) (bs : List Byte) (offs : List Nat) : (s.writeMarked k bs offs).ctxs = s.ctxs := rfl

theorem saveOut_ctxs (s : State) (c : Ctx) (p : Saved) : (s.saveOut c p).ctxs = s.ctxs := by
  unfold State.saveOut
  split <;> rfl

theorem saveIn_ctxs (s : State) (p : Saved) : (s.saveIn p).ctxs = s.ctxs := by
  unfold State.saveIn
  split
  · split <;> rfl
  · rfl

section
variable {s : State} {c : Ctx}

/-- After an eviction the context rests with its saved pieces. -/
theorem evict_ctxs {space : Nat} {g : Region} (hg : c.evictRegion space = some g) : (s.evict c space).1.ctxs =
    s.ctxs.map (fun d => if d.id == c.id then { d with
      resident := false, saved := (s.evictPieces c space g.target).1 ++ (s.evictPieces c space g.target).2
      staged := [], stageDigest := none, serving := d.serving.map fun v => { v with blockedSince := none } } else d) := by
  rw [State.evict, hg]
  dsimp only
  rw [State.modCtx, foldl_keeps State.ctxs (fun s p => saveOut_ctxs s c p)]

/-- After a restore the context is resident and has nothing saved. -/
theorem restore_ctxs : (s.restore c).1.ctxs = s.ctxs.map (fun d => if d.id == c.id then { d with
    resident := true, saved := [], serving := d.serving.map fun v => { v with runnableSince := none } } else d) := by
  rw [State.restore]
  dsimp only
  rw [State.modCtx, foldl_keeps State.ctxs (fun s p => saveIn_ctxs s p)]

/-- A restore whose pieces can be unpacked, without a mirror to take over from. -/
theorem endRestore_plain {u : State} (id : Nat) (hc : s.ctx? c.id = some c) (hu : u = s.touchAll c.mirrorReads) (hres : c.resident = false)
    (hv : u.takeover? c = none) (hp : u.packFails false c.toRestore = false) : s.endRestore id c.id =
      ((u.restore c).1.finish id .ok (leBytes 8 (movedBytes c.toRestore))).rebalance c.job := by
  subst hu
  have hok : (s.touchAll c.mirrorReads).restoreFails c none = none := by
    rw [State.restoreFails, hres, hp]
    rfl
  rw [State.endRestore, hc]
  simp only [hv, Option.map_none, hok, hres, Bool.false_and, Bool.false_eq_true, if_false, State.takeBack]
  rfl

/-- The movement that the firmware made for a job ends. -/
theorem execEvictionOrRestoreEnd_only {m : Move} {c0 : Ctx} {u : State} (hrun : s.running = true) (hm : s.moves = [m]) (hmc : m.ctx = c.id)
    (hc0 : s.ctx? c.id = some c0) (hu : u = ({ s with moves := [] } : State).touchAll (({ s with moves := [] } : State).moveReads m c0))
    (hc : u.ctx? c.id = some c) : execEvictionOrRestoreEnd m.job s =
      .next (if (if m.evict then u.evictFails c 1 else u.packFails false c.toRestore) then (u.moveFails m c).rebalance m.job
        else (((if m.evict then u.evict c 1 else u.restore c).1.event (srcJob m.job) (if m.evict then 0x0010 else 0x0011)
          (leBytes 2 c.id ++ zeros 6 ++ leBytes 8 (if m.evict then u.evict c 1 else u.restore c).2)).trace 9 c.id
            (leBytes 1 (if m.evict then 0 else 1) ++ zeros 7 ++
              leBytes 8 (if m.evict then u.evict c 1 else u.restore c).2)).moveOn m) := by
  subst hu
  have hfind : s.moves.find? (fun x => x.job == m.job) = some m := by simp [hm]
  have hnone : s.moves.filter (fun x => x.job != m.job) = [] := by simp [hm]
  have hc0' : ({ s with moves := [] } : State).ctx? c.id = some c0 := hc0
  rw [execEvictionOrRestoreEnd, hfind]
  simp only [hnone, hmc, hc0', hc, Option.getD_some]
  rw [when_of_true hrun, when_of_true hrun]
  exact (apply_ite Host.Outcome.next _ _ _).symm

end

/-- Settles O32: the start of a movement, and its end by command and by the firmware. -/
theorem residencyMoves : Obligations.ResidencyMoves := by
  intro s e r c
  refine ⟨fun space h hc href hfail => ?_, fun u h hc hu hmov hres hriv hfail => ?_,
    fun space g u hrun hr hp hx hu hux hc hg hfail => ⟨evict_ctxs hg, ?_⟩,
    fun u0 u hrun hr hp hx hu0 hux hc hu hres hv hpack => ⟨restore_ctxs, ?_⟩,
    fun m c0 u0 u n hrun hm hjob hmc hev hc0 hu0 hc hfail hun => ?_, fun m c0 u hrun hm hjob hmc hev hc0 hu hc => ⟨fun hpack => ?_, fun hpack => ?_⟩⟩
  · rw [exec_ctxEvict, execCtxEvict, command_ready h _ _ _ rfl, startCtxEvict, hc]
    simp only [href, hfail, Bool.false_eq_true, if_false]
  · have hstay : (u.moving c.id || (c.resident && (u.takeover? c).isNone)) = false := by
      rw [hmov]
      cases hcr : c.resident with
      | false => rfl
      | true => rw [← Option.not_isSome, hres hcr]; rfl
    have hroom : (!c.resident && !(u.rivals c).isEmpty) = false := by
      cases hcr : c.resident with
      | false => rw [hriv hcr]; rfl
      | true => rfl
    subst hu
    rw [exec_ctxRestore, execCtxRestore, command_ready h _ _ _ rfl, startCtxRestore, hc]
    simp only [hstay, hroom, hfail, Bool.false_eq_true, if_false]
  · rw [exec_commandTransferEnd, execCommandTransferEnd_running hrun (xferOf_running hr hp hx) hu hux, State.endXfer, State.endEvict, hc]
    simp only [hfail, Bool.false_eq_true, if_false]
  · rw [exec_commandTransferEnd, execCommandTransferEnd_running hrun (xferOf_running hr hp hx) hu0 hux, State.endXfer,
      endRestore_plain r.id hc hu hres hv hpack]
  · rw [exec_evictionOrRestoreEnd, execEvictionOrRestoreEnd_only hrun hm hmc hc0 hu0 hc]
    simp only [hev, if_true, hfail, Bool.false_eq_true, if_false, ← hun]
    rfl
  · rw [exec_evictionOrRestoreEnd, execEvictionOrRestoreEnd_only hrun hm hmc hc0 hu hc]
    simp only [hev, Bool.false_eq_true, if_false, hpack, State.moveOn]
    rfl
  · rw [exec_evictionOrRestoreEnd, execEvictionOrRestoreEnd_only hrun hm hmc hc0 hu hc]
    simp only [hev, Bool.false_eq_true, if_false, hpack, if_true, State.moveFails]

/-! ### Configurations -/

/-- An image of one station on core 0, without programs and streams. -/
def oneStationImage : Image where
  flat := false
  width := 1
  dripKib := 32
  stations := [⟨⟨0, 1, 0, 1⟩, 0, [], [], 0, 0⟩]
  streams := []
  programs := []
  pool := []
  rails := []
  args := []

/-- A configuration of that image, active on no core. -/
def standbyCfg : Cfg := ⟨1, 1, oneStationImage, [], [], [], [], [], false⟩

/-- A resident context that holds only that configuration. -/
def standbyCtx : Ctx := { Ctx.make 5 1 0 [] false false true with cfgs := [standbyCfg] }

/-- The envelope of its CFG_ACTIVATE. -/
def activateEnv : Env := { plainEnv with ctx := 5 }

/-- The CFG_ACTIVATE stands fetched, and its record already names an eviction of the context it is for. -/
def activateRec : CmdRec := ⟨1, .cfgActivate activateEnv 1, activateEnv, none, none, false, false, false, .fetched, some (.evict 5 0)⟩

def activateEvicting : State := { bootedState with
  ctxs := [standbyCtx], q := { bootedState.q with recs := [activateRec], nextRec := 2 } }

/-- The state a step leads to has an open wavefront. -/
def hasWave (r : Res) : Bool :=
  match r with
  | .next t => !t.fab.waves.isEmpty
  | _ => false

theorem hasWave_of_added (s : State) (w : Wave) :
    hasWave (.next (s.modFab fun f => { f with waves := f.waves ++ [w] })) = true := by simp [hasWave, State.modFab]

/-- Refutes O33 in CFG_ACTIVATE: the statement asks what refuses the command before it starts, in any state, also one in which its
record names an eviction of the context. Once that record runs the context is moving, and the command ends WRONG_STATE. -/
theorem not_configurationsComplete : ¬ Obligations.ConfigurationsComplete := by
  intro h
  obtain ⟨-, -, hactivate⟩ := h activateEvicting activateEnv activateRec standbyCtx (by decide +kernel)
  have heq := hactivate 1 standbyCfg ⟨by decide +kernel, rfl, by decide +kernel, by decide +kernel, rfl, rfl⟩ (by decide +kernel)
    (by decide +kernel) (by decide +kernel)
  have hnone : hasWave (exec (.cfgActivate activateEnv 1) activateEvicting) = false := by decide +kernel
  have hopen := congrArg hasWave heq
  rw [hnone, hasWave_of_added] at hopen
  exact absurd hopen (by decide)

end Sys2Proof.Machine
end

section
/-! PROOFS. Invocations, prefetch lists and weight commands (O35, O36, O37). -/

set_option Elab.async false

namespace Sys2Proof.Machine

/-! ### Invocations -/

/-- The configuration of `oneStationImage`, active on its core. -/
def activeCfg : Cfg := ⟨1, 1, oneStationImage, [0], [], [], [], [], false⟩

/-- A resident, loaded context that holds only that configuration. -/
def loadedCtx : Ctx := { Ctx.make 5 1 0 [] false false true with cfgs := [activeCfg], weight := .loaded }

/-- An INVOKE that stands fetched and marked late, though its envelope names no launch tick. -/
def lateInvoke : CmdRec := ⟨1, .invoke activateEnv 1 0 0 0, activateEnv, none, none, false, true, false, .fetched, none⟩

def invokeLate : State := { bootedState with
  ctxs := [loadedCtx], q := { bootedState.q with recs := [lateInvoke], nextRec := 2 } }

/-- The state a step leads to has an invocation marked late. -/
def hasLateInv (r : Res) : Bool :=
  match r with
  | .next t => t.fab.invs.any (·.late)
  | _ => false

/-- Refutes O35 in INVOKE: the statement speaks of every fetched record, also of one that is marked late without a launch tick in its
envelope, and such a command's invocation is late. -/
theorem not_invocationRows : ¬ Obligations.InvocationRows := by
  intro h
  obtain ⟨hinvoke, -⟩ := h.1 invokeLate activateEnv lateInvoke
  have heq := hinvoke 1 0 0 0 loadedCtx activeCfg ⟨by decide +kernel, rfl, by decide +kernel, by decide +kernel, rfl, rfl⟩ rfl
    (by decide +kernel) (by decide +kernel) (by decide +kernel)
  have hlate : hasLateInv (exec (.invoke activateEnv 1 0 0 0) invokeLate) = true := by decide +kernel
  rw [heq] at hlate
  exact absurd hlate (by decide +kernel)

/-! ### Prefetch lists -/

theorem exec_prefetchListSet (e : Env) (list : U64) (n : U32) (clear : Bool) (s : State) :
    exec (.prefetchListSet e list n clear) s = execPrefetchListSet e list n clear s := rfl
theorem exec_prefetchEntryStart (inv : Nat) (s : State) : exec (.prefetchEntryStart inv) s = execPrefetchEntryStart inv s := rfl
theorem exec_prefetchEntryComplete (inv entry : Nat) (s : State) :
    exec (.prefetchEntryComplete inv entry) s = execPrefetchEntryComplete inv entry s := rfl

section
variable {s : State} {i : Inv} {k a b : Nat} {p : Prefetch} {c : Ctx}

/-- An entry under way whose source the check leaves the invocation running: it is written, or its Mandoline unit has failed and it ends. -/
theorem execPrefetchEntryComplete_read {u : State} (hrun : s.running = true) (hi : s.inv? i.id = some i) (hp : i.phase = .running)
    (hk : i.plist[k]? = some p) (hc : s.ctx? i.ctx = some c) (hs : i.started.contains (k, false) = true)
    (hkeys : c.prefetchKeys p = some (a, b)) (hu : u = s.touch a p.len) (hui : (u.inv? i.id).isSome = true) :
    execPrefetchEntryComplete i.id k s =
      .next (if u.unitFailed 3 (mandolineOf a b) then u.unitFault i else u.prefetchDone c i k p) := by
  subst hu
  have hgo : (!(s.running && i.phase == .running && i.started.contains (k, false))) = false := by rw [hrun, hp, hs]; rfl
  have hstays : ((s.touch a p.len).inv? i.id).isNone = false := by rw [← Option.not_isSome, hui]; rfl
  simp only [execPrefetchEntryComplete, hi, hk, hc, hgo, hkeys, hstays, Bool.false_eq_true, if_false]
  rw [← apply_ite Host.Outcome.next]

end

/-- Settles O36: the command, then the start and the end of an entry. -/
theorem prefetchRows : Obligations.PrefetchRows := by
  intro s
  refine ⟨fun e r list n clear c k u raw new h hn hk hu hc hraw hfail hnew hroom => ?_,
    fun i k p im c a b hrun hi hp hnext him hc hready hkeys hunit => ?_,
    fun i k p c a b u hrun hi hp hk hc hs hkeys hu hui => ⟨fun hunit => ?_, fun id hunit hown => ?_⟩⟩
  · have hz : (n == 0) = false := by simpa using hn
    subst hk hu hraw hnew
    rw [exec_prefetchListSet, execPrefetchListSet, command_ready h _ _ _ hz, startPrefetchListSet]
    simp only [hc, hfail, prefetchMax, Nat.not_lt.mpr hroom, if_false]
  · have hgo : (!(s.running && i.phase == .running && s.prefetchReady i im p)) = false := by rw [hrun, hp, hready]; rfl
    simp only [exec_prefetchEntryStart, execPrefetchEntryStart, hi, hnext, him, hc, hgo, hkeys, hunit, Bool.false_eq_true, if_false]
    rfl
  · rw [exec_prefetchEntryComplete, execPrefetchEntryComplete_read hrun hi hp hk hc hs hkeys hu hui, hunit]
    rfl
  · rw [exec_prefetchEntryComplete, execPrefetchEntryComplete_read hrun hi hp hk hc hs hkeys hu hui, if_pos hunit, State.unitFault, hown]

/-! ### Weight commands -/

/-- A running WGT_VERIFY of context 5 that names no shard. -/
def verifyRec : CmdRec := ⟨1, .wgtVerify activateEnv 0, activateEnv, none, none, false, false, false, .running, some (.verify 5 [])⟩

/-- Two contexts of the number 5, one loaded and one empty, while the verification of that number runs. -/
def verifySharedNumber : State := { bootedState with
  ctxs := [loadedCtx, { loadedCtx with uid := 2, weight := .empty }], q := { bootedState.q with recs := [verifyRec], nextRec := 2 } }

/-- The state a step leads to has a context that is empty. -/
def hasEmptyCtx (r : Res) : Bool :=
  match r with
  | .next t => t.ctxs.any (·.weight == .empty)
  | _ => false

/-- Refutes O37 in the end of WGT_VERIFY: the statement speaks of every state, also of one in which two contexts share a number.
It gives every context of the number the weight state of the first one, where the model leaves each its own. -/
theorem not_weightCommands : ¬ Obligations.WeightCommands := by
  intro h
  obtain ⟨-, -, -, -, -, hverify⟩ := h verifySharedNumber activateEnv verifyRec loadedCtx ⟨0, 0, 0, 0, 0, [], [], 0⟩
  obtain ⟨hok, -⟩ := hverify [] [] verifySharedNumber (by decide +kernel) (by decide +kernel) rfl rfl rfl (by decide +kernel)
    (by decide +kernel) rfl
  have heq := hok rfl
  have hempty : hasEmptyCtx (exec (.commandTransferEnd 1) verifySharedNumber) = true := by decide +kernel
  rw [show exec (.commandTransferEnd 1) verifySharedNumber = _ from heq] at hempty
  exact absurd hempty (by decide +kernel)

end Sys2Proof.Machine
end

section
/-! PROOFS. Shards and layers (O38). -/

set_option Elab.async false

namespace Sys2Proof.Machine

/-! ### Shards and layers -/

theorem exec_shardReadyPoll (ctx : Nat) (x : ShardRef) (s : State) : exec (.shardReadyPoll ctx x) s = execShardReadyPoll ctx x s := rfl
theorem exec_shardStart (ctx : Nat) (x : ShardRef) (s : State) : exec (.shardStart ctx x) s = execShardStart ctx x s := rfl
theorem exec_shardComplete (ctx : Nat) (x : ShardRef) (s : State) : exec (.shardComplete ctx x) s = execShardComplete ctx x s := rfl
theorem exec_weightDeadline (ctx : Nat) (s : State) : exec (.weightDeadline ctx) s = execWeightDeadline ctx s := rfl
theorem exec_adapterRoomDeadline (ctx a : Nat) (s : State) : exec (.adapterRoomDeadline ctx a) s = execAdapterRoomDeadline ctx a s := rfl
theorem exec_layerOverwriteStart (ctx : Nat) (s : State) : exec (.layerOverwriteStart ctx) s = execLayerOverwriteStart ctx s := rfl
theorem exec_layerOverwriteDone (ctx : Nat) (pathFault : Bool) (s : State) :
    exec (.layerOverwriteDone ctx pathFault) s = execLayerOverwriteDone ctx pathFault s := rfl

/-- The step that overwrites one staged shard of a layer, from STAGE to DST. -/
def overwriteStep (ctx : Nat) (c : Ctx) (w : WgtOp) (v : State) (x : ShardRec) : State :=
  match (w.shards[x.index]?).bind fun y => c.translate y.dst x.len false true with
  | none => v
  | some k =>
    if v.poisonedIn x.base x.len = true ∨ sha384 (v.readBytes x.base x.len) ≠ x.digest then
      (v.writeMarked k (v.readBytes x.base x.len) (List.range x.len)).modOp ctx w.cmd fun w => { w with poisoned := true }
    else v.writeBytes k (v.readBytes x.base x.len)

/-- A layer whose staged shards stand at DST: the layer counts, and the last one ends the replacement. -/
def State.layerDone (v : State) (ctx : Nat) (w : WgtOp) : State :=
  if w.layersDone + 1 < w.layerOrder.length then
    v.modOp ctx w.cmd fun w => { w with overwriting := false, layersDone := w.layersDone + 1 }
  else (v.modOp ctx w.cmd fun w => { w with overwriting := false, layersDone := w.layersDone + 1 }).endReplace ctx w.cmd

theorem overwriteShard_step (c : Ctx) (w : WgtOp) (v : State) (x : ShardRec) :
    (match w.shards[x.index]? with
      | some y => v.overwriteShard c w y x
      | none => v) = overwriteStep c.id c w v x := by
  rw [overwriteStep]
  cases w.shards[x.index]? with
  | none => rfl
  | some y =>
    rw [Option.bind_some]
    dsimp only
    rw [State.overwriteShard]
    cases c.translate y.dst x.len false true with
    | none => rfl
    | some k => simp only [Bool.or_eq_true, bne_iff_ne]

theorem poisonOffsets_clean {s : State} {k len : Nat} (h : s.poisonedIn k len = false) : s.poisonOffsets k len = [] := by
  rw [State.poisonOffsets, h]
  rfl

section
variable {s u : State} {ctx n : Nat} {c : Ctx} {w : WgtOp} {x : ShardEnt}

/-- A movement of a local shard ends: the source is checked, and what its descriptor makes of it is taken. -/
theorem execShardComplete_local {k : Nat} (hrun : s.running = true) (hc : s.ctx? ctx = some c)
    (hop : c.opShard w.cmd n .inFlight = some (w, x)) (hlocal : x.remote = false) (hk : c.translate x.src x.srcLen true false = some k)
    (hu : u = s.touch k x.srcLen) (hunit : u.shardUnitFailed (c.shardUnit w x) = false) :
    execShardComplete ctx ⟨w.cmd, n⟩ s =
      .next ((u.takeShard c w n x (u.readBytes k x.srcLen) (u.poisonOffsets k x.srcLen)).settleOp ctx w.cmd) := by
  have htouch : s.touchShard c x = u := by
    rw [State.touchShard, hlocal, hu]
    simp only [Bool.false_eq_true, if_false, hk]
  have hdata : u.shardData c w n x = some (u.readBytes k x.srcLen, u.poisonOffsets k x.srcLen) := by
    rw [State.shardData, hlocal, hk]
    rfl
  rw [execShardComplete, hc]
  simp only [hop, htouch, hdata]
  rw [when_of_true hrun, hunit]
  rfl

/-- Without open transfers the shard takes none off the links. -/
theorem transfers_filter_of_none (h : u.link.transfers = []) (p : Transfer → Bool) :
    (u.modLink fun l => { l with transfers := l.transfers.filter p }) = u := by
  rw [State.modLink, h, List.filter_nil, ← h]

theorem takeShard_ok {bs : List Byte} {ps : List Nat} {kd : Nat} {o : ConvOut} (hid : c.id = ctx) (hnone : u.link.transfers = [])
    (hout : c.shardOutcome w x bs ps = .ok (kd, o)) : u.takeShard c w n x bs ps =
      (((((u.writeMarked kd o.bytes o.marks).countConv o).shardEntry c w n 0 0 o.sat o.nanOut).modCtx
         ctx fun c => c.modRecs w fun rs => rs.set n (c.shardRec n x kd o)).modOp ctx w.cmd fun w => setProg w n .valid) := by
  rw [State.takeShard, transfers_filter_of_none hnone, hout, hid]

theorem takeShard_mismatch {bs : List Byte} {ps : List Nat} (hid : c.id = ctx) (hnone : u.link.transfers = [])
    (hout : c.shardOutcome w x bs ps = .error (0, false)) : u.takeShard c w n x bs ps =
      ((u.shardEntry c w n 0x0401 0 0 0).modOp ctx w.cmd fun w => setProg w n (.failed .shardCorrupt)) := by
  rw [State.takeShard, transfers_filter_of_none hnone, hout, hid]
  rfl

end

/-- Settles O38: shards first, then the layers of a replacement. -/
theorem shardAndLayerRows : Obligations.ShardAndLayerRows := by
  refine ⟨fun s ctx n c w x hrun hc => ⟨fun k u hop hk hu => ?_, fun hop hmay h3 h5 hlocal => ?_,
      fun k kd o u hop hlocal hk hu hunit hclean hdigest hnone hrun' hkd => ?_,
      fun k u hop hlocal hk hu hunit hnone hbad hmode => ?_, fun hw hroom hbar hdl hpast hopen => ?_,
      fun a hw hkind had hroom hdl hpast => ?_⟩,
    fun s ctx c w hrun hc => ⟨fun l hl => ?_, fun hw => ⟨fun of u0 u hof hu0 hu => ?_, ?_⟩⟩⟩
  · subst hu
    simp only [exec_shardReadyPoll, execShardReadyPoll, hc, hop, hk, hrun, Bool.not_true, Bool.false_eq_true, if_false, beq_iff_eq]
  · have hgo : (!(s.running && s.mayStart c w n (c.shardUnit w x))) = false := by rw [hrun, hmay]; rfl
    have hunit : s.shardUnitFailed (c.shardUnit w x) = false := by rw [State.shardUnitFailed, h3, h5]; rfl
    simp only [exec_shardStart, execShardStart, hc, hop, hgo, hunit, State.shardRoute, hlocal, Bool.false_eq_true, if_false]
  · have hout : c.shardOutcome w x (u.readBytes k x.srcLen) (u.poisonOffsets k x.srcLen) = .ok (kd, o) := by
      simp only [Ctx.shardOutcome, poisonOffsets_clean hclean, hdigest, List.isEmpty_nil, bne_self_eq_false, Bool.not_true, Bool.or_self,
        Bool.false_eq_true, if_false, hrun', Bool.or_eq_true, decide_eq_true_eq, hkd]
    rw [exec_shardComplete, execShardComplete_local hrun hc hop hlocal hk hu hunit, takeShard_ok (ctx?_id hc) hnone hout]
  · have hbad' : (!(u.poisonOffsets k x.srcLen).isEmpty || sha384 (u.readBytes k x.srcLen) != x.digest) = true := by
      simpa only [Bool.or_eq_true, Bool.not_eq_true', List.isEmpty_eq_false_iff, bne_iff_ne] using hbad
    have hout : c.shardOutcome w x (u.readBytes k x.srcLen) (u.poisonOffsets k x.srcLen) = .error (0, false) := by
      rw [Ctx.shardOutcome]
      simp only [hbad', if_true, hmode]
      rfl
    rw [exec_shardComplete, execShardComplete_local hrun hc hop hlocal hk hu hunit, takeShard_mismatch (ctx?_id hc) hnone hout]
  · have hfind : ((s.ctx? ctx).bind fun c => c.wgt.find? fun w =>
        !w.noRoom && w.barrier.isNone && w.deadline != 0 && w.deadline ≤ s.now && !(w.shardsIn ShardSt.open_).isEmpty) = some w := by
      have hnow : decide (w.deadline ≤ s.now) = true := decide_eq_true hpast
      simp only [hc, Option.bind_some, hw, hroom, hbar, hnow, Option.isNone_none, bne_iff_ne.mpr hdl, Bool.not_false, Bool.and_true,
        List.isEmpty_eq_false_iff.mpr hopen, List.find?_cons_of_pos]
    rw [exec_weightDeadline, execWeightDeadline, hfind]
    exact when_of_true hrun _
  · have hfind : ((s.ctx? ctx).bind fun c => c.wgt.find? fun w => w.kind == 2 && w.adapter == a && w.noRoom) = some w := by
      simp [hc, hw, hkind, had, hroom]
    have hgo : (s.running && w.deadline != 0 && w.deadline ≤ s.now) = true := by
      rw [hrun, bne_iff_ne.mpr hdl, decide_eq_true (show w.deadline ≤ s.now from hpast)]
      rfl
    rw [exec_adapterRoomDeadline, execAdapterRoomDeadline, hfind]
    exact when_of_true hgo _
  · rw [exec_layerOverwriteStart, execLayerOverwriteStart, hc, Option.bind_some, hl]
    exact when_of_true hrun _
  · have hsteps : (fun (v : State) (x : ShardRec) => match w.shards[x.index]? with
        | some y => v.overwriteShard c w y x
        | none => v) = overwriteStep ctx c w := by
      funext v x
      rw [overwriteShard_step, ctx?_id hc]
    subst hof hu0 hu
    rw [exec_layerOverwriteDone, execLayerOverwriteDone, hc]
    simp only [hw, hrun, Bool.not_true, Bool.false_eq_true, if_false]
    exact congrArg (fun f => Host.Outcome.next ((List.foldl f (s.touchAll (_ : List (Nat × Nat))) _).layerDone ctx w)) hsteps
  · simp only [exec_layerOverwriteDone, execLayerOverwriteDone, hc, hw, hrun, Bool.not_true, Bool.false_eq_true, if_false, if_true]

end Sys2Proof.Machine
end

section
/-! PROOFS. Serving commands, requests, steps and routing points (O39, O40). -/

set_option Elab.async false

namespace Sys2Proof.Machine

/-! ### Serving commands and requests -/

theorem exec_srvStart (e : Env) (desc : U64) (s : State) : exec (.srvStart e desc) s = execSrvStart e desc s := rfl
theorem exec_srvPolicy (e : Env) (chunk : U16) (n0 n1 s0 s1 : Byte) (iv : U16) (s : State) :
    exec (.srvPolicy e chunk n0 n1 s0 s1 iv) s = execSrvPolicy e chunk n0 n1 s0 s1 iv s := rfl
theorem exec_reqAdmit (e : Env) (desc dl : U64) (ad : U32) (host : Bool) (s : State) :
    exec (.reqAdmit e desc dl ad host) s = execReqAdmit e desc dl ad host s := rfl
theorem exec_reqCancel (e : Env) (req : U32) (s : State) : exec (.reqCancel e req) s = execReqCancel e req s := rfl
theorem exec_requestDeadline (ctx req : Nat) (s : State) : exec (.requestDeadline ctx req) s = execRequestDeadline ctx req s := rfl
theorem exec_stepAnswer (e : Env) (req step : U32) (ans : U64) (len : U32) (s : State) :
    exec (.stepAnswer e req step ans len) s = execStepAnswer e req step ans len s := rfl
theorem exec_srvStop (e : Env) (drain : Bool) (s : State) : exec (.srvStop e drain) s = execSrvStop e drain s := rfl

/-- The request that REQ_ADMIT admits: waiting, nothing prefilled and nothing emitted. -/
def admittedReq (n : Nat) (bs : List Byte) (deadline : Nat) (bound : Option (Nat × Nat)) (host : Bool) (last : Nat) : Req :=
  { id := reqIdOf n, prompt := fieldAt bs 0 8, plen := fieldAt bs 8 4, maxNew := fieldAt bs 12 4, out := fieldAt bs 16 8,
    stops := (List.range 4).map (fun i => fieldAt bs (24 + 4 * i) 4), deadline, adapter := bound, hostStep := host, cond := .waiting,
    slot := none, pages := [], kvlen := 0, prefilled := 0, emitted := 0, last, drafts := [], steps := 0, maskValid := false,
    replaced := false, cancel := none }

/-- Settles O39: commands of a serving context, then what ends its requests. -/
theorem servingRows : Obligations.ServingRows := by
  refine ⟨fun s e r c hc => ⟨fun desc k u bs v h hw hres hmov hsrv hk hu hbs hfail hstale hv => ?_,
      fun chunk n0 n1 s0 s1 iv v h hsv hst hchunk hn hs => ?_,
      fun desc dl ad host v k u bs bound h hnone hsome hsv hst hk hu hbs hfail hroom => ?_⟩,
    fun s e r c v q hsv hreqs => ⟨fun req h hc hknown hq hcancel => ?_, fun hrun hc hdl hpast hout => ?_,
      fun req step ans len k a u h hreq hlen hc hknown hq hhost hcond hsteps hmask ha hu hrow => ?_,
      fun drain h hc hst hcmd hcur => ?_⟩⟩
  · have hgo : (!((c.weight == .loaded || c.weight == .replacing) && c.resident && !(s.started r).moving c.id && !c.isServing)) =
        false := by
      rw [hres, hmov, hsrv]
      rcases hw with hw | hw <;> rw [hw] <;> rfl
    subst hk hu hbs hv
    rw [exec_srvStart, execSrvStart, command_ready h _ _ _ rfl, startSrvStart, hc]
    simp only [hgo, hfail, hstale, Bool.false_eq_true, if_false]
  · have hgo : (!(v.st == .serving && decide (chunk.toNat ≤ v.desc.chunkMax) && decide (n1.toNat ≤ v.desc.nmax) &&
        decide (s1.toNat ≤ v.desc.smax))) = false := by
      rw [hst, decide_eq_true hchunk, decide_eq_true hn, decide_eq_true hs]
      rfl
    rw [exec_srvPolicy, execSrvPolicy, command_ready h _ _ _ rfl, startSrvPolicy, hc, Option.bind_some, hsv]
    simp only [hgo, Bool.false_eq_true, if_false]
  · have hgo : (v.st != .serving || (ad != 0xFFFFFFFF && (c.currentVersion ad.toNat).isNone)) = false := by
      by_cases hall : ad = 0xFFFFFFFF
      · rw [hst, hall]
        rfl
      · obtain ⟨n, hn, -⟩ := hsome hall
        rw [hst, hn]
        simp
    have hbound : (if ad = 0xFFFFFFFF then none else (c.currentVersion ad.toNat).map fun n => (ad.toNat, n)) = bound := by
      by_cases hall : ad = 0xFFFFFFFF
      · rw [if_pos hall, hnone hall]
      · obtain ⟨n, hn, hb⟩ := hsome hall
        rw [if_neg hall, hn, hb]
        rfl
    subst hk hu hbs
    refine ⟨admittedReq v.freeReq (((s.started r).touch ((s.started r).keyAt e desc.toNat 64 true false) 64).readBytes _ 64) dl.toNat bound host
      ((Config.freeValue ((s.started r).touch ((s.started r).keyAt e desc.toNat 64 true false) 64).free).toNat % 2 ^ 32),
      rfl, rfl, rfl, rfl, rfl, rfl, rfl, rfl, rfl, rfl, ?_⟩
    rw [exec_reqAdmit, execReqAdmit, command_ready h _ _ _ rfl, startReqAdmit, hc]
    simp only [hsv, hgo, hfail, Nat.not_le.mpr hroom, Bool.false_eq_true, if_false, State.draw, hbound]
    rfl
  · have hfind : v.reqs.find? (fun x => x.id == req.toNat) = some q := by simp [hreqs, hq]
    rw [exec_reqCancel, execReqCancel, command_ready h _ _ _ rfl, startReqCancel, hc, Option.bind_some, hsv]
    simp only [Option.map_some, hknown, hfind, hcancel, Bool.not_true, Option.isSome_none, Bool.false_eq_true, if_false]
    exact apply_ite Host.Outcome.next _ _ _
  · have hfind : v.reqs.find? (fun x => x.id == q.id) = some q := by simp [hreqs]
    have hgo : (s.running && q.deadline != 0 && q.deadline ≤ s.now && !v.inStep.contains q.id) = true := by
      rw [hrun, bne_iff_ne.mpr hdl, decide_eq_true (show q.deadline ≤ s.now from hpast), hout]
      rfl
    rw [exec_requestDeadline, execRequestDeadline, hc, Option.bind_some, hsv]
    simp only [hfind]
    exact when_of_true hgo _
  · have hfind : v.reqs.find? (fun x => x.id == req.toNat) = some q := by simp [hreqs, hq]
    have hz : (len == 0) = false := by simpa using hlen
    have hgo : (!(q.hostStep && q.cond == .awaiting && q.steps == step.toNat)) = false := by
      rw [hhost, hcond, hsteps]
      simp
    subst ha hu
    rw [exec_stepAnswer, execStepAnswer, command_ready h _ _ _ hz, startStepAnswer, hc]
    simp only [hreq, hsv, if_false, State.answerReq, hknown, hfind, hgo, Nat.not_lt.mpr hmask, Bool.not_true, Bool.false_eq_true, hrow]
  · have hgo : (v.st == .stopped || v.stopCmd.isSome) = false := by
      rw [hcmd, beq_eq_false_iff_ne.mpr hst]
      rfl
    have hkeep : (!drain && v.cur.isNone) = false := by
      rcases hcur with hd | hcur
      · rw [hd]; rfl
      · rw [← Option.not_isSome, hcur, Bool.not_true, Bool.and_false]
    rw [exec_srvStop, execSrvStop, command_ready h _ _ _ rfl, startSrvStop, hc, Option.bind_some, hsv]
    simp only [Option.map_some, hgo, hkeep, Bool.false_eq_true, if_false]

/-! ### Steps and routing points -/

/-- Settles O40: composition and end of a step, start and expiry of a routing point. -/
theorem stepAndRouteRows : Obligations.StepAndRouteRows := by
  intro s c hrun hc
  refine ⟨fun hready => ?_, fun v r hsv hcur hdec hpre => ?_, fun c0 i0 im0 p0 r0 v h0 hst hdone hv i im p r n h hn hunit hhost u hu => ?_,
    fun i im p r q h hq hpast => ?_⟩
  · have hgo : (s.running && s.composable c) = true := by rw [hrun, hready]; rfl
    rw [exec_stepCompose, execStepCompose, hc]
    exact when_of_true hgo _
  · have hgo : (s.running && (r.decInv.isNone || r.decDone.isSome) && (r.preInv.isNone || r.preDone.isSome)) = true := by
      simpa only [hrun, Bool.true_and, Bool.and_eq_true, Bool.or_eq_true, Option.isNone_iff_eq_none] using And.intro hdec hpre
    rw [exec_stepEnd, execStepEnd, hc, Option.bind_some, hsv, Option.bind_some, hcur]
    exact when_of_true hgo _
  · have hgo : (s.running && !p0.started && im0.routerDone p0) = true := by rw [hrun, hst, hdone]; rfl
    have hunit' : u.unitFailed 4 (mandolineOf ((c.translate r.scores 4 true true).getD 0) ((c.translate r.scores 4 true true).getD 0)) =
        false := by rwa [State.unitFailed, hu, tracePoint_grid]
    subst hu hv
    rw [exec_routingPointStart, execRoutingPointStart, h0]
    simp only [h, State.startPoint, hn, hunit', hhost, Bool.false_and, Bool.false_eq_true, if_false]
    exact when_of_true hgo _
  · have hgo : (s.running && q + r.routeWait ≤ s.elapsed) = true := by
      rw [hrun, decide_eq_true (show q + r.routeWait ≤ s.elapsed from hpast)]
      rfl
    rw [exec_routeWaitExpiry, execRouteWaitExpiry, h]
    simp only [hq]
    exact when_of_true hgo _

end Sys2Proof.Machine
end

section
/-! PROOFS. Link commands, transfers and collectives (O41). -/

set_option Elab.async false

namespace Sys2Proof.Machine

/-! ### Link commands, transfers and collectives -/

theorem exec_linkTrain (e : Env) (mask : U16) (s : State) : exec (.linkTrain e mask) s = execLinkTrain e mask s := rfl
theorem exec_linkExpectSet (e : Env) (port : Byte) (fc : BitVec 12) (fp : Byte) (dg : U64) (s : State) :
    exec (.linkExpectSet e port fc fp dg) s = execLinkExpectSet e port fc fp dg s := rfl
theorem exec_linkQuery (e : Env) (port : Byte) (s : State) : exec (.linkQuery e port) s = execLinkQuery e port s := rfl
theorem exec_routeLoad (e : Env) (table : U64) (n : U32) (sl : Byte) (s : State) :
    exec (.routeLoad e table n sl) s = execRouteLoad e table n sl s := rfl
theorem exec_portOwnerSet (e : Env) (port owner : Byte) (s : State) :
    exec (.portOwnerSet e port owner) s = execPortOwnerSet e port owner s := rfl
theorem exec_put (e : Env) (src dst len dl : U64) (s : State) : exec (.put e src dst len dl) s = execPut e src dst len dl s := rfl
theorem exec_get (e : Env) (src dst len dl : U64) (s : State) : exec (.get e src dst len dl) s = execGet e src dst len dl s := rfl
theorem exec_exchange (e : Env) (desc dl : U64) (g : U16) (s : State) : exec (.exchange e desc dl g) s = execExchange e desc dl g s := rfl
theorem exec_reduceScatter (e : Env) (desc dl : U64) (g : U16) (s : State) :
    exec (.reduceScatter e desc dl g) s = execReduceScatter e desc dl g s := rfl
theorem exec_allGather (e : Env) (desc dl : U64) (g : U16) (s : State) : exec (.allGather e desc dl g) s = execAllGather e desc dl g s := rfl
theorem exec_mirrorSet (e : Env) (buddy : BitVec 12) (on : Bool) (s : State) :
    exec (.mirrorSet e buddy on) s = execMirrorSet e buddy on s := rfl
theorem exec_collectiveDeadline (g : Nat) (s : State) : exec (.collectiveDeadline g) s = execCollectiveDeadline g s := rfl
theorem exec_transferDeadline (t : Nat) (s : State) : exec (.transferDeadline t) s = execTransferDeadline t s := rfl
theorem exec_transferRetry (t : Nat) (s : State) : exec (.transferRetry t) s = execTransferRetry t s := rfl

/-- A collective that is ready starts as its opcode's start says. -/
theorem collective_ready {s : State} {e : Env} {r : CmdRec} {op : Nat} {i : Instr} {desc dl : U64} {g : U16} (h : Ready s i e r)
    (hi : (op = 0x0903 ∧ i = .exchange e desc dl g) ∨ (op = 0x0904 ∧ i = .reduceScatter e desc dl g) ∨
      (op = 0x0905 ∧ i = .allGather e desc dl g)) : exec i s = .next (startColl op e desc dl g r.id (s.started r)) := by
  rcases hi with ⟨rfl, rfl⟩ | ⟨rfl, rfl⟩ | ⟨rfl, rfl⟩
  · rw [exec_exchange, execExchange, command_ready h _ _ _ rfl]
  · rw [exec_reduceScatter, execReduceScatter, command_ready h _ _ _ rfl]
  · rw [exec_allGather, execAllGather, command_ready h _ _ _ rfl]

/-- A transfer whose range is held and idle, and whose slice has a route, starts. -/
theorem beginTransfer_routed {s : State} {e : Env} {id remote len dl k sl : Nat} {kind : TransKind} (hbusy : s.sramBusy k len = false)
    (hsl : s.link.originEntry (s.originJob e) (chipOf remote) = some sl) :
    s.beginTransfer e id kind (some k) remote len dl = s.startTransfer (some id) kind sl (chipOf remote) k remote len dl := by
  simp only [State.beginTransfer, hbusy, hsl, Bool.false_eq_true, if_false]

/-- Settles O41: commands of ports and tables, then transfers, collectives and mirrors. -/
theorem linkFamilyCommands : Obligations.LinkFamilyCommands := by
  refine ⟨fun s e r => ⟨fun mask h hchip => ?_, fun port fp fc dg h hfp => ?_, fun port fc dg t h ht => ?_, fun port h => ?_,
      fun table n sl k u own es h hn hk hu hroutes hlen hnone hne hkeep => ?_, fun port owner h hnone => ?_⟩,
    fun s e r => ⟨fun src dst len dl k sl h hlen hk hbusy hsl => ?_, fun src dst len dl k sl h hlen hk hbusy hsl => ?_,
      fun op i desc dl g k v u hdr raw ms h hi hnone htick hv hhdr hk hu hraw hfail hms hroute => ?_,
      fun c buddy hc => ⟨fun h => ⟨fun hm => ?_, fun m v hm hv => ?_⟩, fun g sl v h hg hsl hv => ?_⟩, fun c hrun hc hdl hpast => ?_,
      fun t hrun ht => ⟨fun hkind hdl hpast => ?_, fun a hretry hpast hopen => ?_⟩⟩⟩
  · have hchip' : (s.started r).link.chip.isNone = false := by rw [started_link, ← Option.not_isSome, hchip]; rfl
    rw [exec_linkTrain, execLinkTrain, command_ready h _ _ _ rfl, startLinkTrain]
    simp only [hchip', Bool.false_eq_true, if_false]
  · rw [exec_linkExpectSet, execLinkExpectSet, command_ready h _ _ _ rfl, startLinkExpectSet]
    simp only [hfp, if_false]
  · subst ht
    rw [exec_linkExpectSet, execLinkExpectSet, command_ready h _ _ _ rfl, startLinkExpectSet]
    simp only [if_true, Bool.or_eq_true, beq_iff_eq]
  · rw [exec_linkQuery, execLinkQuery, command_ready h _ _ _ rfl, startLinkQuery]
  · have hz : (n == 0) = false := by simpa using hn
    have hall : (decide (es.length = 1) && es.all fun x => x.port == 15) = false := by
      rcases hkeep with h1 | ⟨x, hx, hport⟩
      · rw [decide_eq_false h1]; rfl
      · rw [Bool.and_eq_false_iff, List.all_eq_false]
        exact .inr ⟨x, hx, by simpa using hport⟩
    have hroom : (decide (4096 < es.length) || decide (8192 < 0 + es.length)) = false := by
      rw [decide_eq_false (by omega), decide_eq_false (by omega)]
      rfl
    subst hk hu
    rw [exec_routeLoad, execRouteLoad, command_ready h _ _ _ hz, startRouteLoad]
    simp only [hroutes, hnone, List.filter_nil, List.map_nil, List.foldl_nil, hroom, hall, Bool.false_eq_true, if_false, List.nil_append,
      List.isEmpty_eq_false_iff.mpr hne]
  · rw [exec_portOwnerSet, execPortOwnerSet, command_ready h _ _ _ rfl, startPortOwnerSet]
    simp only [started_link, hnone, List.any_nil, Bool.false_eq_true, if_false]
  · have hz : (len == 0) = false := by simpa using hlen
    rw [exec_put, execPut, command_ready h _ _ _ hz, startPut, hk, beginTransfer_routed hbusy hsl]
  · have hz : (len == 0) = false := by simpa using hlen
    rw [exec_get, execGet, command_ready h _ _ _ hz, startGet, hk, beginTransfer_routed hbusy hsl]
  · have hway : (ms.any fun m => m.chip != u.ownChip && (u.link.originEntry (u.originJob e) m.chip).isNone) = false := by
      rw [List.any_eq_false]
      intro m hm
      rcases hroute m hm with hown | hsome
      · simp [hown]
      · simp [← Option.not_isSome, hsome]
    rw [collective_ready h hi, startColl, ← hv]
    simp only [hnone, List.any_nil, Bool.false_eq_true, if_false, ← hhdr, hk, ← hu, ← hraw, hfail, ← hms, hway, htick]
    rfl
  · rw [exec_mirrorSet, execMirrorSet, command_ready h _ _ _ rfl, startMirrorSet, hc]
    simp only [Bool.not_false, if_true, State.endMirror, hm]
  · subst hv
    rw [exec_mirrorSet, execMirrorSet, command_ready h _ _ _ rfl, startMirrorSet, hc]
    cases hcmd : m.cmd with
    | none => simp only [Bool.not_false, if_true, State.endMirror, hm, hcmd]
    | some x => simp only [Bool.not_false, if_true, State.endMirror, hm, hcmd]
  · subst hv
    rw [exec_mirrorSet, execMirrorSet, command_ready h _ _ _ rfl, startMirrorSet, hc]
    simp only [Bool.not_true, Bool.false_eq_true, if_false, hg, hsl]
  · have hgo : (s.running && c.deadline != 0 && c.deadline ≤ s.now) = true := by
      rw [hrun, bne_iff_ne.mpr hdl, decide_eq_true (show c.deadline ≤ s.now from hpast)]
      rfl
    rw [exec_collectiveDeadline, execCollectiveDeadline, hc]
    exact when_of_true hgo _
  · have hgo : (s.running && (t.kind == .put || t.kind == .get) && t.deadline != 0 && t.deadline ≤ s.now) = true := by
      rw [hrun, bne_iff_ne.mpr hdl, decide_eq_true (show t.deadline ≤ s.now from hpast)]
      rcases hkind with hk | hk <;> rw [hk] <;> rfl
    rw [exec_transferDeadline, execTransferDeadline, ht]
    exact when_of_true hgo _
  · have hgo : (s.running && a ≤ s.elapsed) = true := by
      rw [hrun, decide_eq_true (show a ≤ s.elapsed from hpast)]
      rfl
    rw [exec_transferRetry, execTransferRetry, ht]
    simp only [hretry, hopen, if_true]
    exact when_of_true hgo _

end Sys2Proof.Machine
end

section
/-! PROOFS. Ports (O42). -/

set_option Elab.async false

namespace Sys2Proof.Machine

/-! ### Ports -/

theorem exec_laneFailure (n lane : Nat) (s : State) : exec (.laneFailure n lane) s = execLaneFailure n lane s := rfl
theorem exec_farEndIdle (n : Nat) (s : State) : exec (.farEndIdle n) s = execFarEndIdle n s := rfl
theorem exec_ackTimer (n : Nat) (s : State) : exec (.ackTimer n) s = execAckTimer n s := rfl
theorem exec_creditFrameTimer (n : Nat) (vc : BitVec 2) (cls : BitVec 1) (s : State) :
    exec (.creditFrameTimer n vc cls) s = execCreditFrameTimer n vc cls s := rfl
theorem exec_credit (n : Nat) (ch : Byte) (rsv : U16) (total : U32) (tail : BitVec 96) (s : State) :
    exec (.credit n ch rsv total tail) s = execCredit n ch rsv total tail s := rfl
theorem exec_acknowledgement (n : Nat) (flags : Byte) (lseq : U16) (tail : BitVec 128) (s : State) :
    exec (.acknowledgement n flags lseq tail) s = execAcknowledgement n flags lseq tail s := rfl
theorem exec_vcStall (n vc : Nat) (s : State) : exec (.vcStall n vc) s = execVcStall n vc s := rfl
theorem exec_identity (n : Nat) (fp : Byte) (fc : U16) (rsv : U32) (dg : U64) (crc : U32) (s : State) :
    exec (.identity n fp fc rsv dg crc) s = execIdentity n fp fc rsv dg crc s := rfl
theorem exec_identityTimeout (n : Nat) (s : State) : exec (.identityTimeout n) s = execIdentityTimeout n s := rfl
theorem exec_linkTrainingComplete (n : Nat) (lanes : List Nat) (eye : Nat) (s : State) :
    exec (.linkTrainingComplete n lanes eye) s = execLinkTrainingComplete n lanes eye s := rfl
theorem exec_timeProbe (n : Nat) (flags : Byte) (probe : U16) (turn : U32) (stamp : U64) (crc : U32) (at_ : U64) (s : State) :
    exec (.timeProbe n flags probe turn stamp crc at_) s = execTimeProbe n flags probe turn stamp crc at_ s := rfl
theorem exec_retrain (p : BitVec 4) (v : U64) (s : State) : exec (.retrain p v) s = execRetrain p v s := rfl

section
variable {s : State} {n : Nat}

/-- A lane that fails while eight are left is replaced by the ninth. -/
theorem loseLane_spare {lane : Nat} (hactive : (s.port n).active.contains lane = true)
    (hgood : (goodLanes ((s.port n).laneFail ||| 2 ^ lane)).length = 8) : s.loseLane n lane =
      ((((s.modPort n fun x => { x with laneFail := (s.port n).laneFail ||| 2 ^ lane }).modPort n fun x =>
        { x with spareUsed := true, active := goodLanes ((s.port n).laneFail ||| 2 ^ lane) }).event n 0x0022
          (leBytes 1 n ++ leBytes 1 lane)).journalAction 0x22 (leBytes 1 n ++ leBytes 1 lane)) := by
  simp only [State.loseLane, hactive, hgood, Bool.not_true, Bool.false_eq_true, if_false, if_true]
  rfl

/-- The acknowledged sequence number as the frame's check takes it. -/
theorem natCast_toNat (v : U16) : ((v.toNat : Nat) : U16) = v := by
  rw [BitVec.natCast_eq_ofNat, BitVec.ofNat_toNat, BitVec.setWidth_eq]

/-- The mask of the failed lanes is empty when training found all nine good and none is known to have failed. -/
theorem maskOf_no_failed_lanes (h : s.grid.lanesFailed = []) :
    maskOf ((List.range 9).filter fun l => !([0, 1, 2, 3, 4, 5, 6, 7, 8] : List Nat).contains l || s.grid.lanesFailed.contains (n, l)) = 0 := by
  rw [h]
  rfl

end

/-- Settles O42: the rows of a port that is UP, a stalled channel, the rows of a training, and RETRAIN. -/
theorem portRows : Obligations.PortRows := by
  intro s n hrun hn
  have hn' : decide (n ≤ 11) = true := decide_eq_true hn
  refine ⟨fun hup => ⟨fun lane hlane hok hactive hgood => ?_, ?_, fun hun => ?_, fun vc cls hvc => ?_,
      fun ch rsv total tail vc cls hcrc hvc hcls hle => ?_, fun flags lseq tail q hcrc hq => ⟨fun hnak => ?_, fun hack => ?_⟩⟩,
    fun vc ps hvc hps hne hpast => ?_,
    fun htr => ⟨fun fp fc dg crc hcrc hfc => ?_, fun hfar => ⟨fun at_ hsix hpast => ?_, fun hsix => ?_⟩,
      fun lanes eye u hlanes hfail hu => ?_, fun flags probe turn stamp crc at_ hlen hcrc hflag => ?_⟩,
    fun p v hp hchip hoff hbit => ?_⟩
  · have hgo : (s.running && n ≤ 11 && lane ≤ 8 && (s.port n).st == .up && !bit (s.port n).laneFail lane) = true := by
      rw [hrun, hn', decide_eq_true hlane, hup, hok]
      rfl
    rw [exec_laneFailure, execLaneFailure, when_of_true hgo, loseLane_spare hactive hgood]
  · have hgo : (s.running && n ≤ 11 && (s.port n).st == .up) = true := by rw [hrun, hn', hup]; rfl
    rw [exec_farEndIdle, execFarEndIdle, when_of_true hgo]
  · have hgo : (s.running && n ≤ 11 && (s.port n).st == .up && 0 < (s.port n).unacked) = true := by
      rw [hrun, hn', hup, decide_eq_true hun]
      rfl
    rw [exec_ackTimer, execAckTimer, when_of_true hgo]
    rfl
  · have hgo : (s.running && n ≤ 11 && vc.toNat ≤ 2 && (s.port n).st == .up) = true := by rw [hrun, hn', decide_eq_true hvc, hup]; rfl
    rw [exec_creditFrameTimer, execCreditFrameTimer]
    exact when_of_true hgo _
  · subst hvc hcls
    have hgo : (s.running && n ≤ 11 && crcGood (creditBytes ch rsv total tail) && ch.toNat % 4 ≤ 2 && (s.port n).st == .up) = true := by
      rw [hrun, hn', hcrc, decide_eq_true hle, hup]
      rfl
    rw [exec_credit, execCredit]
    exact when_of_true hgo _
  · have hgo : (!(s.running && n ≤ 11 && crcGood (ackBytes flags lseq tail) && (s.port n).st == .up)) = false := by
      rw [hrun, hn', hcrc, hup]
      rfl
    simp only [exec_acknowledgement, execAcknowledgement, natCast_toNat, hgo, hnak, hq, Bool.false_eq_true, if_false, if_true]
  · have hgo : (!(s.running && n ≤ 11 && crcGood (ackBytes flags lseq tail) && (s.port n).st == .up)) = false := by
      rw [hrun, hn', hcrc, hup]
      rfl
    simp only [exec_acknowledgement, execAcknowledgement, natCast_toNat, hgo, hack, hq, Bool.false_eq_true, if_false]
  · subst hps
    have hgo : (!(s.running && n ≤ 11 && vc ≤ 2 && !((s.port n).waiting.filter fun w => w.pkt.vc == vc).isEmpty &&
        (s.port n).waitSince.getD vc 0 + 1000000 ≤ s.elapsed)) = false := by
      rw [hrun, hn', decide_eq_true hvc, List.isEmpty_eq_false_iff.mpr hne,
        decide_eq_true (show (s.port n).waitSince.getD vc 0 + 1000000 ≤ s.elapsed from hpast)]
      rfl
    simp only [exec_vcStall, execVcStall, hgo, Bool.false_eq_true, if_false]
    rfl
  · have hgo : (s.running && n ≤ 11 && (s.port n).st == .training && crcGood (identityBytes fp fc 0 dg crc) && fc.toNat < 4096 &&
        (0 : U32) == 0) = true := by
      rw [hrun, hn', htr, hcrc, decide_eq_true hfc]
      rfl
    rw [exec_identity, execIdentity, when_of_true hgo]
  · have hgo : (s.running && n ≤ 11 && (s.port n).st == .training && (s.port n).far.isNone &&
        (s.port n).sixAt.any fun t => t + 300000 ≤ s.elapsed) = true := by
      rw [hrun, hn', htr, hfar, hsix, Option.any_some, decide_eq_true (show at_ + 300000 ≤ s.elapsed from hpast)]
      rfl
    rw [exec_identityTimeout, execIdentityTimeout, when_of_true hgo]
  · have hwait : ((s.port n).sixAt.any fun t => t + 300000 ≤ s.elapsed) = false := by
      rcases hsix with hnone | ⟨at_, hat, hearly⟩
      · rw [hnone]; rfl
      · rw [hat, Option.any_some, decide_eq_false (show ¬ at_ + 300000 ≤ s.elapsed from Nat.not_le.mpr hearly)]
    rw [exec_identityTimeout, execIdentityTimeout, hwait, Bool.and_false, when_of_false rfl]
  · subst hlanes hu
    have hgo : (!(s.running && n ≤ 11 && (s.port n).st == .training && [0, 1, 2, 3, 4, 5, 6, 7, 8].all (· ≤ 8))) = false := by
      rw [hrun, hn', htr]
      rfl
    have hnine : ¬ (goodLanes 0).length < 4 := by decide
    simp only [exec_linkTrainingComplete, execLinkTrainingComplete, hgo, maskOf_no_failed_lanes hfail, hnine, Bool.false_eq_true, if_false]
    cases (s.port n).far with
    | none => rfl
    | some f =>
      dsimp only
      cases identityReason (s.port n).judged f <;> rfl
  · have hgo : (!(s.running && n ≤ 11 && crcGood (probeBytes flags probe turn stamp crc) &&
        ((s.port n).st == .training || (s.port n).st == .up))) = false := by
      rw [hrun, hn', hcrc, htr]
      rfl
    have hroom : ((s.port n).st != .training || decide (64 ≤ (s.port n).probes.length)) = false := by
      rw [htr, decide_eq_false (by omega)]
      rfl
    have hnotfull : ¬ ((s.port n).probes ++ [at_.toNat - stamp.toNat - turn.toNat]).length = 64 := by
      rw [List.length_append, List.length_singleton]
      omega
    simp only [exec_timeProbe, execTimeProbe, hgo, hflag, hroom, hnotfull, Bool.not_true, Bool.false_eq_true, if_false]
  · obtain ⟨hworks, hstage⟩ := alive_of_running hrun
    subst hp
    have hgo : (!(s.working && p.toNat ≤ 11)) = false := by rw [hworks, hn']; rfl
    simp only [exec_retrain, execRetrain, hgo, State.journalWrite, hstage, hbit, Bool.false_eq_true, if_false, BEq.rfl, if_true, Bool.and_self]
    rfl

end Sys2Proof.Machine
end

section
/-! PROOFS. Packets (O43). -/

set_option Elab.async false

namespace Sys2Proof.Machine

/-! ### Packets -/

theorem exec_packetReceive (n : Nat) (fec : Bool) (got : Arrived) (s : State) :
    exec (.packetReceive n fec got) s = execPacketReceive n fec got s := rfl
theorem exec_transitForward (s : State) : exec .transitForward s = execTransitForward s := rfl
theorem exec_writeData (s : State) : exec .writeData s = execWriteData s := rfl
theorem exec_readRequest (s : State) : exec .readRequest s = execReadRequest s := rfl
theorem exec_readData (s : State) : exec .readData s = execReadData s := rfl
theorem exec_collectiveSlice (s : State) : exec .collectiveSlice s = execCollectiveSlice s := rfl
theorem exec_mirrorData (s : State) : exec .mirrorData s = execMirrorData s := rfl
theorem exec_openRange (s : State) : exec .openRange s = execOpenRange s := rfl
theorem exec_openReply (s : State) : exec .openReply s = execOpenReply s := rfl
theorem exec_endToEndAcknowledgement (s : State) : exec .endToEndAcknowledgement s = execEndToEndAcknowledgement s := rfl
theorem exec_unreachable (s : State) : exec .unreachable s = execUnreachable s := rfl
theorem exec_heldPacketDiscard (n : Nat) (s : State) : exec (.heldPacketDiscard n) s = execHeldPacketDiscard n s := rfl

section
variable {s u : State} {n : Nat} {p : Pkt}

/-- The only delivered packet is taken off its port and does what its type says. -/
theorem deliverRow_only {type : Nat} {act : Pkt → State → State} (hrun : s.running = true) (hd : s.link.delivered = [(n, p)])
    (hwf : p.wellFormed = true) (hcode : p.desc.code = type)
    (hu : u = ({ s with link := { s.link with delivered := [] } } : State).freeUnits n p) : s.deliverRow type act = .next (act p u) := by
  have hfind : s.link.delivered.find? (fun d => d.2.desc.code == type) = some (n, p) := by simp [hd, hcode]
  have hgone : (s.modLink fun l => { l with delivered := l.delivered.erase (n, p) }) =
      ({ s with link := { s.link with delivered := [] } } : State) := by rw [State.modLink, hd, List.erase_cons_head]
  simp only [State.deliverRow, hfind, hrun, hgone, hwf, hu, Bool.not_true, Bool.false_eq_true, if_false, if_true]

/-- A good packet that is in order takes its sequence number and goes to delivery or to transit by its destination. -/
theorem execPacketReceive_ordered {bytes : List Byte} {marks : List Nat} (hrun : s.running = true) (hn : n ≤ 11)
    (hup : (s.port n).st = .up) (hgood : wireGood bytes = true) (hp : p = Pkt.of bytes marks) (hvc : p.vc ≠ 3)
    (hseq : p.lseq = (s.port n).rxSeq) (hun : (s.port n).unacked < 63) (hslice : p.slice = (s.port n).owner)
    (hcode : p.dst = s.ownChip → 1 ≤ p.desc.code ∧ p.desc.code ≤ 9)
    (hu : u = s.modPort n (fun x => { x with rxSeq := (x.rxSeq + 1) % 65536, unacked := x.unacked + 1 })) :
    execPacketReceive n true ⟨bytes, marks⟩ s =
      if p.dst = s.ownChip ∧ s.link.chip.isSome = true then
        .next (u.modLink fun l => { l with delivered := l.delivered ++ [(n, p)] })
      else .next (u.modLink fun l => { l with transit := l.transit ++ [(n, p)] }) := by
  have hgo : (!(s.running && n ≤ 11 && (s.port n).st == .up)) = false := by rw [hrun, decide_eq_true hn, hup]; rfl
  have hfew : ¬ 64 ≤ (s.port n).unacked + 1 := by omega
  have hordered : (p.lseq != (s.port n).rxSeq) = false := by rw [hseq]; exact bne_self_eq_false _
  have hmine : (p.slice != (s.port n).owner) = false := by rw [hslice]; exact bne_self_eq_false _
  subst hp hu
  simp only [execPacketReceive, hgo, hgood, hvc, hordered, hfew, hmine, Bool.and_self, Bool.not_true, Bool.false_eq_true, if_false,
    Bool.and_eq_true, decide_eq_true_eq]
  split
  next hown =>
    obtain ⟨hlow, hhigh⟩ := hcode hown.1
    have hknown : ¬ ((Pkt.of bytes marks).desc.code = 0 ∨ 9 < (Pkt.of bytes marks).desc.code) := by omega
    rw [if_neg (by simpa only [Bool.or_eq_true, decide_eq_true_eq] using hknown)]
  next => rfl

/-- A slice whose window is open, and not at a later launch, is judged by its window. -/
theorem execCollectiveSlice_open {g rank op la off len by_ : Nat} {c : Coll} (hrun : s.running = true)
    (hd : s.link.delivered = [(n, p)]) (hwf : p.wellFormed = true)
    (hu : u = ({ s with link := { s.link with delivered := [] } } : State).freeUnits n p)
    (hdesc : p.desc = .slice g rank op la off len by_) (hc : s.coll? g = some c) (huc : u.coll? g = some c)
    (hlater : (c.cmd.isNone && decide (c.launch < la)) = false) : execCollectiveSlice s =
      .next (if c.takes p.src rank op la then u.takeSlice c rank off len p.data p.marks else u.countDrop) := by
  have hfind : s.link.delivered.find? (fun d => d.2.desc.code == 4) = some (n, p) := by simp [hd, hdesc, PktDesc.code]
  have hopen : (s.running && p.wellFormed && s.opensLater g la) = false := by
    rw [State.opensLater, hc]
    dsimp only
    rw [hlater, Bool.and_false]
  simp only [execCollectiveSlice, hfind, hdesc, hopen, Bool.false_eq_true, if_false]
  rw [deliverRow_only hrun hd hwf (by rw [hdesc]; rfl) hu]
  simp only [huc]

end

/-- Settles O43: arrival at a port, transit, delivery by type, and the discard of a held slice. -/
theorem packetRows : Obligations.PacketRows := by
  intro s n p hrun
  refine ⟨fun hn hup => ⟨fun fec bytes marks hbad => ?_, fun bytes marks hgood hp hvc hseq hun hslice hcode u hu => ?_⟩,
    fun htransit u m r httl hroute => ?_,
    fun hd hwf u hu => ⟨fun ga len o hdesc ho hop hin v o1 hnote => ?_, fun ga len o hdesc ho hop hin w v o1 hw hnote => ?_,
      fun ga len t hdesc ht hkind hchip hopen hlow hhigh hparts hmore => ?_,
      fun g rank off len by_ op la c hdesc hc huc hop hsrc hrank => ⟨fun htake => ?_, fun hcmd hold => ?_⟩,
      fun cx st off by_ cm o hdesc ho hop hin => ?_, fun ga len op dl hdesc hown hop halloc v hv => ?_,
      fun ck t hdesc ht hchip hopen hkind => ?_, fun by_ t hdesc ht hchip hkind hclean => ?_, fun ch cause ty tag hdesc => ?_⟩,
    fun tick hheld hpast => ?_⟩
  · have hgo : (!(s.running && n ≤ 11 && (s.port n).st == .up)) = false := by rw [hrun, decide_eq_true hn, hup]; rfl
    have hbad' : (!(fec && wireGood bytes)) = true := by
      rcases hbad with hb | hb <;> rw [hb]
      · rfl
      · rw [Bool.and_false]; rfl
    simp only [exec_packetReceive, execPacketReceive, hgo, hbad', Bool.false_eq_true, if_false, if_true]
    rfl
  · rw [exec_packetReceive, execPacketReceive_ordered hrun hn hup hgood hp hvc hseq hun hslice hcode hu]
    rfl
  · have hhop : ¬ p.ttl - 1 = 0 := by omega
    have hroute' : (s.modLink fun l => { l with transit := [] }).tryRoute { p with ttl := p.ttl - 1 } = .ok (u, m, r) := hroute
    rw [exec_transitForward, execTransitForward, htransit]
    simp only [hhop, if_false, hroute']
    exact when_of_true hrun _
  · rw [exec_writeData, execWriteData, deliverRow_only hrun hd hwf (by rw [hdesc]; rfl) hu]
    simp only [hdesc, ho, hop, hin, hnote, decide_true, Bool.and_self, if_true]
  · subst hw
    rw [exec_readRequest, execReadRequest, deliverRow_only hrun hd hwf (by rw [hdesc]; rfl) hu]
    simp only [hdesc, ho, hop, hin, hnote, decide_true, Bool.and_self, if_true]
  · have hfits : (t.chip == p.src && t.opened && decide (t.remote ≤ ga) && decide (ga + len ≤ t.remote + t.len)) = true := by
      rw [hchip, hopen, decide_eq_true hlow, decide_eq_true hhigh]
      simp
    rw [exec_readData, execReadData, deliverRow_only hrun hd hwf (by rw [hdesc]; rfl) hu]
    simp only [hdesc, ht, hkind, hfits, hparts, List.any_nil, List.nil_append, Bool.not_true, Bool.or_self, Bool.false_eq_true, if_false,
      Nat.not_le.mpr hmore]
  · have hlater : (c.cmd.isNone && decide (c.launch < la)) = false := by
      rcases htake with hsome | heq
      · rw [← Option.not_isSome, hsome]; rfl
      · rw [heq, decide_eq_false (Nat.lt_irrefl _), Bool.and_false]
    have htakes : c.takes p.src rank op la = true := by
      rw [Coll.takes, hop, hsrc, bne_iff_ne.mpr hrank]
      rcases htake with hsome | heq
      · rw [hsome]; simp
      · rw [heq]; simp
    rw [exec_collectiveSlice, execCollectiveSlice_open hrun hd hwf hu hdesc hc huc hlater, if_pos htakes]
  · have hlater : (c.cmd.isNone && decide (c.launch < la)) = false := by rw [decide_eq_false (by omega), Bool.and_false]
    have htakes : ¬ c.takes p.src rank op la = true := by
      rw [Coll.takes, hcmd, Bool.and_eq_true]
      rintro ⟨-, hlaunch⟩
      have heq : la = c.launch := by simpa using hlaunch
      omega
    rw [exec_collectiveSlice, execCollectiveSlice_open hrun hd hwf hu hdesc hc huc hlater, if_neg htakes]
  · rw [exec_mirrorData, execMirrorData, deliverRow_only hrun hd hwf (by rw [hdesc]; rfl) hu]
    simp only [hdesc, ho, hop, hin, decide_true, Bool.and_self, if_true]
  · have hok : (u.ownGa ga && decide (op ≤ 2) && (u.mem.allocOf (keyOf ga) len).isSome) = true := by
      rw [hown, decide_eq_true hop, halloc]
      rfl
    subst hv
    rw [exec_openRange, execOpenRange, deliverRow_only hrun hd hwf (by rw [hdesc]; rfl) hu]
    simp only [hdesc, hok, if_true]
  · have hwaits : (t.chip != p.src || t.opened) = false := by rw [hchip, hopen]; simp
    rw [exec_openReply, execOpenReply, deliverRow_only hrun hd hwf (by rw [hdesc]; rfl) hu]
    simp only [hdesc, ht, hwaits, hkind, bne_self_eq_false, Bool.false_eq_true, if_false]
  · have hmine : (t.chip != p.src || t.kind != .put) = false := by rw [hchip, hkind]; simp
    rw [exec_endToEndAcknowledgement, execEndToEndAcknowledgement, deliverRow_only hrun hd hwf (by rw [hdesc]; rfl) hu]
    simp only [hdesc, ht, hmine, hclean, Bool.false_eq_true, if_false, if_true]
  · rw [exec_unreachable, execUnreachable, deliverRow_only hrun hd hwf (by rw [hdesc]; rfl) hu]
    simp only [hdesc]
  · have hfind : s.link.heldColl.find? (fun h => h.1 == n) = some (n, tick, p) := by simp [hheld]
    have hgone : (s.modLink fun l => { l with heldColl := l.heldColl.erase (n, tick, p) }) =
        ({ s with link := { s.link with heldColl := [] } } : State) := by rw [State.modLink, hheld, List.erase_cons_head]
    have hgo : (s.running && tick + 100000 ≤ s.elapsed) = true := by
      rw [hrun, decide_eq_true (show tick + 100000 ≤ s.elapsed from hpast)]
      rfl
    rw [exec_heldPacketDiscard, execHeldPacketDiscard, hfind]
    simp only [hgone]
    exact when_of_true hgo _

end Sys2Proof.Machine
end

section
/-! PROOFS. Health commands (O51). -/

set_option Elab.async false

namespace Sys2Proof.Machine

/-! ### Health commands -/

theorem exec_scrubCfg (e : Env) (a b : U32) (s : State) : exec (.scrubCfg e a b) s = execScrubCfg e a b s := rfl
theorem exec_selftest (e : Env) (m : Byte) (s : State) : exec (.selftest e m) s = execSelftest e m s := rfl
theorem exec_selftestComplete (fs : List (Nat × Nat × Nat)) (ls : List (Nat × Nat)) (s : State) :
    exec (.selftestComplete fs ls) s = execSelftestComplete fs ls s := rfl
theorem exec_healthQuery (e : Env) (dst : U64) (len : U32) (s : State) :
    exec (.healthQuery e dst len) s = execHealthQuery e dst len s := rfl
theorem exec_traceCfg (e : Env) (buf : U64) (size mask : U32) (s : State) :
    exec (.traceCfg e buf size mask) s = execTraceCfg e buf size mask s := rfl
theorem exec_dump (e : Env) (dst : U64) (len : U32) (kind : Byte) (core : U32) (s : State) :
    exec (.dump e dst len kind core) s = execDump e dst len kind core s := rfl

theorem fieldOk_iff (v : U32) (lo hi : Nat) : fieldOk v.toNat lo hi = true ↔ (v = 0 ∨ (lo ≤ v.toNat ∧ v.toNat ≤ hi)) := by
  rw [fieldOk, Bool.or_eq_true, Bool.and_eq_true, decide_eq_true_eq, decide_eq_true_eq, beq_iff_eq, ← BitVec.toNat_inj]
  rfl

theorem checkScrubCfg_none_iff (a b : U32) (s : State) : checkScrubCfg a b s = none ↔
    (a = 0 ∨ (10 ≤ a.toNat ∧ a.toNat ≤ 60)) ∧ (b = 0 ∨ (30 ≤ b.toNat ∧ b.toNat ≤ 300)) := by
  rw [← fieldOk_iff, ← fieldOk_iff, checkScrubCfg]
  cases fieldOk a.toNat 10 60 <;> cases fieldOk b.toNat 30 300 <;> simp [firstFail]

theorem dumpBytes_length (s : State) (e : Env) (kind core : Nat) :
    (s.dumpBytes e kind core).length = 32 + (s.dumpBody e kind core).length := by
  simp only [State.dumpBytes, List.length_append, length_leBytes, zeros, List.length_replicate]

/-- Settles O51: each command from the state in which it starts, and the end of a self-test. -/
theorem healthCommands : Obligations.HealthCommands := by
  intro s e r
  refine ⟨fun a b h => ?_, fun a b => checkScrubCfg_none_iff a b s, fun m h hm => ?_,
    fun cmd m hrun hst => ⟨?_, fun d row pos hm hd hrow hpos htest => ?_⟩, fun dst len k h hlen hk => ?_, fun buf size mask h hsize => ?_,
    fun dst len core kind k body h hlen hk hbody hfit => ?_⟩
  · rw [exec_scrubCfg, execScrubCfg, command_ready h _ _ _ rfl, startScrubCfg, ← started_hbmS s r, ← started_ddrS s r]
    rfl
  · rw [exec_selftest, execSelftest, command_ready h _ _ _ rfl, startSelftest, if_neg hm, ← started_selftest s r]
    rfl
  · simp only [exec_selftestComplete, execSelftestComplete, hst, hrun, Bool.not_true, Bool.false_eq_true, if_false, List.filter_nil, ite_self,
      List.foldl_nil]
    rfl
  · have hok : (decide (d < 4) && decide (row < 80) && decide (pos < 82) && s.testable d row pos) = true := by
      rw [decide_eq_true hd, decide_eq_true hrow, decide_eq_true hpos, htest]
      rfl
    simp only [exec_selftestComplete, execSelftestComplete, hst, hrun, hm, hok, Bool.not_true, Bool.false_eq_true, if_false, List.filter_nil,
      ite_self, List.filter_cons_of_pos, List.foldl_cons, List.foldl_nil, List.length_singleton, List.length_nil,
      show leBytes 4 (1 + 0) = [1, 0, 0, 0] by decide]
    rfl
  · have hz : (len == 0) = false := by simpa using hlen
    rw [exec_healthQuery, execHealthQuery, command_ready h _ _ _ hz, startHealthQuery, keyAt_of_heldAddr hk]
  · have hz : (size == 0) = false := by simpa using hsize
    rw [exec_traceCfg, execTraceCfg, command_ready h _ _ _ hz, startTraceCfg]
    rfl
  · have hz : (len == 0) = false := by simpa using hlen
    have hlong : ¬ len.toNat < 32 + body.length := by omega
    have hbytes : (s.started r).dumpBytes e kind.toNat core.toNat = leBytes 4 0x31504D44 ++ leBytes 1 kind.toNat ++ [0] ++ leBytes 2 1 ++
        leBytes 4 (32 + body.length) ++ [0, 0, 0, 0] ++ leBytes 8 s.tmr.count ++ [0, 0, 0, 0, 0, 0, 0, 0] ++ body := by
      rw [hbody, ← started_tmr s r]
      rfl
    rw [exec_dump, execDump, command_ready h _ _ _ hz, startDump, keyAt_of_heldAddr hk]
    simp only [dumpBytes_length, ← hbody, hlong, if_false]
    rw [hbytes]

end Sys2Proof.Machine
end

section
/-! PROOFS. Scrub and row repair (O53). -/

set_option Elab.async false

namespace Sys2Proof.Machine

/-! ### Scrub and row repair -/

theorem exec_sramScrub (p : CorePos) (cs us : List Nat) (s : State) : exec (.sramScrub p cs us) s = execSramScrub p cs us s := rfl
theorem exec_hbmPatrolScrub (h pc row : Nat) (cs us : List Nat) (lost : Bool) (s : State) :
    exec (.hbmPatrolScrub h pc row cs us lost) s = execHbmPatrolScrub h pc row cs us lost s := rfl
theorem exec_hbmRowRepair (h pc bank row n : Nat) (s : State) :
    exec (.hbmRowRepair h pc bank row n) s = execHbmRowRepair h pc bank row n s := rfl
theorem exec_ddrPatrolScrub (c : Nat) (cs us : List Nat) (s : State) : exec (.ddrPatrolScrub c cs us) s = execDdrPatrolScrub c cs us s := rfl

/-- A word that does not read as poisoned is not in the list of poisoned words. -/
theorem poison_contains_of_clean {m : Memory} {k : Nat} (h : m.poisonedAt k = false) : m.poison.contains (eccBase k) = false := by
  rw [Memory.poisonedAt, Memory.poisonWords, List.append_assoc] at h
  rw [List.contains_eq_mem, decide_eq_false_iff_not] at h ⊢
  exact fun hmem => h (List.mem_append_left _ hmem)

section
variable {s : State}

theorem poisonedAt_markPoison {k : Nat} (h : spaceOf k ≠ 3) : (s.markPoison [k]).mem.poisonedAt k = true := by
  refine poisonedAt_of_poison ?_
  rw [State.markPoison, List.foldl_cons, List.foldl_nil, if_neg h]
  exact (mem_insSorted _ _ _).mpr (.inl rfl)

theorem event_mem_of_ringless {src kind : Nat} {pl : List Byte} (h : s.evc.ringN = 0) : (s.event src kind pl).mem = s.mem := by
  rw [event_ringless h]
  rfl

theorem event_ringN_of_ringless {src kind : Nat} {pl : List Byte} (h : s.evc.ringN = 0) : (s.event src kind pl).evc.ringN = 0 := by
  rw [event_ringless h]
  exact h

/-- Where no changed word waits, none is settled. -/
theorem settleUpsets_nil (h : s.mem.upsets = []) : s.settleUpsets [] = s := by
  rw [State.settleUpsets, State.modMem, h, List.filter_nil, ← h]

/-- The uncorrectable words of a core's scrub that had not been poisoned before. -/
def State.freshWords (s : State) (core : Option Nat) (us : List Nat) : List Nat :=
  us.filter fun o => decide (o < sramBytes) && match core with
    | some c => !s.mem.poison.contains (eccBase (sramKey c + o))
    | none => true

theorem execSramScrub_quiet {d row pos : Nat} (cs us : List Nat) (hw : s.working = true) (hup : s.mem.upsets = [])
    (h6 : 6 ≤ s.boot.stage) (hd : d < 4) (hrow : row < 80) (hpos : pos < 82) (hok : s.grid.failed.contains (d, row, pos) = false) :
    execSramScrub ⟨d, row, pos⟩ cs us s =
      .next (s.sramWords d row pos (s.grid.coreAt d row pos) (cs.filter fun o => decide (o < sramBytes))
        (s.freshWords (s.grid.coreAt d row pos) us) (bankWorn (cs.filter fun o => decide (o < sramBytes)))) := by
  have hgo : (!(s.working && 6 ≤ s.boot.stage && d < 4 && row < 80 && pos < 82 && !s.grid.failed.contains (d, row, pos))) = false := by
    rw [hw, decide_eq_true h6, decide_eq_true hd, decide_eq_true hrow, decide_eq_true hpos, hok]
    rfl
  simp only [execSramScrub, hgo, Bool.false_eq_true, if_false]
  cases s.grid.coreAt d row pos with
  | none => simp only [State.upsetOffs, List.filter_nil, List.map_nil, List.append_nil, settleUpsets_nil hup]; rfl
  | some c => simp only [hup, State.upsetOffs, List.filter_nil, List.map_nil, List.append_nil, settleUpsets_nil hup]; rfl

/-- At most sixteen corrected words of a bank do not wear it. -/
theorem bankWorn_singleton (o : Nat) : bankWorn [o] = false := by
  rw [bankWorn, List.any_eq_false]
  intro b _
  have hle : ([o].filter fun x => sramBank x == b).length ≤ 1 := List.length_filter_le _ _
  simp only [decide_eq_true_eq]
  omega

/-- The offsets of a scrub that lie in the pseudo-channel it walks. -/
def State.inChannel (s : State) (h pc o : Nat) : Bool := s.rangeOk (mkKey 0 o) 1 && hbmStack o == h && hbmPc o == pc

theorem execHbmPatrolScrub_quiet {h pc row : Nat} (cs us : List Nat) (hw : s.working = true) (hup : s.mem.upsets = [])
    (h8 : 8 ≤ s.boot.stage) (hh : h < 24) (hpc : pc < 32) : execHbmPatrolScrub h pc row cs us false s =
      .next (s.hbmWords h pc row (cs.filter (s.inChannel h pc))
        (us.filter fun o => s.inChannel h pc o && !s.mem.poison.contains (eccBase (mkKey 0 o)))) := by
  have hgo : (!(s.working && 8 ≤ s.boot.stage && h < 24 && pc < 32)) = false := by
    rw [hw, decide_eq_true h8, decide_eq_true hh, decide_eq_true hpc]
    rfl
  simp only [execHbmPatrolScrub, hgo, hup, State.upsetOffs, List.filter_nil, List.map_nil, List.append_nil, settleUpsets_nil hup,
    Bool.false_eq_true, if_false]
  rfl

/-- The offsets of a scrub that lie in the zeroed memory of its channel. -/
def State.inDdr (s : State) (c o : Nat) : Bool := s.rangeOk (mkKey 1 o) 1 && s.grid.ddrChannel o == some c && s.ddrZeroedAt o

theorem execDdrPatrolScrub_quiet {c : Nat} (cs us : List Nat) (hw : s.working = true) (hup : s.mem.upsets = [])
    (h8 : 8 ≤ s.boot.stage) (hc : c < 16) : execDdrPatrolScrub c cs us s =
      .next (s.ddrWords c (cs.filter (s.inDdr c))
        (us.filter fun o => s.inDdr c o && !s.mem.poison.contains (eccBase (mkKey 1 o)))) := by
  have hgo : (!(s.working && 8 ≤ s.boot.stage && c < 16)) = false := by
    rw [hw, decide_eq_true h8, decide_eq_true hc]
    rfl
  simp only [execDdrPatrolScrub, hgo, hup, State.upsetOffs, List.filter_nil, List.map_nil, List.append_nil, settleUpsets_nil hup,
    Bool.false_eq_true, if_false]
  rfl

end

/-- A band names one of the channels it was given. -/
theorem ddrBand_mem {fuel u c : Nat} {chs : List (Nat × Nat)} (h : ddrBand fuel chs u = some c) : c ∈ chs.map (·.1) := by
  induction fuel generalizing chs u with
  | zero => cases h
  | succ fuel ih =>
    rw [ddrBand] at h
    split at h
    next =>
      obtain ⟨x, hx, rfl⟩ := Option.map_eq_some_iff.mp h
      exact List.mem_map_of_mem (List.mem_of_mem_filter (List.mem_of_getElem? hx))
    next =>
      have hmem := ih h
      rw [List.map_map] at hmem
      obtain ⟨x, hx, rfl⟩ := List.mem_map.mp hmem
      exact List.mem_map.mpr ⟨x, List.mem_of_mem_filter hx, rfl⟩

/-- An offset of one of the sixteen channels names a word of DDR. -/
theorem spaceOf_ddr {g : Grid} {o c : Nat} (h : g.ddrChannel o = some c) (hc : c < 16) : spaceOf (mkKey 1 o) = 1 := by
  have hmem := ddrBand_mem h
  obtain ⟨x, hx, hxc⟩ := List.mem_map.mp hmem
  obtain ⟨i, -, rfl⟩ := List.mem_map.mp hx
  dsimp only at hxc
  unfold spaceOf mkKey
  omega

/-- An offset of one of the 24 stacks names a word of HBM. -/
theorem spaceOf_hbm {o h : Nat} (heq : hbmStack o = h) (hh : h < 24) : spaceOf (mkKey 0 o) = 0 := by
  unfold hbmStack at heq
  unfold spaceOf mkKey
  omega

section
variable {s : State}

/-- The counts of a scrub of SRAM that met `ce` correctable and `ue` uncorrectable words. -/
def State.sramCounted (s : State) (ce ue : Nat) : State :=
  (s.countCorrected ce).modHealth fun h => { h with sramCe := satAdd 64 h.sramCe ce, sramUe := satAdd 64 h.sramUe ue }

theorem sramWords_corrected {d row pos o : Nat} (core : Option Nat) :
    s.sramWords d row pos core [o] [] false = s.sramCounted 1 0 := by
  cases core <;> rfl

theorem sramWords_core {d row pos c o : Nat} : s.sramWords d row pos (some c) [] [o] (bankWorn []) =
    ((((s.sramCounted 0 1).markPoison [sramKey c + o]).event (52 + d) 0x0064 (leBytes 2 c ++ [0, 0] ++ leBytes 4 o)).failPos d row pos) := by
  rw [State.sramWords]
  simp only [List.isEmpty_cons, Bool.not_false, Bool.true_or, if_true, List.foldl_cons, List.foldl_nil]
  rfl

theorem sramWords_spare {d row pos o : Nat} :
    s.sramWords d row pos none [] [o] (bankWorn []) = (s.sramCounted 0 1).failPos d row pos := by
  rw [State.sramWords]
  simp only [List.isEmpty_cons, Bool.not_false, Bool.true_or, if_true]
  rfl

/-- An uncorrectable word of HBM is poisoned, and its row is due for repair. -/
theorem hbmWords_uncorrectable {h pc row o : Nat} (hk : spaceOf (mkKey 0 o) = 0) (hring : s.evc.ringN = 0) :
    (s.hbmWords h pc row [] [o]).mem.poisonedAt (mkKey 0 o) = true ∧ (s.hbmWords h pc row [] [o]).mem.cells = s.mem.cells ∧
      (h, pc, row) ∈ (s.hbmWords h pc row [] [o]).health.hbmDue := by
  refine ⟨?_, ?_, ?_⟩
  · rw [State.hbmWords, List.foldl_cons, List.foldl_nil, event_mem_of_ringless (by exact hring),
      poisonedAt_markPoison (by rw [hk]; decide)]
  · rw [State.hbmWords, List.foldl_cons, List.foldl_nil, event_mem_of_ringless (by exact hring)]
    rfl
  · rw [State.hbmWords, List.foldl_cons, List.foldl_nil, event_hbmDue]
    simp only [markPoison_health, State.modHealth, State.countCorrected, rowDue, List.isEmpty_cons, Bool.not_false, Bool.true_or,
      Bool.true_and, Bool.not_eq_true']
    split
    next => exact List.mem_append_right _ (List.mem_singleton.mpr rfl)
    next hin => simpa using hin

/-- An uncorrectable word of DDR is poisoned. -/
theorem ddrWords_uncorrectable {c o : Nat} (hk : spaceOf (mkKey 1 o) = 1) (hring : s.evc.ringN = 0) :
    (s.ddrWords c [] [o]).mem.poisonedAt (mkKey 1 o) = true ∧ (s.ddrWords c [] [o]).mem.cells = s.mem.cells := by
  have hmem : (s.ddrWords c [] [o]).mem = (s.markPoison [mkKey 1 o]).mem := by
    rw [State.ddrWords, List.foldl_cons, List.foldl_nil]
    dsimp only
    split
    · rw [event_mem_of_ringless (by exact event_ringN_of_ringless (by exact hring))]
      exact event_mem_of_ringless (by exact hring)
    · exact event_mem_of_ringless (by exact hring)
  rw [hmem]
  exact ⟨poisonedAt_markPoison (by rw [hk]; decide), rfl⟩

end

/-- Settles O53: words of SRAM, of HBM, the repair of a row, and words of DDR. -/
theorem scrubRows : Obligations.ScrubRows := by
  intro s hw hup
  refine ⟨fun d row pos o h6 hd hrow hpos hok ho => ?_, fun h pc row o h8 hh hpc hroom hst hch => ?_,
    fun h pc bank row n h8 hdue => ?_, fun c o h8 hc hroom hch hz => ?_⟩
  · have hin : decide (o < sramBytes) = true := decide_eq_true ho
    have hone : [o].filter (fun o => decide (o < sramBytes)) = [o] := List.filter_cons_of_pos (by exact hin)
    refine ⟨?_, s.sramCounted 0 1, rfl, rfl, rfl, rfl, fun c hcore hclean => ?_, fun hnone => ?_⟩
    · rw [exec_sramScrub, execSramScrub_quiet _ _ hw hup h6 hd hrow hpos hok, hone, bankWorn_singleton]
      exact congrArg _ (sramWords_corrected _)
    · have hfresh : s.freshWords (some c) [o] = [o] :=
        List.filter_cons_of_pos (by simp only [hin, poison_contains_of_clean hclean]; rfl)
      rw [exec_sramScrub, execSramScrub_quiet _ _ hw hup h6 hd hrow hpos hok, hcore, hfresh]
      exact congrArg _ sramWords_core
    · have hfresh : s.freshWords none [o] = [o] := List.filter_cons_of_pos (by rw [hin]; rfl)
      rw [exec_sramScrub, execSramScrub_quiet _ _ hw hup h6 hd hrow hpos hok, hnone, hfresh]
      exact congrArg _ sramWords_spare
  · have hin : s.inChannel h pc o = true := by rw [State.inChannel, hroom, hst, hch]; simp
    refine ⟨⟨s.hbmWords h pc row [o] [], ?_, rfl, rfl, rfl⟩, fun hclean hring => ?_⟩
    · rw [exec_hbmPatrolScrub, execHbmPatrolScrub_quiet _ _ hw hup h8 hh hpc, List.filter_cons_of_pos hin]
      rfl
    · refine ⟨s.hbmWords h pc row [] [o], ?_, hbmWords_uncorrectable (spaceOf_hbm hst hh) hring⟩
      rw [exec_hbmPatrolScrub, execHbmPatrolScrub_quiet _ _ hw hup h8 hh hpc, List.filter_cons_of_pos (by
        rw [hin, poison_contains_of_clean hclean]; rfl)]
      rfl
  · have hgo : (!(s.working && 8 ≤ s.boot.stage && s.health.hbmDue.contains (h, pc, row))) = false := by
      rw [hw, decide_eq_true h8, hdue]
      rfl
    simp only [exec_hbmRowRepair, execHbmRowRepair, hgo, Bool.false_eq_true, if_false, if_true, Nat.succ_ne_zero, Nat.add_sub_cancel]
    refine ⟨⟨_, rfl, ?_, ?_⟩, ⟨_, ?_, ?_, ?_, ?_, rfl⟩⟩
    · rw [event_grid]
      rfl
    · rw [event_hbmDue]
      simp [State.modHealth]
    · rfl
    · rfl
    · rfl
    · simp [State.modHealth, State.modGrid]
  · have hin : s.inDdr c o = true := by rw [State.inDdr, hroom, hch, hz]; simp
    refine ⟨⟨s.ddrWords c [o] [], ?_, rfl, rfl⟩, fun hclean hring => ?_⟩
    · rw [exec_ddrPatrolScrub, execDdrPatrolScrub_quiet _ _ hw hup h8 hc, List.filter_cons_of_pos hin]
      rfl
    · refine ⟨s.ddrWords c [] [o], ?_, ddrWords_uncorrectable (spaceOf_ddr hch hc) hring⟩
      rw [exec_ddrPatrolScrub, execDdrPatrolScrub_quiet _ _ hw hup h8 hc, List.filter_cons_of_pos (by
        rw [hin, poison_contains_of_clean hclean]; rfl)]
      rfl

end Sys2Proof.Machine
end

section
/-! PROOFS. The wear log and the repair record (O52). -/

set_option Elab.async false

namespace Sys2Proof.Machine

/-! ### The wear log and the repair record -/

theorem exec_wearLogWrite (s : State) : exec .wearLogWrite s = execWearLogWrite s := rfl

/-- The first byte of each copy in a run of copies of a string. -/
theorem getD_flatten_replicate {l : List Byte} (hl : 0 < l.length) {q n : Nat} (h : q < n) :
    (List.replicate n l).flatten.getD (q * l.length) 0 = l.getD 0 0 := by
  induction q generalizing n with
  | zero =>
    obtain ⟨m, rfl⟩ := Nat.exists_eq_succ_of_ne_zero (show n ≠ 0 by omega)
    rw [List.replicate_succ, List.flatten_cons, Nat.zero_mul, List.getD_append _ _ _ _ hl]
  | succ q ih =>
    obtain ⟨m, rfl⟩ := Nat.exists_eq_succ_of_ne_zero (show n ≠ 0 by omega)
    rw [List.replicate_succ, List.flatten_cons, List.getD_append_right _ _ _ _ (by rw [Nat.succ_mul]; omega), Nat.succ_mul,
      Nat.add_sub_cancel, ih (by omega)]

theorem leNat_lt (bs : List Byte) : leNat bs < 256 ^ bs.length := by
  induction bs with
  | nil => simp [leNat]
  | cons b bs ih =>
    have hb := b.isLt
    rw [leNat, List.length_cons, pow_succ]
    omega

section
variable {s : State}

/-- The body of the repair record in force is shorter than its length field can tell. -/
theorem repairBody_length_lt : s.repairBody.length < 2 ^ 32 := by
  rw [State.repairBody, State.flashRecord]
  cases s.flashCopy 2 with
  | none => simp
  | some o =>
    have hlen : s.flashLen o < 256 ^ 4 := by
      have hlt := leNat_lt (s.readBytes (mkKey 5 o + 8) 4)
      rwa [length_readBytes] at hlt
    simp only [Option.map_some, Option.getD_some, List.length_drop, State.flashBytes, length_readBytes]
    omega

/-- The repair record is written to one of its two copies. -/
theorem writeRepair_copy (s : State) : ∃ o seq, (o = 0x20000 ∨ o = 0x30000) ∧
    s.writeRepair = (s.eraseFlash o (flashMax 2)).writeBytes (mkKey 5 o) (flashSealed 2 seq s.grid.repairBytes) := by
  rw [State.writeRepair, State.flashWrite]
  by_cases hcur : s.flashCopy 2 = some 0x20000
  · rw [hcur]
    exact ⟨0x30000, _, .inr rfl, rfl⟩
  · have hfind : (flashCopies 2).find? (fun o => some o != s.flashCopy 2) = some 0x20000 :=
      List.find?_cons_of_pos (by rw [bne_iff_ne]; exact fun h => hcur h.symm)
    simp only [hfind]
    exact ⟨0x20000, _, .inl rfl, rfl⟩

/-- A byte of the body of a sealed record. -/
theorem getD_flashSealed_body (type seq j : Nat) (body : List Byte) : (flashSealed type seq body).getD (32 + j) 0 = body.getD j 0 := by
  have hhead : (flashHead type seq body.length ++ leBytes 4 (flashCrc (flashHead type seq body.length ++ zeros 16 ++ body)) ++
      zeros 12).length = 32 := by
    simp only [flashHead, List.length_append, length_leBytes, zeros, List.length_replicate]
  rw [flashSealed_eq, List.getD_append_right _ _ _ _ (by omega), hhead, Nat.add_sub_cancel_left]

end

/-- The 8 bytes of a repair record that name an element. -/
def elementEntry : List Byte := [4, 0, 0, 0, 0, 0, 0, 0]

/-- The module a day after its last wear log entry, with `n` failed elements of one name. -/
def crowdedState (n : Nat) : State := { bootedState with
  grid := { bootedState.grid with elements := List.replicate n ⟨0, 0, 0⟩ }, health := { bootedState.health with hours := 24 } }

theorem crowdedState_repairBytes (n : Nat) : (crowdedState n).grid.repairBytes = (List.replicate n elementEntry).flatten := by
  have hbytes : (crowdedState n).grid.repairBytes = [] ++ [] ++ [] ++ (List.replicate n (⟨0, 0, 0⟩ : Element)).flatMap fun e =>
    leBytes 1 4 ++ leBytes 1 e.kind ++ leBytes 2 e.index ++ leBytes 1 e.dir ++ zeros 3 := rfl
  rw [hbytes, List.flatMap, List.map_replicate]
  rfl

/-- With more elements than flash has room for, the repair record runs over the end of flash into the next space. -/
theorem execWearLogWrite_overruns {n : Nat} (hn : 2 ^ 48 ≤ 8 * n) {t : State} (h : execWearLogWrite (crowdedState n) = .next t) :
    t.readByte (6 * 2 ^ 48) = 4 := by
  set s1 := ((crowdedState n).appendWear (crowdedState n).wearEntry).modHealth fun h => { h with logHours := h.hours } with hs1
  have hgrid : s1.grid.repairBytes = (List.replicate n elementEntry).flatten := crowdedState_repairBytes n
  have hlong : (s1.grid.repairBytes == s1.repairBody) = false := by
    rw [beq_eq_false_iff_ne]
    intro heq
    have hlen := congrArg List.length heq
    have hshort := repairBody_length_lt (s := s1)
    rw [hgrid, List.length_flatten, List.map_replicate, List.sum_replicate, smul_eq_mul] at hlen
    have height : elementEntry.length = 8 := rfl
    rw [height] at hlen
    omega
  have hgo : (!((crowdedState n).running && (crowdedState n).health.logHours + 24 ≤ (crowdedState n).health.hours)) = false := rfl
  have ht : t = s1.writeRepair := by
    rw [execWearLogWrite, hgo] at h
    simp only [Bool.false_eq_true, if_false, ← hs1, hlong] at h
    exact (Host.Outcome.next.inj h).symm
  obtain ⟨o, seq, ho, hwrite⟩ := writeRepair_copy s1
  have hwf0 : (crowdedState n).mem.wf = true := rfl
  have hwf1 : ((crowdedState n).appendWear (crowdedState n).wearEntry).mem.wf = true := by
    rw [State.appendWear]
    exact writeBytes_wf hwf0 _ _
  have hwf : (s1.eraseFlash o (flashMax 2)).mem.wf = true := eraseFlash_wf hwf1 _ _
  have hread := fun {i : Nat} (hi : i < _) => writeBytes_read_all hwf rfl rfl (mkKey 5 o) (flashSealed 2 seq s1.grid.repairBytes) (i := i) hi
  obtain ⟨q, hq, hqn⟩ : ∃ q, 32 + q * elementEntry.length + o = 2 ^ 48 ∧ q < n := by
    have height : elementEntry.length = 8 := rfl
    rw [height]
    rcases ho with rfl | rfl
    · exact ⟨(2 ^ 48 - 0x20000 - 32) / 8, by norm_num, by omega⟩
    · exact ⟨(2 ^ 48 - 0x30000 - 32) / 8, by norm_num, by omega⟩
  have hin : 32 + q * elementEntry.length < (flashSealed 2 seq s1.grid.repairBytes).length := by
    rw [length_flashSealed, hgrid, List.length_flatten, List.map_replicate, List.sum_replicate, smul_eq_mul]
    exact Nat.add_lt_add_left (Nat.mul_lt_mul_of_pos_right hqn (by decide)) _
  have hkey : mkKey 5 o + (32 + q * elementEntry.length) = 6 * 2 ^ 48 := by
    unfold mkKey
    omega
  rw [ht, hwrite, ← hkey, hread hin, getD_flashSealed_body, hgrid, getD_flatten_replicate (by decide) hqn]
  rfl

/-- Refutes O52 in the daily entry of the wear log: the statement speaks of every state, also of one with more failed elements
than a repair record has room for. The record written then does not end within flash. -/
theorem not_selfTestAndFaultRows : ¬ Obligations.SelfTestAndFaultRows := by
  rintro ⟨-, h⟩
  obtain ⟨-, -, -, -, hlog⟩ := h (crowdedState (2 ^ 45)) rfl
  obtain ⟨t, ht, -, -, hkeep⟩ := hlog rfl (by decide)
  have hfour := execWearLogWrite_overruns (n := 2 ^ 45) (by norm_num) ht
  have hzero : t.readByte (6 * 2 ^ 48) = 0 := hkeep _ (by decide) rfl rfl
  rw [hfour] at hzero
  exact absurd hzero (by decide)

end Sys2Proof.Machine
end
